-- ==== Sys2Proof/Word.lean ====
section
/-! DEFINITION. The plainest types and arithmetic: bytes, 32-bit register words, saturating counts. -/

namespace Sys2Proof

/-- A byte is 8 bits (R10). -/
abbrev Byte := BitVec 8

/-- A management register is 32 bits wide (R10). -/
abbrev Reg := BitVec 32

/-- The largest value of a 48-bit counter (R117, R476). -/
def max48 : Nat := 2 ^ 48 - 1

/-- A count that saturates at `top` and never wraps. -/
def satAdd (top a b : Nat) : Nat := min top (a + b)

/-- Division rounding up. -/
def ceilDiv (a b : Nat) : Nat := (a + b - 1) / b

end Sys2Proof
end

