-- ==== Sys2Proof/Syntax.lean ====
section
/-! DEFINITION. The commands of the block: one constructor of `Instr` for each row of spec/opcode_table.json, with the
operands the row's rule gives it (an address, a value, a message, a physical reading). -/

namespace Sys2Proof

/-- A product-table entry that fails its parity (R116): the run of a plane and the group in it, the logical row, the table among those of
the row's group in the order of `Lay.vals`, the pass whose staves meet the fault, the entry, and the pass in which the check finds it:
that pass itself, or an earlier one, after which the table is rebuilt and the pass waits. -/
structure TableHit where
  run : Nat
  group : Nat
  row : Nat
  value : Nat
  pass : Nat
  found : Nat
  entry : Nat
  deriving DecidableEq, Repr

/-- Upsets that strike the accesses of one firing: the physical events 95_what_each_step_holds places inside a step.
An empty record is the undisturbed case. -/
structure Upsets where
  /-- (block address, fetches that fail their CRC) under R341; four failures exhaust the re-reads -/
  crc : List (Nat × Nat) := []
  /-- (block address, writes of it that the device reports as failed) under R342; four failures exhaust the retries -/
  wr : List (Nat × Nat) := []
  /-- product-table entries failing parity (R116) -/
  table : List TableHit := []
  /-- queue words failing parity (R231): (detail code, payload word index) -/
  queue : List (Nat × Nat) := []
  /-- block-store words corrected under SEC-DED, by byte offset (table of R33) -/
  eccCorr : List Nat := []
  /-- block-store words found uncorrectable, by byte offset (table of R33) -/
  eccUnc : List Nat := []
  deriving DecidableEq, Repr

/-- An operand, with the upsets that strike the accesses to memory made as it is taken. -/
structure Met (α : Type) where
  it : α
  ups : Upsets := {}
  deriving DecidableEq, Repr

/-- The firing of one instruction: block, stage index, and the position of the instruction in the stage's program order
counted across repeats (R134). -/
structure Fire where
  blk : Nat
  stage : Nat
  pos : Nat
  ups : Upsets := {}
  deriving DecidableEq, Repr

/-- Who asks a queue for cells (R210, R224): a SEND at a position of a stage, the ingress port, or a Drover slice. -/
inductive Requester where
  | stage (blk stage pos : Nat)
  | ingress
  | drover (region : Nat)
  deriving DecidableEq, Repr

/-- A Drover message: the header fields of R299 and the payload bytes. -/
structure DMsg where
  type : Nat
  fold : Nat := 0xFF
  src : Nat := 0
  dst : Nat := 0
  fmt : Nat := 0
  step : Nat := 0
  epoch : Nat := 0
  layer : Nat := 0
  chunk : Nat := 0
  tensor : Nat := 0
  count : Nat := 0
  first : Nat := 0
  lap : Nat := 0
  hop : Nat := 0
  scale : Nat := 0
  mcast : Bool := false
  /-- bits of the header's reserved fields, as a number; 0 in a well-formed message -/
  rsv : Nat := 0
  time : Nat := 0
  payload : List Byte := []
  /-- CRC-32C of the payload carried by the header (offset 0x38) -/
  pcrc : Nat := 0
  deriving DecidableEq, Repr

/-- A command message of the control port (R407): the session of its block, the header fields and the inline arguments. -/
structure Cmd where
  sess : Nat
  tag : Nat := 0
  inlineLen : Nat := 0
  bulkLen : Nat := 0
  /-- the 16 reserved bytes of the header as a number; 0 when legal -/
  rsv : Nat := 0
  args : List Byte := []
  deriving DecidableEq, Repr

/-- What a hello carries (R363). -/
structure Hello where
  heard : Bool
  kind : Nat
  port : Nat
  serial : Nat
  job : Nat
  /-- the 66 credit allocations in the order of R363 -/
  credits : List Nat := []
  deriving DecidableEq, Repr

/-- The path a register access takes (R504, R505). -/
inductive Path where
  | sideband
  | command
  deriving DecidableEq, Repr

/-- A trace record of the general layout (R481), or one half of a pair (R487, R497): its 32 bytes by field. -/
structure TRec where
  kind : Nat
  flags : Nat := 0
  src : Nat := 0
  stage : Nat := 0xFF
  awStage : Nat := 0xFF
  awSrc : Nat := 0
  start : Nat := 0
  dur : Nat := 0
  awDev : Nat := 0
  detail : Nat := 0
  obj : Nat := 0
  deriving DecidableEq, Repr

/-- A record to be written, or a watch pair with its second slot (R480, R487). -/
structure TraceEvent where
  fst : TRec
  second : Option TRec := none
  deriving DecidableEq, Repr

/-- What one block's self-test finds at a start (R110, R114, R400). -/
structure BlockTest where
  blk : Nat
  rowBad : List Nat := []
  colBad : List Nat := []
  staveBad : List (Nat × Nat) := []
  /-- logical rows whose tap fails the pattern: (row, 0 cured one cycle later, 1 cured one cycle earlier, 2 never) -/
  taps : List (Nat × Nat) := []
  marchFail : Bool := false
  deriving DecidableEq, Repr

/-- One block's readings in an ageing measurement (R465, R467): what its four path-delay monitors show at the offset in force, and at the
second offset of `replan`, in steps of 2 ps (signed), and its ring oscillator's count over 100 µs. -/
structure AgeRead where
  blk : Nat
  at0 : List Int
  at1 : List Int
  ring : Nat := 0
  deriving DecidableEq, Repr

/-- The least slack of a block's monitors, in ps (R467). -/
def leastSlack (l : List Int) : Int := 2 * (l.tail.foldl Min.min (l.headD 0))

/-- Seconds that a die spent with its hottest sensor at a temperature, in °C, and its mean block-island supply at a voltage, in mV (R470). -/
structure DieRead where
  die : Nat
  secs : Nat
  temp : Int
  mv : Nat
  deriving DecidableEq, Repr

/-- A sample of the rail monitors: the energy of each domain in nJ, none where a monitor's is missing (R440, R441); and the seconds that came
full with it, die by die (R470). -/
structure RailRead where
  nj : List (Option Nat)
  dies : List DieRead := []
  deriving DecidableEq, Repr

/-- A chunk of a shipped snapshot: the device it is for, and its data (R423). -/
structure Chunk where
  dst : Nat
  data : List Byte
  deriving DecidableEq, Repr

/-- The head of a sideband read: its byte count, and whether the PEC matches, where the host sends one (R502). -/
structure SbHead where
  count : Nat
  pecOk : Bool := true
  deriving DecidableEq, Repr

/-- What a carrier does with the journal store: erases it; reads a range of a device: device, offset, length (R378, R472). -/
structure JournalUse where
  erase : Bool := false
  read : Option (Nat × Nat × Nat) := none
  deriving DecidableEq, Repr

/-- The physical outcomes met by one start-up (R399): self-test results, devices that fail training, region failures,
the readings of the ageing measurement, and signatures the identity element checks (R396). -/
structure StartEnv where
  blocks : List BlockTest := []
  regionsFail : List Nat := []
  memFail : List Nat := []
  ageing : List AgeRead := []
  deriving DecidableEq, Repr

/-- The commands of the block, one for each row of spec/opcode_table.json. -/
inductive Instr where
  -- block instructions
  | mma (f : Fire)
  | conv (f : Fire)
  | vec (f : Fire)
  | vecCopy (f : Fire)
  | norm (f : Fire)
  | softmax (f : Fire)
  | reduce (f : Fire)
  | gather (f : Fire)
  | scatterAdd (f : Fire)
  | routeTopk (f : Fire)
  | routeCount (f : Fire)
  | quant (f : Fire)
  | dequant (f : Fire)
  | rng (f : Fire)
  | loss (f : Fire)
  | send (f : Fire)
  | recv (f : Fire)
  | sealLayer (f : Fire)
  | sealStep (f : Fire)
  -- layers, steps, governor, update engine
  | layerSwitch (blk : Nat)
  | prefetchComplete (blk : Nat) (tensor : Met Nat)
  | tallyRecords (region layer : Nat)
  | layerVerdict (layer : Nat)
  | moduleStepSeal
  | stepVote
  | vote (port : Nat) (m : DMsg)
  | verdict (port : Nat) (m : DMsg)
  | formatChangeEffect
  | queueSquash
  | updateShard (region : Nat) (ups : Upsets)
  | snapshotCopy (ups : Upsets)
  -- Drover
  | bucketFill (layer chunk : Nat) (ups : Upsets)
  | head (port : Nat) (m : DMsg)
  | grant (port : Nat) (m : DMsg)
  | grad (port : Nat) (m : DMsg)
  | ring (port : Nat) (m : DMsg)
  | ringFinal (port : Nat) (m : DMsg)
  | param (port : Nat) (m : Met DMsg)
  | badDroverMessage (port : Nat) (m : DMsg)
  | fault (port : Nat) (m : DMsg)
  | stop (port : Nat) (m : DMsg)
  | automaticRestart
  | restart (port : Nat) (m : Met DMsg)
  | restartAck (port : Nat) (m : DMsg)
  | form (port : Nat) (m : DMsg)
  | formAck (port : Nat) (m : DMsg)
  | probe (port : Nat) (m : DMsg)
  | probeReply (port : Nat) (m : DMsg)
  | formed (port : Nat) (m : DMsg)
  | flockFormation
  | peerLost (detail device : Nat)
  -- queues
  | cellRequest (queue : Nat) (who : Requester) (amount : Nat)
  | cellGrant (queue : Nat)
  | dataVisible (queue : Nat)
  | queueReadTimeout (queue : Nat)
  | egressForward (queue : Nat) (ups : Upsets)
  | deadlock
  -- memory
  | pageMigration (region page : Nat)
  | migrationComplete (page : Nat) (ups : Upsets)
  | eviction
  | migrationWatchdog (page : Nat)
  | memTemperatureRead (ctl temp : Nat)
  | memRefresh (ctl bank : Nat)
  -- links
  | flitBlock (port : Nat) (bytes : List Byte) (fecBad : Bool)
  | nakResendTimer (port : Nat)
  | ackTimeout (port : Nat)
  | fastRetrain (port : Nat)
  | lossOfSignal (port : Nat)
  | signalDetect (port : Nat)
  | helloTimer (port : Nat)
  | hello (port : Nat) (h : Hello)
  | linkTrainingTimeout (port : Nat)
  | linkRetry (port : Nat)
  | linkSleep (port : Nat)
  | linkWake (port : Nat)
  | stopRequest (port action device handle time : Nat)
  | pauseMarker (port round device handle : Nat)
  | pauseRoundOne
  -- host commands
  | openSession (sess : Nat) (msg : List Byte)
  | closeSession (sess : Nat)
  | hciBadMessage (sess : Nat) (msg : List Byte)
  | identify (c : Cmd)
  | attest (c : Cmd)
  | jobStart (c : Met Cmd)
  | jobPause (c : Cmd)
  | jobHalt (c : Cmd)
  | jobResume (c : Cmd)
  | jobAbort (c : Cmd)
  | snapshotTake (c : Cmd)
  | snapshotWrite (c : Cmd)
  | snapshotShip (c : Met Cmd)
  | snapshotChunk (port src index count len crc : Nat) (data : Met Chunk)
  | powerState (c : Cmd)
  | readRegs (c : Cmd)
  | writeRegs (c : Cmd)
  | countersRead (c : Cmd)
  | traceArm (c : Cmd)
  | traceRead (c : Cmd)
  | energyReport (c : Cmd)
  | streamOpen (c : Cmd)
  | streamClose (c : Cmd)
  | streamMessage (sess stream : Nat) (data : List Byte)
  | abortHandle (c : Cmd)
  -- power and energy
  | wake
  | railSample (nj : RailRead)
  | intervalRecordTimer
  | recordSigned
  | chainHeadSave
  | sign
  | clear
  | engFlkStageAppend (value : Reg)
  -- faults and ageing
  | report (code source context time : Nat)
  | firstFaultWindow
  | thermalTrip (die temp : Nat)
  | dieOvertemperature (die temp : Nat)
  | firmwareWatchdog
  | lockstepDivergence
  | identityTimeout
  | referenceClockLoss
  | referenceClockReturn
  | islandClockGate
  | supplyDroop (blk : Nat)
  | eventOverrun (source line : Nat)
  | meshFlitCrcFail (blk : Nat)
  | ageingDue
  | ageingMeasurementEnd (reads : List AgeRead)
  | now
  | summaryTimer
  -- trace and registers
  | traceRecord (region : Nat) (r : TraceEvent)
  | traceTimeTrigger
  | traceFreeze (region : Nat)
  | force
  | disarm
  | periodicCapture
  | queDescSel (region : Nat) (value : Reg)
  | errLogPtrRd (value : Reg)
  | errFirstValidClear
  | errLog0Read (path : Path)
  | loRegisterRead (path : Path) (offset : Nat)
  | rcFieldRead (path : Path) (offset : Nat)
  | glbCdcFlagsClear (blk : Option Nat) (mask : Nat)
  | registerWrite (path : Path) (offset : Nat) (value : Reg)
  | sidebandWrite (count : Nat) (bytes : List Byte) (pecOk : Bool)
  | sidebandRead (count : SbHead) (bytes : List Byte)
  | sidebandBlockRead (count : SbHead) (bytes : List Byte)
  | sidebandRepeatRead (count : SbHead)
  | alertResponse
  -- board
  | powerGoodRise (straps : Nat) (resetHigh : Bool)
  | powerGoodFall
  | resetNRise (env : StartEnv)
  | resetNFall (lowNs : Nat)
  | flashPassThrough (image : Option (List Byte)) (recovery : Option (List Byte)) (eraseJournal : JournalUse)
  | fecLock (port : Nat)
  | retrainAttemptTimeout (port : Nat)
  | linkWaitExpiry
  | opticalEngineOvertemperature (port temp : Nat)
  | bulkArgument (sess tag : Nat) (rsv : Nat) (data : Met (List Byte))
  | unlistedOpcode (opcode : Nat) (c : Cmd)
  | sidebandUnlistedCommand (code : Nat)
  deriving DecidableEq, Repr

end Sys2Proof
end

