-- ==== Sys2Proof/Decode.lean ====
section
/-! DEFINITION. Words that spell commands. No row of spec/opcode_table.json gives bits to its command, so no word spells
one: commands reach the block as messages, pins and physical events. -/

namespace Sys2Proof

/-- The command that a word of the table's bits spells: the table gives bits to no row. -/
def decodeTableWord (nbits w : Nat) : Option Instr :=
  match nbits, w with
  | _, _ => none

end Sys2Proof
end

