-- ==== Sys2Proof/Config.lean ====
section
/-! DEFINITION. What the manual leaves open, as constants without a body (assumption log 1 and 7), and the constants of
one device (its identity element). No proof can see a value of any of them. -/

namespace Sys2Proof.Config

/-- A free value: the `i`-th open choice of the step whose fresh counter is `fresh` (log 1). -/
opaque free (fresh i : Nat) : Nat

/-- The order in which an instruction combines its terms (R16, R133), by the firing it belongs to: a replay of the firing combines the
same terms in the same order, since it recomputes the same values (R161; log 1). -/
opaque order (seed i : Nat) : Nat

/-- How far a result that the manual bounds in units of the last place lies from the nearest value: a free choice for each
operation and each pattern of its operands (R131, R143, R277; log 8). -/
opaque ulp (op : Nat) (args : List Nat) : Nat

/-- How late a timestamp taken outside the heartwood is, before it is brought into 0 to 4 ns: by the time, the source and what is stamped (R38;
log 1). -/
opaque late (time src n : Nat) : Nat

/-- How many records a trace buffer takes from its input FIFO after one more has been offered: by the open choices made so far, the time, the
region, and the records written and dropped there (R480; log 54). -/
opaque taken (fresh time region written dropped : Nat) : Nat

/-- The Drover slice with which another module takes part in a layer: by its device number and the layer (R482; log 90). -/
opaque slice (device layer : Nat) : Nat

/-- How many of an instruction's accesses to the block store were promoted: by the open choices made so far, the time and the block (R27, R476;
log 89). -/
opaque promoted (fresh time blk : Nat) : Nat

/-- The bank of a byte offset of the block store (R27, R457; log 155). -/
opaque bank (offset : Nat) : Nat

/-- The cell that a queue links next after a cell, by that cell, before it is brought into 19 bits (R216; log 14). -/
opaque nextCell (cell : Nat) : Nat

/-- The credits that the reader of a data crossing issues at first, by the source island (R40, R44; log 136). -/
opaque depth (src : Nat) : Nat

/-- SM3 (GB/T 32905, R395): the manual names the standard and does not retell it (log 7). -/
opaque sm3 : List Byte → BitVec 256

/-- The SM2 user identifier of every signature: the ASCII characters ROSWIOR-VIRDAN (R395). -/
def userId : List Byte := [0x52, 0x4F, 0x53, 0x57, 0x49, 0x4F, 0x52, 0x2D, 0x56, 0x49, 0x52, 0x44, 0x41, 0x4E]

/-- SM2 verification with SM3 (GB/T 32918): user identifier, public key, message, signature (log 7). -/
opaque sm2VerifyAs : List Byte → BitVec 512 → List Byte → BitVec 512 → Bool

/-- SM2 signature by the identity element's device key, under a user identifier (log 7). -/
opaque sm2SignAs : List Byte → List Byte → BitVec 512

/-- Verification under the user identifier of R395: public key, message, signature. -/
def sm2Verify (key : BitVec 512) (msg : List Byte) (sig : BitVec 512) : Bool := sm2VerifyAs userId key msg sig

/-- Signature under the user identifier of R395 by the device key (R421, R444). -/
def sm2Sign (msg : List Byte) : BitVec 512 := sm2SignAs userId msg

/-- The Roswior root public key held by the identity element (R395). -/
opaque rootKey : BitVec 512

/-- The device public key (R421). -/
opaque deviceKey : BitVec 512

/-- The endorsement of the device key, written at manufacture (R421). -/
opaque endorsement : BitVec 512

/-- The public key that another module's ATTEST gave, by its device number (R423). -/
opaque peerKey (device : Nat) : BitVec 512

/-- The 128-bit serial number held by the identity element (R5, R511). -/
opaque serial : BitVec 128

end Sys2Proof.Config
end

