-- ==== Sys2Proof/Machine/Bits.lean ====
section
/-! DEFINITION. Bit fields, little-endian bytes (R9) and the CRC of the manual (R338). -/

namespace Sys2Proof.Machine

/-- The field `[hi:lo]` of a word (R9). -/
def field (w hi lo : Nat) : Nat := (w >>> lo) % 2 ^ (hi + 1 - lo)

/-- Bit `i` of a word. -/
def bitAt (w i : Nat) : Bool := (w >>> i) % 2 == 1

/-- One bit as a number. -/
def b2n (b : Bool) : Nat := if b then 1 else 0

/-- `v` in `n` bytes, lowest byte first (R9). -/
def le : Nat → Nat → List Byte
  | 0, _ => []
  | n + 1, v => BitVec.ofNat 8 v :: le n (v / 256)

/-- The number a run of bytes spells, lowest byte first (R9). -/
def ofLe : List Byte → Nat
  | [] => 0
  | b :: r => b.toNat + 256 * ofLe r

/-- `n` bytes from offset `o` of a run, zero beyond its end. -/
def slice (l : List Byte) (o n : Nat) : List Byte :=
  let t := (l.drop o).take n
  t ++ List.replicate (n - t.length) 0

/-- The number in `n` bytes at offset `o`. -/
def leAt (l : List Byte) (o n : Nat) : Nat := ofLe (slice l o n)

/-- A run cut into pieces of `n`; `fuel` bounds the number of pieces. -/
def piecesAux (n : Nat) : Nat → List α → List (List α)
  | 0, _ => []
  | _ + 1, [] => []
  | f + 1, l => l.take n :: piecesAux n f (l.drop n)

/-- A run cut into pieces of `n`, the last one possibly shorter. -/
def pieces (n : Nat) (l : List α) : List (List α) := piecesAux n l.length l

/-- One bit of the CRC-32C register, reflected polynomial 0x82F63B78 (R338). -/
def crcBit (c : Nat) : Nat := if c % 2 == 1 then (c >>> 1) ^^^ 0x82F63B78 else c >>> 1

/-- One byte of CRC-32C. -/
def crcByte (c : Nat) (b : Byte) : Nat :=
  crcBit (crcBit (crcBit (crcBit (crcBit (crcBit (crcBit (crcBit (c ^^^ b.toNat))))))))

/-- CRC-32C of a run of bytes: initial value and final exclusive-or all ones (R338). -/
def crc32c (l : List Byte) : Nat := (l.foldl crcByte 0xFFFFFFFF) ^^^ 0xFFFFFFFF

/-- One bit of the SMBus CRC-8, polynomial 0x07 (R501: the PEC of SMBus 3.1, log 157). -/
def pecBit (c : Nat) : Nat := if 128 ≤ c then (2 * c) % 256 ^^^ 0x07 else 2 * c

/-- The Packet Error Code of a run of bytes, address bytes included (R501, log 157). -/
def pecOf (l : List Byte) : Byte :=
  BitVec.ofNat 8 (l.foldl (fun c b => pecBit (pecBit (pecBit (pecBit (pecBit (pecBit (pecBit (pecBit (c ^^^ b.toNat))))))))) 0)

/-- Sign extension of a two's complement field of `w` bits. -/
def signed (w v : Nat) : Int := if v < 2 ^ (w - 1) then (v : Int) else (v : Int) - (2 ^ w : Nat)

/-- The two's complement pattern of an integer in `w` bits. -/
def unsigned (w : Nat) (i : Int) : Nat := (i % ((2 ^ w : Nat) : Int)).toNat

end Sys2Proof.Machine
end

