-- ==== Sys2Proof/Machine/Fp.lean ====
section
/-! DEFINITION. Exact numbers, their rounding (R75, R76) and FP32 arithmetic (R78-R81). A finite number is a sign, a
magnitude and a power of two, so no operation loses anything before the one rounding the manual gives it. -/

namespace Sys2Proof.Machine

/-- A number: NaN, an infinity, or (-1)^neg × m × 2^e; m = 0 is a signed zero. -/
inductive Number where
  | nan
  | inf (neg : Bool)
  | fin (neg : Bool) (m : Nat) (e : Int)
  deriving DecidableEq, Repr

/-- A value with its poison tag (R34). -/
structure Val where
  num : Number
  pois : Bool := false
  deriving DecidableEq, Repr

def Number.zero : Number := .fin false 0 0

def Number.isNan : Number → Bool
  | .nan => true
  | _ => false

def Number.isInf : Number → Bool
  | .inf _ => true
  | _ => false

def Number.isZero : Number → Bool
  | .fin _ m _ => m == 0
  | _ => false

def Number.sign : Number → Bool
  | .nan => false
  | .inf s => s
  | .fin s _ _ => s

def Number.neg : Number → Number
  | .nan => .nan
  | .inf s => .inf (!s)
  | .fin s m e => .fin (!s) m e

def Number.abs : Number → Number
  | .nan => .nan
  | .inf _ => .inf false
  | .fin _ m e => .fin false m e

/-- A whole number as a number; `neg` gives zero its sign. -/
def Number.ofInt (i : Int) : Number := .fin (i < 0) i.natAbs 0

def Number.ofNat (n : Nat) : Number := .fin false n 0

/-- 2^k. -/
def Number.pow2 (k : Int) : Number := .fin false 1 k

/-- The magnitude in units of 2^q, for q not above its exponent. -/
def alignTo (m : Nat) (e q : Int) : Nat := m <<< (e - q).toNat

/-- Comparison of finite magnitudes: m1 × 2^e1 against m2 × 2^e2. -/
def cmpMag (m1 : Nat) (e1 : Int) (m2 : Nat) (e2 : Int) : Ordering :=
  let q := min e1 e2
  compare (alignTo m1 e1 q) (alignTo m2 e2 q)

/-- The exact sum. A sum of nonzero numbers that is zero is +0; two zeros keep a common sign (R78, IEEE 754). -/
def Number.add : Number → Number → Number
  | .nan, _ => .nan
  | _, .nan => .nan
  | .inf a, .inf b => if a = b then .inf a else .nan
  | .inf a, .fin .. => .inf a
  | .fin .., .inf b => .inf b
  | .fin s1 m1 e1, .fin s2 m2 e2 =>
    if m1 = 0 && m2 = 0 then .fin (s1 && s2) 0 0
    else
      let q := min e1 e2
      let a := alignTo m1 e1 q
      let b := alignTo m2 e2 q
      if s1 = s2 then .fin s1 (a + b) q
      else if a = b then .fin false 0 0
      else if b < a then .fin s1 (a - b) q
      else .fin s2 (b - a) q

def Number.sub (a b : Number) : Number := a.add b.neg

/-- The exact product. -/
def Number.mul : Number → Number → Number
  | .nan, _ => .nan
  | _, .nan => .nan
  | .inf a, .inf b => .inf (a != b)
  | .inf a, .fin s m _ => if m = 0 then .nan else .inf (a != s)
  | .fin s m _, .inf b => if m = 0 then .nan else .inf (s != b)
  | .fin s1 m1 e1, .fin s2 m2 e2 => if m1 * m2 = 0 then .fin (s1 != s2) 0 0 else .fin (s1 != s2) (m1 * m2) (e1 + e2)

/-- A magnitude with 64 bits or more below its leading bit, the last one sticky: what is left of a quotient or a root. -/
def sticky (q : Nat) (rest : Bool) : Nat := 2 * q + b2n rest

/-- The quotient, exact in its leading 128 bits with a sticky bit below (IEEE 754 division before rounding). -/
def Number.div : Number → Number → Number
  | .nan, _ => .nan
  | _, .nan => .nan
  | .inf _, .inf _ => .nan
  | .inf a, .fin s _ _ => .inf (a != s)
  | .fin s _ _, .inf b => .fin (s != b) 0 0
  | .fin s1 m1 e1, .fin s2 m2 e2 =>
    if m2 = 0 then (if m1 = 0 then .nan else .inf (s1 != s2))
    else if m1 = 0 then .fin (s1 != s2) 0 0
    else
      let k := 128 + Nat.log2 m2
      let n := m1 <<< k
      .fin (s1 != s2) (sticky (n / m2) (n % m2 != 0)) (e1 - e2 - k - 1)

/-- Integer square root by bits, from bit `k` down. -/
def isqrtAux (n : Nat) : Nat → Nat → Nat
  | 0, r => r
  | k + 1, r =>
    let t := r + 2 ^ k
    isqrtAux n k (if t * t ≤ n then t else r)

/-- The integer square root. -/
def isqrt (n : Nat) : Nat := isqrtAux n (Nat.log2 n / 2 + 1) 0

/-- The square root, exact in its leading 128 bits with a sticky bit below. The root of -0 is -0. -/
def Number.sqrt : Number → Number
  | .nan => .nan
  | .inf s => if s then .nan else .inf false
  | .fin s m e =>
    if m = 0 then .fin s 0 0
    else if s then .nan
    else
      let k := 256 + (e % 2).toNat
      let n := m <<< k
      let r := isqrt n
      .fin false (sticky r (r * r != n)) ((e - k) / 2 - 1)

/-- Comparison of numbers that are not NaN; -0 equals +0 (R81). -/
def Number.cmp : Number → Number → Ordering
  | .inf a, .inf b => if a = b then .eq else if a then .lt else .gt
  | .inf a, _ => if a then .lt else .gt
  | _, .inf b => if b then .gt else .lt
  | .fin s1 m1 e1, .fin s2 m2 e2 =>
    if m1 = 0 && m2 = 0 then .eq
    else if m1 = 0 then (if s2 then .gt else .lt)
    else if m2 = 0 then (if s1 then .lt else .gt)
    else if s1 != s2 then (if s1 then .lt else .gt)
    else if s1 then cmpMag m2 e2 m1 e1 else cmpMag m1 e1 m2 e2
  | _, _ => .eq

/-- Equal, less and greater are false with a NaN (R81). -/
def Number.lt (a b : Number) : Bool := !a.isNan && !b.isNan && a.cmp b == .lt
def Number.eqv (a b : Number) : Bool := !a.isNan && !b.isNan && a.cmp b == .eq
def Number.le (a b : Number) : Bool := a.lt b || a.eqv b

/-- Maximum: NaN if either is; of two zeros +0 if either is +0 (R80). -/
def Number.max (a b : Number) : Number :=
  if a.isNan || b.isNan then .nan
  else if a.isZero && b.isZero then .fin (a.sign && b.sign) 0 0
  else if a.lt b then b else a

/-- Minimum: NaN if either is; of two zeros -0 if either is -0 (R80). -/
def Number.min (a b : Number) : Number :=
  if a.isNan || b.isNan then .nan
  else if a.isZero && b.isZero then .fin (a.sign || b.sign) 0 0
  else if b.lt a then b else a

/-! ## Rounding -/

/-- How a conversion rounds: to nearest even, or stochastically with a 16-bit draw (R75, R76). -/
inductive Rnd where
  | rne
  | sto (r : Nat)
  deriving DecidableEq, Repr

/-- The spacing exponent of a magnitude m × 2^e at `prec` significant bits (none: a fixed spacing) and least spacing
2^emin. -/
def spacing (prec : Option Nat) (emin : Int) (m : Nat) (e : Int) : Int :=
  match prec with
  | none => emin
  | some p => Max.max emin ((Nat.log2 m : Int) + e - ((p : Int) - 1))

/-- A magnitude rounded to a multiple of 2^q: the number of units. -/
def roundUnits (rnd : Rnd) (m : Nat) (e q : Int) : Nat :=
  if q ≤ e then alignTo m e q
  else
    let k := (q - e).toNat
    let a := m >>> k
    let rest := m - (a <<< k)
    match rnd with
    | .rne =>
      let h := 1 <<< (k - 1)
      if h < rest || (rest = h && a % 2 = 1) then a + 1 else a
    | .sto r => if 65536 ≤ (rest <<< 16) >>> k + r then a + 1 else a

/-- A finite magnitude rounded, with an exponent unbounded above and the subnormal spacing below (R65, R67). -/
def roundMag (rnd : Rnd) (prec : Option Nat) (emin : Int) (m : Nat) (e : Int) : Nat × Int :=
  let q := spacing prec emin m e
  (roundUnits rnd m e q, q)

/-- A number rounded to FP32, overflow to infinity (R78). -/
def Number.round32With (rnd : Rnd) : Number → Number
  | .nan => .nan
  | .inf s => .inf s
  | .fin s m e =>
    if m = 0 then .fin s 0 0
    else
      let (u, q) := roundMag rnd (some 24) (-149) m e
      if cmpMag u q (2 ^ 24 - 1) 104 == .gt then .inf s
      else if u = 0 then .fin s 0 0
      else .fin s u q

/-- A number rounded to FP32 to nearest even. -/
def Number.r32 (x : Number) : Number := x.round32With .rne

/-- FP32 operations: exact, then rounded once. -/
def fadd (a b : Number) : Number := (a.add b).r32
def fsub (a b : Number) : Number := (a.sub b).r32
def fmul (a b : Number) : Number := (a.mul b).r32
def ffma (a b c : Number) : Number := ((a.mul b).add c).r32
def fdiv (a b : Number) : Number := (a.div b).r32
def fsqrt (a : Number) : Number := a.sqrt.r32

/-! ## FP32 patterns -/

/-- The number a floating pattern with `eb` exponent bits, `mb` mantissa bits and bias `bias` encodes when its
exponent field is not special (R49). -/
def decodeFin (eb mb : Nat) (bias : Int) (w : Nat) : Number :=
  let s := bitAt w (eb + mb)
  let ex := (w >>> mb) % 2 ^ eb
  let ma := w % 2 ^ mb
  if ex = 0 then (if ma = 0 then .fin s 0 0 else .fin s ma (1 - bias - mb))
  else .fin s (2 ^ mb + ma) (ex - bias - mb)

/-- The number an FP32 pattern encodes (R48, R49, R52). -/
def dec32 (w : Nat) : Number :=
  let s := bitAt w 31
  if (w >>> 23) % 256 = 255 then (if w % 2 ^ 23 = 0 then .inf s else .nan)
  else decodeFin 8 23 127 w

/-- The pattern, without its sign, of a representable finite magnitude (R48). -/
def encodeFin (eb mb : Nat) (bias : Int) (m : Nat) (e : Int) : Nat :=
  if m = 0 then 0
  else
    let emin := 1 - bias - mb
    let q := spacing (some (mb + 1)) emin m e
    let u := roundUnits .rne m e q
    -- a rounding that carries to the next power of two has its significand one bit longer
    let (u, q) := if u = 2 ^ (mb + 1) then (2 ^ mb, q + 1) else (u, q)
    if u < 2 ^ mb then u
    else ((q + bias + mb).toNat) % 2 ^ eb * 2 ^ mb + (u - 2 ^ mb)

/-- The FP32 pattern of a number (rounded to nearest even where it is not an FP32 number). -/
def enc32 (x : Number) : Nat :=
  match x.r32 with
  | .nan => 0x7FC00000
  | .inf s => b2n s * 2 ^ 31 + 0x7F800000
  | .fin s m e => b2n s * 2 ^ 31 + encodeFin 8 23 127 m e

/-! ## Values with poison -/

def Val.zero : Val := ⟨.zero, false⟩

/-- A result is poisoned when a source is (R34). -/
def Val.map1 (f : Number → Number) (a : Val) : Val := ⟨f a.num, a.pois⟩
def Val.map2 (f : Number → Number → Number) (a b : Val) : Val := ⟨f a.num b.num, a.pois || b.pois⟩
def Val.map3 (f : Number → Number → Number → Number) (a b c : Val) : Val := ⟨f a.num b.num c.num, a.pois || b.pois || c.pois⟩

end Sys2Proof.Machine
end

