-- ==== Sys2Proof/Machine/State.lean ====
section
/-! DEFINITION. The state of the module as plain data: every register, store, queue, table and counter the manual gives
it, with the values of reset. INVENTORY.md, '## State', lists each with its rule. -/

namespace Sys2Proof.Machine

/-- A sparse table by number. What an unlisted entry holds is said where it is read. -/
abbrev Map (α : Type) := List (Nat × α)

/-- Sparse bytes: an unlisted address reads as zero (log 5). -/
abbrev Bytes := List Host.Cell

/-- Why the model stops with a fault. No command of this block does: the manual gives every command an effect. -/
inductive Fault where
  /-- Raised by nothing in this model; the type is not empty so that every outcome can be written. Safe. -/
  | unreachable
  deriving DecidableEq, Repr

/-- Why the model refuses a command. -/
inductive Refusal where
  /-- The command has no meaning yet: raised by arms of exec alone. Safe: nothing is claimed about it. -/
  | notModelled (mnemonic : String)
  deriving DecidableEq, Repr

/-- Module states (R20, R416). -/
inductive ModState where
  | off | starting | ready | running | paused | faulted
  deriving DecidableEq, Repr

/-! ## What the module has put on its wires -/

/-- A completion (R407). -/
structure Compl where
  sess : Nat
  status : Nat
  opcode : Nat
  refuser : Nat := 0
  handle : Nat
  tag : Nat
  fault : Nat := 0
  accepted : Nat
  completed : Nat
  result : List Byte := []
  deriving DecidableEq, Repr

/-- A flit block sent (R355): the header fields and payload; the CRC is formed from them. -/
structure Flit where
  kind : Nat
  nak : Bool := false
  seqd : Bool := false
  abort : Bool := false
  seq : Nat := 0
  ack : Nat := 0
  mgmt : Nat := 0
  credits : List (Nat × Nat × Nat) := []
  som : Bool := false
  eom : Bool := false
  lane : Nat := 0
  vc : Nat := 0
  sess : Nat := 0
  payload : List Byte := []
  /-- of a block that waits to go on (R302): 1 + the port it came in by, and its number there while that port is owed the credit for it; no
  field of the wire -/
  via : Nat := 0
  rx : Option Nat := none
  /-- the handle whose data it carries (R409, R419); no field of the wire -/
  own : Nat := 0
  deriving DecidableEq, Repr

/-- One thing the module has sent (log 2). -/
inductive Out where
  | drover (port lane : Nat) (m : DMsg)
  | flit (port : Nat) (f : Flit)
  | hello (port : Nat) (h : Hello)
  | linkCtl (port : Nat) (payload : List Byte)
  | ack (sess status handle tag : Nat)
  | openReply (sess status time : Nat)
  | completion (c : Compl)
  | notice (sess code old new fault device time step slot epoch : Nat)
  | bulk (sess vc : Nat) (body : List Byte)
  | chunk (port dest : Nat) (body : List Byte)
  | sideband (nack : Option Nat) (count : Nat) (values : List Reg) (pec : Option Byte := none)
  | alertAddress (address : Nat)
  | egress (vc queue : Nat) (payload : List Byte)
  | flash (bytes : List Byte)
  deriving DecidableEq, Repr

/-! ## Job tables: the SPK image as loaded -/

/-- Operand reference (R123). -/
structure OpRef where
  kind : Nat := 0
  value : Nat := 0
  deriving DecidableEq, Repr

/-- Instruction word (R122). -/
structure IWord where
  op : Nat
  var : Nat := 0
  acc : Bool := false
  spec : Bool := false
  scl : Bool := false
  watch : Bool := false
  srcA : OpRef := {}
  srcB : OpRef := {}
  srcC : OpRef := {}
  dst : OpRef := {}
  imm : Nat := 0
  /-- the reserved bits [191:160] and [27:16] as a number; 0 when legal -/
  rsv : Nat := 0
  deriving DecidableEq, Repr

/-- Tensor descriptor (R243). `ext` has the six extents, `str` the six strides (entry 0 unused). -/
structure Desc where
  base : Nat := 0
  fmtw : Nat := 0
  sbase : Nat := 0
  layer : Nat := 0
  pbase : Nat := 0
  b0 : Bool := false
  sparse : Nat := 0
  tier : Nat := 0
  clr : Bool := false
  role : Nat := 4
  mta : Nat := 0xFFFFF
  stgoff : Nat := 0
  block : Nat := 0
  owner : Nat := 0xFFFFF
  ext : List Nat := [1, 1, 1, 1, 1, 1]
  str : List Nat := [0, 0, 0, 0, 0, 0]
  abase : Nat := 0
  alen : Nat := 0
  master : Nat := 0xFFFFF
  rsv : Nat := 0
  /-- of a cached descriptor in a layout other than that at load: the element width at load, by which the granules of a distributed tensor
  are counted (R534); 0 in the layout at load -/
  gw : Nat := 0
  deriving DecidableEq, Repr

/-- TENSOR_TABLE entry (R387). -/
structure TEntry where
  desc : Desc := {}
  pairHead : Bool := false
  pairTail : Bool := false
  contents : Option (List Byte) := none
  deriving DecidableEq, Repr

/-- Stage header and program (R119, R385). -/
structure Stage where
  idx : Nat := 0
  backward : Bool := false
  layer : Nat := 0
  repeats : Nat := 1
  fold : Nat := 0
  stream : Nat := 0xFFFF
  prog : List IWord := []
  deriving DecidableEq, Repr

/-- An endpoint of a queue (R210, R386). -/
inductive Endpoint where
  | stage (blk idx : Nat)
  | ingress
  | egress
  | drover (region : Nat)
  deriving DecidableEq, Repr

/-- QUEUE_TABLE entry (R386). -/
structure QEntry where
  qid : Nat
  toExp : Nat
  outst : Nat
  paced : Bool
  cpp : Bool
  mode : Nat
  cls : Nat
  item : Nat
  reserve : Nat
  credit : Nat
  consumer : Option Endpoint
  producers : List (Option Endpoint)
  len : Nat
  period : Nat
  slack : Nat
  stream : Nat
  deriving DecidableEq, Repr

/-- STREAM_TABLE entry (R142, R389). -/
structure StreamE where
  key : Nat
  perDevice : Bool
  replays : Nat
  deriving DecidableEq, Repr

/-- The job-wide governor parameters (R156), rates as FP32 bits. -/
structure PrecParams where
  window : Nat := 4
  satWiden : Nat := 0x3C000000
  colWiden : Nat := 0x3B800000
  satNarrow : Nat := 0x3A800000
  colNarrow : Nat := 0x3A000000
  calmSteps : Nat := 64
  lreplayRate : Nat := 0x3D000000
  lreplayMax : Nat := 2
  sreplayRate : Nat := 0x3D000000
  nanReplay : Nat := 1
  sreplayMax : Nat := 2
  arrayBudget : Nat := 50
  sramBudget : Nat := 100
  pendingLimit : Nat := 3
  exhaustAction : Nat := 1
  rzSplit : Nat := 0x3C800000
  rzMerge : Nat := 0x3A800000
  lostUp : Nat := 0x3D800000
  lostDown : Nat := 0x3B800000
  lambdaMax : Nat := 4
  deriving DecidableEq, Repr

/-- PRECISION_POLICY entry (R157, R390); classes are codes 0, 1, 2. -/
structure PrecEntry where
  layer : Nat
  role : Nat
  privileged : Bool := false
  stochastic : Bool := false
  fmt4 : Nat
  fmt8 : Nat
  fmt16 : Nat
  initial : Nat
  highest : Nat
  lowest : Nat
  sizes : Nat
  initSize : Nat
  initSc : Nat := 0x7F
  deriving DecidableEq, Repr

/-- Update profile (R275), real values as FP32 bits. -/
structure Profile where
  layer : Nat
  opt : Nat
  sched : Nat
  nesterov : Bool
  biasCorr : Bool
  lrMult : Nat
  wd : Nat
  gscale : Nat
  gclip : Nat
  mu : Nat
  beta1 : Nat
  beta2 : Nat
  eps : Nat
  tmax : Nat
  deriving DecidableEq, Repr

/-- FLOCK_POLICY (R295, R391). -/
structure Flock where
  role : Nat := 2
  headsOut : Nat := 16
  device : Nat := 0
  flocks : Nat := 1
  bucketMib : Nat := 16
  restartMax : Nat := 3
  bucketTo : Nat := 10
  gradFmt : Nat := 0x0024
  gradStream : Nat := 0xFFFF
  members : List (Nat × Nat) := []
  routes : List (Nat × Nat) := []
  schedules : List (List (Nat × Nat)) := []
  profiles : List Profile := []
  ctrlTree : List Nat := []
  deriving DecidableEq, Repr

/-- A layer of a fold (R392): its master tensors in the order of R304 and the modules governing it. -/
structure FoldLayer where
  layer : Nat
  governing : Nat
  tensors : List Nat
  deriving DecidableEq, Repr

/-- FOLD_TABLE fold (R392). -/
structure Fold where
  fold : Nat
  weight : Nat := 1
  portMask : Nat := 0
  tree : List Nat := []
  members : List Nat := []
  layers : List FoldLayer := []
  deriving DecidableEq, Repr

/-- REGION_MAP block entry (R384) with its layer sequence. -/
structure RBlock where
  spare : Nat := 0xFFFF
  hosted : Nat := 0
  h0 : Nat := 0
  half : Nat := 0
  seq : List Nat := []
  deriving DecidableEq, Repr

/-- TRACE_POLICY body (R394). -/
structure TraceBody where
  regions : Nat := 0
  mask : Nat := 0
  depth : Nat := 0
  kind : Nat := 0
  arg : Nat := 0
  flags : Nat := 0
  deriving DecidableEq, Repr

/-- The loaded image. -/
structure Job where
  loaded : Bool := false
  lnkPorts : Nat := 0
  migLow : Nat := 4096
  migHigh : Nat := 8192
  migConc : Nat := 4
  linkWait : Nat := 30
  snapFrames : Nat := 0
  memWeights : Nat := 0
  portWeights : Nat := 0
  opWeight : Nat := 0
  obsWeight : Nat := 0
  retain : Bool := false
  mhz : Nat := 1500
  saved : List Nat := []
  rangeSteps : Nat := 1
  energyFlags : Nat := 0
  rblocks : Map RBlock := []
  homes : List Nat := []
  stages : Map (List Stage) := []
  queues : Map QEntry := []
  tensors : Map TEntry := []
  owners : Map (List Nat) := []
  streams : List StreamE := []
  prec : PrecParams := {}
  govs : List PrecEntry := []
  flock : Flock := {}
  folds : List Fold := []
  trace : Option TraceBody := none
  ctrMask : Nat := 0xFFFFFFFF
  ctrMs : Nat := 0
  /-- the layout digest (R287) and the agreement digest (R296, R393) of the loaded image -/
  layout : Nat := 0
  agree : Nat := 0
  deriving DecidableEq, Repr

/-! ## Statistics -/

/-- Tally layer record (R152); `amax` is FP32 bits. -/
structure TallyRec where
  liveBlk : Nat := 0
  zeroBlk : Nat := 0
  nanBlk : Nat := 0
  satBlk : Nat := 0
  fullBlk : Nat := 0
  colBlk : Nat := 0
  values : Nat := 0
  zero : Nat := 0
  sat : Nat := 0
  rz : Nat := 0
  nan : Nat := 0
  inf : Nat := 0
  amax : Nat := 0
  hist : List Nat := List.replicate 32 0
  lost : Nat := 0
  deriving DecidableEq, Repr

/-! ## Blocks -/

/-- A stage as it runs (R120, R134, R144). Positions count the instructions of the step in program order across repeats. -/
structure StageRun where
  oldest : Nat := 0
  doneAt : List Nat := []
  atRest : Bool := true
  /-- FP32 bits, with bit 32 the poison (R34, R119) -/
  slots : List Nat := List.replicate 16 0
  replayPass : Bool := false
  sealFired : Bool := false
  /-- when SEAL LAYER fired (R150, R482) -/
  sealAt : Nat := 0
  /-- tensors the current pass has written under `SPEC` (R144, R160) -/
  specWritten : List Nat := []
  /-- statistics of the governed `SPEC` destinations of the current pass (R162) -/
  specStat : TallyRec := {}
  deriving DecidableEq, Repr

/-- A transfer stalled on a page (R266), with its cursor in delivery units. -/
structure Xfer where
  stage : Nat
  pos : Nat
  page : Nat
  cursor : Nat
  since : Nat
  /-- statistics of the units already delivered (R266, R486) -/
  stat : TallyRec := {}
  /-- of an unscaled destination, whose elements are one conversion (R65): the values delivered so far, by element, and the elements to which
  a value beyond FP32 range came (R74) -/
  src : List (Nat × Val) := []
  big : List Nat := []
  deriving DecidableEq, Repr

/-- What a block keeps of one tensor when it runs ahead of a verdict: its layout, the live-copy bit and the plan entries of both
copies, each value with its poison (R34, R169). -/
structure PlanSave where
  tensor : Nat
  /-- the layout that the tensor stood in, which a change that the run-ahead step took leaves again -/
  desc : Desc
  live : Bool
  entries : List (Nat × Nat)
  staged : List (Nat × Nat)
  force : Map (Nat × Nat) := []
  deriving DecidableEq, Repr

/-- A compute block with its store and issue state. -/
structure Block where
  store : Bytes := []
  storePoison : List Nat := []
  excluded : Bool := false
  subst : Bool := false
  hosted : Nat := 0
  rowBad : List Nat := []
  colBad : List Nat := []
  width : Nat := 0
  taps : List Nat := []
  mhz : Nat := 0
  offset : Int := 0
  cap : Nat := 0
  slack : Int := 0
  short : Bool := false
  droop : Nat := 0
  sticky : Nat := 0
  /-- time base from which BLK_CYCLES counts at the present frequency (R476) -/
  cycFrom : Nat := 0
  /-- absolute position p of the live layer (R148) -/
  pos : Nat := 0
  /-- the position at which the present step starts (R148) -/
  pos0 : Nat := 0
  fetched : List Nat := []
  step : Nat := 0
  stages : Map StageRun := []
  xfer : Option Xfer := none
  sealWait : Bool := false
  /-- time of the first fire of the present step, and T_base in block cycles (R174) -/
  firstFire : Option Nat := none
  tbase : Nat := 0
  ledgerA : Nat := 0
  ledgerS : Nat := 0
  /-- array cycles of each (stage, instruction) in the last committed step, in the step whose verdict is awaited, and in the
  present one (R174) -/
  arrLast : List (Nat × Nat × Nat) := []
  arrSeal : List (Nat × Nat × Nat) := []
  arrNow : List (Nat × Nat × Nat) := []
  /-- block cycles of the step whose verdict is awaited, from its first fire to its SEAL STEP (R174) -/
  sealCyc : Nat := 0
  tally : Map TallyRec := []
  /-- the plans as they stood when the block began a step that runs ahead, and that step (R169) -/
  saved : Option (Nat × List PlanSave) := none
  deriving DecidableEq, Repr

/-! ## Queues and regions -/

/-- A position (R216). -/
structure Pos where
  cell : Nat := 0
  word : Nat := 0
  deriving DecidableEq, Repr

/-- A reserved packet or item: its words in order, whether it is written (back-filled), and whether its transfer is still
outstanding (R220, R222, R225). -/
structure QUnit where
  who : Requester
  step : Nat
  words : List Pos
  written : Bool := false
  /-- granted cells that the fixed positions do not need, returned when the transfer completes (R224) -/
  spare : List Nat := []
  deriving DecidableEq, Repr

/-- A request waiting for cells (R224). -/
structure QReq where
  who : Requester
  step : Nat
  amount : Nat
  since : Nat := 0
  deriving DecidableEq, Repr

/-- A queue: the descriptor fields of R215, its chain of cells, its reservations and requests. -/
structure Queue where
  ent : QEntry
  toFlag : Bool := false
  m1v : Bool := false
  pois : Bool := false
  broken : Bool := false
  held : Nat := 1
  vcnt : Nat := 0
  mark1 : Pos := {}
  mark0 : Pos := {}
  vis : Pos := {}
  tail : Pos := {}
  head : Pos := {}
  chain : List Nat := []
  units : List QUnit := []
  /-- transfers granted and not completed, in order of grant (R225) -/
  grants : List Requester := []
  /-- the stage whose transfer completed last (R482) -/
  lastSend : Option (Nat × Nat) := none
  /-- a close of the tail cell that waits for an outstanding transfer (R221) -/
  closePend : Bool := false
  reqs : List QReq := []
  /-- units visible and not yet read, oldest first, and on a retained queue those already read (R233) -/
  ready : List QUnit := []
  kept : List QUnit := []
  gate : Nat := 0
  markWait : Bool := false
  waitFrom : Option Nat := none
  deriving DecidableEq, Repr

/-- A payload word of the pool with its poison bit (R213, R214). -/
structure PWord where
  val : Nat := 0
  pois : Bool := false
  deriving DecidableEq, Repr

/-- A cell's control word (R213), less NEXT, which the chain gives. -/
structure CellCtl where
  closed : Bool := false
  fill : Nat := 0
  deriving DecidableEq, Repr

/-- A shard in the update work queue (R272): master tensor, elements, reduced gradient as FP32 bits with poison. -/
structure Shard where
  step : Nat
  layer : Nat
  tensor : Nat
  els : List Nat
  grad : List (Nat × Bool)
  fold : Nat := 0
  chunk : Nat := 0
  deriving DecidableEq, Repr

/-- A trace buffer (R480, R483, R484): records oldest first. -/
structure TraceBuf where
  armed : Bool := false
  triggered : Bool := false
  frozen : Bool := false
  wrapped : Bool := false
  recs : List TRec := []
  fifo : List TRec := []
  drops : Nat := 0
  dropsSince : Nat := 0
  left : Nat := 0
  /-- event mask and post-trigger depth of the body it was armed with (R483) -/
  mask : Nat := 0
  depth : Nat := 0
  trigTime : Nat := 0
  freezeTime : Nat := 0
  /-- sources that lost an event on their trace line: their next record is inexact (R41, R42) -/
  inexact : List Nat := []
  deriving DecidableEq, Repr

/-- A region island. -/
structure Region where
  powered : Bool := false
  testFail : Bool := false
  meshResend : Nat := 0
  meshTry : Nat := 0
  sticky : Nat := 0
  free : List Nat := []
  nextFree : Nat := 0
  /-- the bank whose turn it is to give a cell (R212) -/
  bank : Nat := 0
  /-- the requester whose turn at the pool allocator comes first: blocks of the region as 0 to 63, the Drover slice as 64 (R31) -/
  turn : Nat := 0
  words : Map PWord := []
  ctl : Map CellCtl := []
  toCnt : Nat := 0
  toValid : Bool := false
  toQueue : Nat := 0
  brkAny : Bool := false
  brkFirst : Nat := 0
  deadline : Nat := 0
  descSel : Nat := 0
  descCap : Nat := 0
  lreplay : Nat := 0
  stepReplay : Nat := 0
  stepSkip : Nat := 0
  ceiling : Nat := 0
  size : Nat := 0
  narrowed : Nat := 0
  granted : Nat := 0
  tally : Map TallyRec := []
  inbox : List (Nat × Nat × TallyRec) := []
  work : List Shard := []
  /-- the fold whose turn it is at the update engine, and the shards it may still take in the round (R31) -/
  workFold : Nat := 0
  workLeft : Nat := 0
  trace : TraceBuf := {}
  trcDrop : Nat := 0
  wdogFrom : Nat := 0
  /-- since when each stage has waited on one of the conditions 0x01 to 0x05, and each block on a working copy (6) or a prefetch (8): code,
  block, stage, what is awaited, time (R238, R482) -/
  waits : List (Nat × Nat × Nat × Nat × Nat) := []
  deriving DecidableEq, Repr

/-! ## Memory devices -/

/-- Page table entry (R333). -/
structure Page where
  mapped : Bool := false
  lp : Bool := false
  pin : Bool := false
  moving : Bool := false
  ctl : Nat := 0
  frame : Nat := 0
  deriving DecidableEq, Repr

/-- A migration in progress (R263, R349): page, direction, the frame it moves to, request time, region. -/
structure Move where
  page : Nat
  up : Bool
  ctl : Nat
  frame : Nat
  since : Nat
  region : Nat
  deriving DecidableEq, Repr

/-- A request for a page (R263): who asks first, when, and since when it waits for a free frame. -/
structure PageReq where
  page : Nat
  region : Nat
  since : Nat
  waitFrom : Option Nat := none
  deriving DecidableEq, Repr

/-- The 24 devices. Bytes are addressed by block address × 256 + byte (R332). -/
structure Mem where
  data : Bytes := []
  poison : List Nat := []
  pages : Map Page := []
  lastUse : Map Nat := []
  moves : List Move := []
  requests : List PageReq := []
  /-- eviction has started and has not yet reached MIG_HIGH (R262) -/
  evicting : Bool := false
  reserved : List (Nat × Nat) := []
  crcValid : Bool := false
  crcCtl : Nat := 0
  crcResult : Nat := 0
  crcFrame : Nat := 0
  crcBlock : Nat := 0
  temp : Map Nat := []
  band : Map Nat := []
  /-- the metadata blocks that the cache of each LPDDR5X controller holds (R340) -/
  metas : Map (List Nat) := []
  /-- when each bank was last refreshed, by controller × 65536 + bank (R344) -/
  refresh : Map Nat := []
  bandSince : Map Nat := []
  deriving DecidableEq, Repr

/-! ## Tensors, governor, update engines -/

/-- A relayout that waits for the next write of its tensor, from a step on: the descriptor to take, the format words that lead to it one
after the other, and INIT_SC for blocks never written (R173, R534). -/
structure Relayout where
  step : Nat
  desc : Desc
  words : List Nat
  initSc : Nat
  deriving DecidableEq, Repr

/-- A tensor as the job runs: the cached descriptor and its live-copy bit (R245, R250, R534). -/
structure TensorRt where
  desc : Desc := {}
  live : Bool := false
  holds : Bool := false
  /-- what the stages of its block have written in the present step: REP slices, or the whole tensor (R134) -/
  filled : List (Option Nat) := []
  /-- scale blocks written by the current pass; and what any pass has written since load, in groups of 16 elements (R160, R173) -/
  written : List Nat := []
  ever : List Nat := []
  /-- scale blocks met by the current pass: the scale imposed on each and its plan value when the pass first wrote it
  (R154, R160, R161) -/
  force : Map (Nat × Nat) := []
  /-- the step for which a cleared-per-step tensor was last set to +0, plus one (R138) -/
  cleared : Nat := 0
  /-- stochastically rounded additions that SCATTER_ADD has made into each element in the step (R143) -/
  made : Map Nat := []
  later : Option Relayout := none
  /-- the relayout taken last, which waits again where the step that took it is squashed (R169) -/
  took : Option Relayout := none
  /-- a working copy: one more than the step whose reads it serves whole; the update being filled and its elements so far (R283) -/
  asOf : Nat := 0
  fillStep : Nat := 0
  fillCount : Nat := 0
  /-- those elements by the device that sent them (R325) -/
  fillFrom : Map Nat := []
  deriving DecidableEq, Repr

/-- A governed (layer, role) (R170-R178). Class is a code 0, 1, 2; size is a BSZ code. -/
structure GovK where
  cls : Nat
  size : Nat
  calm : Nat := 0
  sizeCalm : Nat := 0
  changedAgo : Nat := 0
  /-- the step from which the last change of class or size holds; steps before it fill no window (R170, R173) -/
  since : Nat := 0
  /-- held at 0 from a grant until the change takes effect -/
  granted : Bool := false
  window : List TallyRec := []
  /-- master elements updated in each step of the window (R178) -/
  updated : List Nat := []
  lambda : Nat := 0
  /-- the value before the last change, and the step from which the present one holds (R173, R178) -/
  lambdaOld : Nat := 0
  lambdaFrom : Nat := 0
  lambdaCalm : Nat := 0
  /-- array cycles and bytes by block that a widening would cost, as the last step seal found them (R174) -/
  asked : Map (Nat × Nat) := []
  /-- what each widening entered in the ledgers, the newest first (R174) -/
  grants : List (Map (Nat × Nat)) := []
  /-- scale bytes by block that halvings entered in the ledgers -/
  sizeBytes : Map Nat := []
  deriving DecidableEq, Repr

/-- A request entry of a vote (R320). -/
structure Request where
  layer : Nat
  role : Nat
  kind : Nat
  density : Nat := 0
  a : Nat := 0
  m : Nat := 0
  modules : Nat := 1
  deriving DecidableEq, Repr

/-- A layer entry of a vote (R320), FP32 bits. -/
structure VoteLayer where
  layer : Nat
  flags : Nat := 0
  w2 : Nat := 0
  u2 : Nat := 0
  ring : Nat := 0
  deriving DecidableEq, Repr

/-- A vote (R320), with the step and the device it comes from. -/
structure Vote where
  step : Nat
  device : Nat
  flags : Nat := 0
  modules : Nat := 1
  ha : Nat := 0
  hs : Nat := 0
  live : Nat := 0
  satFull : Nat := 0
  nanInf : Nat := 0
  requests : List Request := []
  layers : List VoteLayer := []
  deriving DecidableEq, Repr

/-- A decision entry of a verdict (R323). -/
structure Decision where
  layer : Nat
  role : Nat
  kind : Nat
  value : Nat
  deriving DecidableEq, Repr

/-- A verdict (R323). Layer entries are (layer, ring scale, TRUST ratio bits). -/
structure Verdict where
  step : Nat
  verdict : Nat
  flags : Nat := 0
  epoch : Nat := 0
  decisions : List Decision := []
  layers : List (Nat × Nat × Nat) := []
  deriving DecidableEq, Repr

/-- A granted change that has not taken effect (R173): the step whose forward takes it. -/
structure Change where
  d : Decision
  step : Nat
  deriving DecidableEq, Repr

/-- The precision governors and the step bookkeeping of the module. -/
structure Gov where
  /-- the step number the module executes, and whether this is the step's first execution -/
  step : Nat := 0
  first : Bool := true
  sealedSteps : List Nat := []
  voted : List Nat := []
  /-- a verdict that awaits the squash of queues before the step starts again (R235) -/
  squash : Option (Nat × Nat) := none
  replays : Nat := 0
  ks : Map GovK := []
  /-- pending counts by (layer, role), as the newest verdict carried them (R175, R176) -/
  pend : Map Nat := []
  /-- layer replays by step and layer: step × 65536 + layer (R162) -/
  lreplays : Map Nat := []
  baseline : Bool := false
  /-- the requests formed at the step seal, for the vote (R170) -/
  requests : List Request := []
  /-- the WIDEN_EXHAUST notices raised since the previous vote (R166) -/
  notices : List Request := []
  trust : Map Nat := []
  /-- ring scales by step × 65536 + layer (R316) -/
  ringScale : Map Nat := []
  /-- the top manager's ring maxima of the last committed steps, FP32 bits (R316) -/
  ringMax : Map (List Nat) := []
  changes : List Change := []
  /-- records of the current execution of each step: step × 2^21 + key (R167) -/
  stats : Map TallyRec := []
  /-- records of the first execution of each step, in the same key (R170) -/
  firsts : Map TallyRec := []
  /-- master elements updated in a step, by step × 65536 + layer (R178) -/
  updCount : Map Nat := []
  /-- T_base is latched at the next commit (R174) -/
  latch : Bool := false
  voteTime : Nat := 0
  deriving DecidableEq, Repr

/-- The update engines and the snapshot slots. -/
structure Upd where
  live : Nat := 0
  /-- the step after the update that the live buffer holds, or the step a refresh serves (R283, R289) -/
  liveOf : Nat := 0
  awaiting : Bool := false
  count : Nat := 0
  snapBusy : Bool := false
  /-- a snapshot is to start after the next commit verdict (R286) -/
  snapArmed : Bool := false
  snapStep : Nat := 0
  snapSlot : Nat := 0
  /-- the buffer being copied (R287) -/
  snapBuf : Nat := 0
  /-- chunks of a slot shipped here by another module, with their count (R423) -/
  chunks : List (Nat × List Byte) := []
  newest : Nat := 0
  anyDone : Bool := false
  /-- sections the running copy has finished: (type, TENSOR_TABLE index, bytes) (R285, R287) -/
  snapParts : List (Nat × Nat × List Byte) := []
  /-- units of the present section that the running copy has read (R268) -/
  snapCursor : Nat := 0
  /-- the governor state, the committed count and the baseline that the verdict of the copy left (R286, R287) -/
  snapGov : List Byte := []
  snapCount : Nat := 0
  snapBase : Bool := false
  /-- the result of a take whose own copy has ended, while other members copy (R286) -/
  snapWait : Option (List Byte) := none
  /-- the bytes of each snapshot slot: header, section table, sections; nothing written reads as zeros (R287, R347) -/
  slots : Map (List Byte) := []
  /-- TRUST sums of the present step, by layer: (Σw², Σu²) as FP32 bits (R279) -/
  sums : List (Nat × Nat × Nat) := []
  /-- ranges of each master tensor whose update in the present step has completed: first element and count, by tensor (R166) -/
  done : Map (List (Nat × Nat)) := []
  /-- a parameter refresh fills the live working copies (R289) -/
  refresh : Bool := false
  /-- a restore that waits for a page: the slot, and for each section left its type, its TENSOR_TABLE index and the units done (R268, R289) -/
  restoring : Option (Nat × List (Nat × Nat × Nat)) := none
  /-- what the refresh has yet to convert: layer, master, number of the copy, elements done (R268, R289) -/
  refreshLeft : List (Nat × Nat × Nat × Nat) := []
  deriving DecidableEq, Repr

/-! ## Drover -/

/-- A reorder-table entry (R308): identifier, the bucket's range of its master, contributor map, the reduction slot as FP32 bits with
poison over that range, the segments each member has contributed, and how far the entry has come. -/
structure Reorder where
  step : Nat
  epoch : Nat
  layer : Nat
  chunk : Nat
  fold : Nat
  tensor : Nat
  first : Nat
  count : Nat
  contrib : List Nat := []
  acc : List (Nat × Bool) := []
  /-- (first element of a segment, member) -/
  seen : List (Nat × Nat) := []
  /-- every segment is reduced in this tier-1 flock (R310) -/
  tier1 : Bool := false
  /-- its own ring chunk has been sent round the ring (R315) -/
  ringSent : Bool := false
  /-- ring chunks whose final sums stand in the slot (R318) -/
  ringDone : List Nat := []
  /-- handed to the update work queue (R311) -/
  reduced : Bool := false
  since : Nat := 0
  deriving DecidableEq, Repr

/-- An encoded contribution waiting for its GRANT (R307). -/
structure OutHead where
  step : Nat
  epoch : Nat
  layer : Nat
  chunk : Nat
  fold : Nat
  owner : Nat
  grads : List DMsg
  sent : Bool := false
  since : Nat := 0
  deriving DecidableEq, Repr

/-- Probe exchanges with one member (R297): t1 of the exchange in flight, and the (t1, t2, t3, t4) of the finished ones. -/
structure Probe where
  device : Nat
  t1 : Option Nat := none
  done : List (Nat × Nat × Nat × Nat) := []
  offset : Option Int := none
  deriving DecidableEq, Repr

/-- The Drover engine. -/
structure Drv where
  role : Nat := 0
  device : Nat := 0
  flocks : Nat := 0
  members : Nat := 0
  form : Nat := 0
  /-- how far a manager's formation has come: 0 FORM_ACKs, 1 probes, 2 FORMED, 3 FORM_ACKs of the managers, 4 their probes (R296) -/
  phase : Nat := 0
  formNonce : List Byte := []
  formAcks : List Nat := []
  formedBelow : List Nat := []
  probes : List Probe := []
  epoch : Nat := 0
  offset : Int := 0
  offsetErr : Nat := 0
  foldSel : Nat := 0
  peak : Map Nat := []
  reorder : List Reorder := []
  waitHeads : List DMsg := []
  outHeads : List OutHead := []
  votes : List Vote := []
  voteFrom : Option Nat := none
  lostValid : Bool := false
  lostDetail : Nat := 0
  lostDevice : Nat := 0
  /-- (layer, role, device, array and SRAM fractions) of each widen granted, the newest first (R175) -/
  widened : List (Nat × Nat × Nat × Nat × Nat) := []
  restartMax : Nat := 0
  restartsUsed : Nat := 0
  restartAcks : List Nat := []
  restartFrom : Option Nat := none
  restartSlot : Nat := 0
  /-- the largest finite final ring magnitude, FP32 bits, by step × 65536 + layer (R318) -/
  ringSeen : Map Nat := []
  badSrc : List Nat := []
  /-- the first PARAM of a layer in a step: (layer, step, time) (R325) -/
  paramFrom : List (Nat × Nat × Nat) := []
  /-- buckets sent: (layer × 65536 + chunk, step) (R305) -/
  filled : List (Nat × Nat) := []
  /-- parameter-ready packets that wait for their cells: queue, step, payload (R314) -/
  packets : List (Nat × Nat × List Byte) := []
  firstFault : Option (Nat × Nat) := none
  faultSent : Bool := false
  restartSeen : Bool := false
  /-- a RESTART_ACK reported failure or never came: no automatic restart follows (R328) -/
  restartOver : Bool := false
  /-- messages that wait: for a page (R268), for a sum of this module, or for its job to run -/
  stalled : List DMsg := []
  deriving DecidableEq, Repr

/-! ## Links and host -/

/-- One optical port (R352-R373). -/
structure Port where
  /-- 0 dark, 1 training, 2 up, 3 retraining, 4 asleep, 5 down (R372) -/
  st : Nat := 0
  inUse : Bool := false
  peerDev : Nat := 0
  peerValid : Bool := false
  downValid : Bool := false
  downDetail : Nat := 0
  -- training (R363)
  signal : Bool := false
  locked : Bool := false
  heard : Bool := false
  sentHeard : Bool := false
  peerHello : Option Hello := none
  -- replay (R358, R359)
  e : Nat := 0
  nakPending : Bool := false
  nextSeq : Nat := 0
  replay : List Flit := []
  resends : Nat := 0
  retrained : Bool := false
  attempts : Nat := 0
  -- credits (R360, R361), by lane in the order of R363: held of the peer's, owed to the peer
  credits : Map Nat := []
  owed : Map Nat := []
  /-- when each lane began to wait for credit (R361) -/
  creditFrom : Map Nat := []
  /-- blocks cut and not yet sent (R357, R362) -/
  txq : List Flit := []
  /-- lanes partway through a message, with the source of that message (R362) -/
  partway : Map Nat := []
  /-- messages partly received that go on, by lane: the ports their blocks leave by (R302, R313) -/
  onward : Map (List Nat) := []
  /-- the requester that shares the port now, and the blocks it may still send in the round (R32) -/
  turn : Nat := 0
  left : Nat := 0
  /-- messages partly received, by lane (R357) -/
  asm : Map (List Byte) := []
  /-- messages received whole and not yet handed on: lane and session × 128, bytes -/
  delivered : List (Nat × List Byte) := []
  /-- those of them that have gone on block by block (R302) -/
  sentOn : List (List Byte) := []
  /-- pause-marker rounds received (R492) -/
  rounds : List Nat := []
  /-- FEC symbols corrected in the last 1 ms: when, on which lane, how many (R372) -/
  fec : List (Nat × Nat × Nat) := []
  deriving DecidableEq, Repr

/-- An outstanding command (R414, R419). -/
structure Hnd where
  handle : Nat
  sess : Nat
  tag : Nat
  opcode : Nat
  accepted : Nat
  /-- slot, stream or operation the command works on -/
  arg : Nat := 0
  /-- the bulk argument received so far (R422) -/
  bulk : List Byte := []
  bulkLen : Nat := 0
  /-- what it sends, port and lane: it completes once the blocks are gone (R409) -/
  sending : Option (Nat × Nat) := none
  result : List Byte := []
  /-- its shares of each domain's energy so far, in nJ, as fractions (R443) -/
  shares : List (Nat × Nat) := List.replicate 6 (0, 1)
  gaps : Nat := 0
  deriving DecidableEq, Repr

/-- A session (R411-R414). -/
structure Session where
  isOpen : Bool := false
  oper : Bool := false
  next : Nat := 0
  remembered : List (Nat × Nat) := []
  deriving DecidableEq, Repr

/-- An open input stream (R420). -/
structure Stream where
  sess : Nat
  queue : Nat
  topen : Nat
  accepted : Nat := 0
  rejected : Nat := 0
  missed : Nat := 0
  waiting : List (List Byte) := []
  /-- credits that the port withholds while a message waits for cells (R420) -/
  withheld : Nat := 0
  closing : Bool := false
  index : Nat := 0
  deriving DecidableEq, Repr

/-- The host command interface. -/
structure Hci where
  sel : Nat := 0
  bad : Nat := 0
  late : Nat := 0
  won : Nat := 0
  sessions : Map Session := []
  handles : List Hnd := []
  streams : Map Stream := []
  jobHandle : Nat := 0
  /-- messages that arrived in P1 or P2, in order (R417, R430) -/
  held : List Instr := []
  deriving DecidableEq, Repr

/-! ## Power, energy, errors, ageing, stopping -/

/-- Power states (R426-R438). -/
structure Pwr where
  state : Nat := 0
  /-- an entry is in progress, before its commit -/
  busy : Bool := false
  target : Nat := 0
  /-- a wake written during the entry (R430) -/
  wakeHeld : Bool := false
  lastRefuser : Nat := 0
  wakeTime : Nat := 0
  refuse : List Nat := [0, 0, 0, 0, 0, 0, 0]
  saved : List (Nat × Nat) := []
  deriving DecidableEq, Repr

/-- An Epirium record body (R444) with its signature once signed. -/
structure ERec where
  kind : Nat
  flags : Nat := 0
  device : Nat := 0
  handle : Nat := 0
  seq : Nat := 0
  job : Nat := 0
  start : Nat := 0
  stop : Nat := 0
  firstStep : Nat := 0
  steps : Nat := 0
  gaps : Nat := 0
  energy : List Nat := [0, 0, 0, 0, 0, 0]
  annex : List Byte := []
  annexSlots : Nat := 0
  prev : Nat := 0
  sig : Option Nat := none
  deriving DecidableEq, Repr

/-- The energy accumulators and the record chain (R440-R453). -/
structure Eng where
  acc : List Nat := [0, 0, 0, 0, 0, 0]
  frac : List Nat := [0, 0, 0, 0, 0, 0]
  lastSample : List Nat := [0, 0, 0, 0, 0, 0]
  /-- sample periods of each domain that wait for the next sample to be filled in (R441) -/
  missing : List Nat := [0, 0, 0, 0, 0, 0]
  /-- of each period that a domain misses: the domain, the handles outstanding at its end, and how many shared it (R443) -/
  absent : List (Nat × List Nat × Nat) := []
  /-- the present period has a sample lost on its crossing, and counts as a gap already (R441) -/
  lost : Bool := false
  gaps : Nat := 0
  /-- sample gaps since power good -/
  gapTotal : Nat := 0
  head : Nat := 0
  headDigest : Nat := 0
  oldest : Nat := 0
  started : Bool := false
  handleDrop : Nat := 0
  stage : List Nat := List.replicate 12 0
  entries : List (List Nat) := []
  recs : Map ERec := []
  queue : List Nat := []
  /-- closed records that wait until the rate allows their sequence numbers, and the numbers taken lately: time and how many (R448) -/
  waiting : List ERec := []
  used : List (Nat × Nat) := []
  nextSeq : Nat := 0
  -- the base record in progress
  baseStart : Nat := 0
  baseAcc : List Nat := [0, 0, 0, 0, 0, 0]
  baseGaps : Nat := 0
  isRange : Bool := false
  rangeFirst : Nat := 0
  rangeReplay : Bool := false
  rangeSkip : Bool := false
  lowPower : Bool := false
  /-- latched seals: (step, time, accumulators, gaps) -/
  seals : List (Nat × Nat × List Nat × Nat) := []
  saved : Option (Nat × Nat) := none
  lastSave : Nat := 0
  deriving DecidableEq, Repr

/-- A log entry, or a report (R454, R462). -/
structure LogEnt where
  code : Nat
  source : Nat
  count : Nat := 1
  first : Nat
  last : Nat
  ctx : Nat
  deriving DecidableEq, Repr

/-- A lifetime record (R468, R469). -/
structure LifeRec where
  kind : Nat
  powerOn : Nat
  seq : Nat
  time : Nat
  prev : Nat
  body : List Byte
  segment : Nat
  deriving DecidableEq, Repr

/-- One block's entry of the repair map: rows, columns and staves (row, column) recorded bad (R110). -/
structure BadBlk where
  blk : Nat
  rows : List Nat := []
  cols : List Nat := []
  staves : List (Nat × Nat) := []
  deriving DecidableEq, Repr

/-- One block's entry of the margin plan: offset in mV and cap in MHz (R467). -/
structure PlanBlk where
  blk : Nat
  offset : Int := 0
  cap : Nat := 0
  deriving DecidableEq, Repr

/-- One block's trims as calibration left them: its trim word, and the baseline of its ring oscillator, a count over 100 µs (R377, R465). -/
structure Trim where
  blk : Nat
  word : Nat := 0
  ring : Nat := 0
  deriving DecidableEq, Repr

/-- A copy of a journal area: area code, sequence number, body length and SM3 digest of its header, and its body (R375). -/
structure Copy (α : Type) where
  code : Nat
  seq : Nat
  len : Nat
  digest : Nat
  body : α
  deriving DecidableEq, Repr

/-- A journal area: copies A and B, each none while its part of the device is erased (R375). -/
structure Area (α : Type) where
  a : Option (Copy α) := none
  b : Option (Copy α) := none
  deriving DecidableEq, Repr

/-- The header of a segment of the lifetime area: format code, sequence of its first record, power-on count (R468). -/
structure SegHead where
  segment : Nat
  code : Nat := 0x4C01
  seq : Nat
  powerOn : Nat
  deriving DecidableEq, Repr

/-- The two flash devices (R374, R375). -/
structure Flash where
  image : List Byte := []
  recovery : List Byte := []
  trims : Area (List Trim) := {}
  repair : Area (List BadBlk) := {}
  margin : Area (List PlanBlk) := {}
  lifeHeads : List SegHead := []
  life : List LifeRec := []
  lifeSeq : Nat := 0
  lifeSeg : Nat := 0
  lifeUsed : Nat := 0
  powerOns : Nat := 0
  /-- the chain head last saved in a lifetime record of kind 0x0005 (R446) -/
  chainSeq : Nat := 0
  chainDigest : Nat := 0
  deriving DecidableEq, Repr

/-- The error unit (R454-R464, R473). -/
structure Err where
  valid : Bool := false
  remote : Bool := false
  code : Nat := 0
  source : Nat := 0
  device : Nat := 0
  time : Nat := 0
  ctx : Nat := 0
  window : List (LogEnt × Option Nat) := []
  /-- reports that wait for the window to close and do not latch: those of a job that is starting, and those that came while VALID was 1
  and were left behind by its clearing (R456, R463) -/
  quiet : List (LogEnt × Option Nat) := []
  windowAt : Option Nat := none
  wr : Nat := 0
  rd : Nat := 0
  log : Map LogEnt := []
  dropped : Nat := 0
  overwritten : Nat := 0
  alert : Nat := 0
  alertEn : Nat := 0xF
  counts : Map Nat := []
  stopIssue : Bool := false
  /-- reports that may still stand in their island's report buffer: source and time of detection (R458) -/
  recent : List (Nat × Nat) := []
  deriving DecidableEq, Repr

/-- Ageing measurements and the totals of the lifetime summary (R466, R470, R474). -/
structure Age where
  busy : Bool := false
  due : Bool := false
  last : Nat := 0
  p0ns : Nat := 0
  /-- the totals go on from the newest summary of the journal, read at the first start since power good (R470) -/
  loaded : Bool := false
  lastSummary : Nat := 0
  /-- the 26 temperature counts of each die, then the 32 voltage counts of each die, in seconds -/
  hist : List Nat := List.replicate 232 0
  /-- nanoseconds in each power state P0 to P3, then in each module state OFF to FAULTED -/
  resid : List Nat := List.replicate 10 0
  deriving DecidableEq, Repr

/-- Trace control (R483, R484, R498). -/
structure Trc where
  body : TraceBody := {}
  fired : Bool := false
  trigTime : Nat := 0
  lastCapture : Nat := 0
  deriving DecidableEq, Repr

/-- Pause and halt (R490-R498). -/
structure Stop where
  kind : Nat := 0
  complete : Bool := false
  device : Nat := 0
  time : Nat := 0
  round : Nat := 0
  /-- the pause in progress: requester device and handle -/
  id : Option (Nat × Nat) := none
  /-- the requests seen: action, device, handle, requester's time base (R490) -/
  seen : List (Nat × Nat × Nat × Nat) := []
  deriving DecidableEq, Repr

/-- The board pins and the time base (R517-R527). -/
structure Board where
  powerGood : Bool := false
  resetN : Bool := false
  addr : Nat := 0x5F
  flashHost : Bool := false
  thermTrip : Bool := false
  refRunning : Bool := true
  refLostAt : Nat := 0
  gated : Bool := false
  time : Nat := 0
  firstStart : Bool := true
  deriving DecidableEq, Repr

/-- Identity, state and start-up registers (R406, R511). -/
structure Glb where
  mstate : ModState := .off
  halted : Bool := false
  job : Bool := false
  bootRom : Bool := false
  order : Nat := 1
  failed : Bool := false
  recovery : Bool := false
  trimsLost : Bool := false
  mapLost : Bool := false
  planLost : Bool := false
  startFault : Nat := 0
  signer : Nat := 0
  jobId : Nat := 0
  fwVersion : Nat := 0
  imageDigest : Nat := 0
  serialUp : Bool := false
  stateSince : Nat := 0
  reloadFault : Option Nat := none
  linkWaitFrom : Option Nat := none
  trip : Option LogEnt := none
  /-- JOB_START has begun and waits for the refresh and its first instruction (R418) -/
  jobStarting : Bool := false
  resumeStep : Nat := 0
  /-- elements that the acceptance check has rounded to zero in image contents and in a snapshot written by the host (R58) -/
  acceptRz : Nat := 0
  deriving DecidableEq, Repr

/-- The sideband path: latches, last response, counters (R503, R505, R511). -/
structure Sb where
  pecErr : Nat := 0
  badAccess : Nat := 0
  latches : Map Nat := []
  last : List Nat := []
  lastCount : Nat := 0
  deriving DecidableEq, Repr

/-- One event line of one source (R41, R513). -/
structure CdcLine where
  flag : Bool := false
  lost : Nat := 0
  deriving DecidableEq, Repr

/-- A data crossing between an island and the rest of the module (R40, R44): READY of the island's side and of the other, the entries written
and read since its pointers were last zero, and the writer's credits. -/
structure Crossing where
  readyA : Bool := false
  readyB : Bool := false
  wr : Nat := 0
  rd : Nat := 0
  credits : Nat := 0
  deriving DecidableEq, Repr

/-- Overrun flags by source and line (R512, R513), and the data crossing of each island by its source code (R44). -/
structure Cdc where
  sel : Nat := 0
  lines : Map CdcLine := []
  xings : Map Crossing := []
  /-- the discard counter of each crossing, by its source code (R45) -/
  discards : Map Nat := []
  /-- counter snapshot strobes lost, as source × 8 + line: the next capture of the instance is inexact (R42, R478) -/
  inexact : List Nat := []
  deriving DecidableEq, Repr

/-- The module. -/
structure State where
  board : Board := {}
  glb : Glb := {}
  sb : Sb := {}
  cdc : Cdc := {}
  flash : Flash := {}
  job : Job := {}
  blocks : Map Block := []
  regions : Map Region := []
  queues : Map Queue := []
  tensors : Map TensorRt := []
  mem : Mem := {}
  gov : Gov := {}
  upd : Upd := {}
  drv : Drv := {}
  ports : Map Port := []
  lnkPorts : Nat := 0
  hci : Hci := {}
  pwr : Pwr := {}
  eng : Eng := {}
  err : Err := {}
  age : Age := {}
  trc : Trc := {}
  stop : Stop := {}
  counters : Map Nat := []
  clearTime : Nat := 0
  out : List Out := []
  pending : List Instr := []
  fresh : Nat := 0
  deriving DecidableEq, Repr

/-- The module before input power is good (R399): OFF, every register at the Reset column of its table. -/
def State.reset : State := {}

end Sys2Proof.Machine
end

