-- ==== Sys2Proof/Machine/Wire.lean ====
section
/-! DEFINITION. Messages as bytes (R299, R407, R411, R424) and as the flit blocks that carry them (R355, R357). -/

namespace Sys2Proof.Machine

/-! ## Messages -/

/-- Header bytes 0x00 to 0x3B of a Drover message (R299). -/
def DMsgHead (m : DMsg) : List Byte :=
  le 1 m.type ++ le 1 m.fold ++ le 2 m.src ++ le 2 m.dst ++ le 2 m.fmt ++ le 8 m.step ++ le 4 m.epoch ++ le 2 m.layer ++ le 2 m.chunk ++
  le 4 m.tensor ++ le 4 m.count ++ le 8 m.first ++ le 4 m.payload.length ++ le 1 (m.lap * 128 + m.hop % 128) ++ le 1 m.scale ++
  le 2 (b2n m.mcast + 2 * m.rsv) ++ le 8 m.time ++ le 4 m.pcrc

/-- A Drover message: header, its CRC, payload (R299). -/
def DMsgBytes (m : DMsg) : List Byte := let h := DMsgHead m; h ++ le 4 (crc32c h) ++ m.payload

/-- A Drover message read from its bytes, or from its first ones (R299). -/
def readDMsg (l : List Byte) : DMsg :=
  let fl := leAt l 0x2E 2
  { type := leAt l 0 1, fold := leAt l 1 1, src := leAt l 2 2, dst := leAt l 4 2, fmt := leAt l 6 2, step := leAt l 8 8, epoch := leAt l 0x10 4,
    layer := leAt l 0x14 2, chunk := leAt l 0x16 2, tensor := leAt l 0x18 4, count := leAt l 0x1C 4, first := leAt l 0x20 8,
    lap := leAt l 0x2C 1 / 128, hop := leAt l 0x2C 1 % 128, scale := leAt l 0x2D 1, mcast := fl % 2 = 1, rsv := fl / 2, time := leAt l 0x30 8,
    pcrc := leAt l 0x38 4, payload := l.drop 64 }

/-- Whether bytes begin with a whole Drover header that passes its CRC (R299). -/
def headerOk (l : List Byte) : Bool := 64 ≤ l.length && leAt l 0x3C 4 == crc32c (l.take 60)

/-- A command message (R407). -/
def cmdBytes (opcode : Nat) (c : Cmd) : List Byte :=
  le 1 0x03 ++ le 1 opcode ++ le 2 c.inlineLen ++ le 4 c.tag ++ le 8 c.bulkLen ++ le 16 c.rsv ++ c.args

/-- A message of a bulk argument (R422). -/
def bulkBytes (tag rsv : Nat) (data : List Byte) : List Byte := le 4 tag ++ le 4 rsv ++ data

/-- A chunk of a shipped slot (R423). -/
def chunkBytes (index count len crc : Nat) (data : List Byte) : List Byte := le 4 index ++ le 4 count ++ le 4 len ++ le 4 crc ++ data

/-- A stop request (R490) and a pause marker (R492): payloads of link-control blocks. -/
def stopRequestBytes (action device handle time : Nat) : List Byte := le 1 0x05 ++ le 1 action ++ le 2 device ++ le 4 handle ++ le 8 time
def markerBytes (round device handle : Nat) : List Byte := le 1 0x06 ++ le 1 round ++ le 2 device ++ le 4 handle

/-- An acknowledgement (R407). -/
def ackBytes (status handle tag : Nat) : List Byte := le 1 0x10 ++ le 1 status ++ le 2 0 ++ le 4 handle ++ le 4 tag ++ le 4 0

/-- A completion: header and inline result (R407). -/
def Compl.bytes (c : Compl) : List Byte :=
  le 1 0x11 ++ le 1 c.status ++ le 1 c.opcode ++ le 1 c.refuser ++ le 4 c.handle ++ le 4 c.tag ++ le 2 c.result.length ++ le 2 c.fault ++
  le 8 c.accepted ++ le 8 c.completed ++ c.result

/-- An open reply (R411). -/
def openReplyBytes (status time : Nat) : List Byte := le 1 0x12 ++ le 1 status ++ le 6 0 ++ le 8 time

/-- A notice (R424). -/
def noticeBytes (code old new fault device time step slot epoch : Nat) : List Byte :=
  le 1 0x14 ++ le 1 code ++ le 1 old ++ le 1 new ++ le 2 fault ++ le 2 device ++ le 8 time ++ le 8 step ++ le 1 slot ++ le 3 0 ++ le 4 epoch

/-- A hello's payload, its fields without padding (R363; DESIGN CHOICE, log 164). -/
def helloBytes (h : Hello) : List Byte :=
  le 1 0x01 ++ le 1 (b2n h.heard) ++ le 1 h.kind ++ le 1 h.port ++ le 16 h.serial ++ le 8 h.job ++ h.credits.flatMap (le 2)

/-! ## Flit blocks -/

/-- One credit-return field (R355). -/
def creditField (c : Nat × Nat × Nat) : Nat := 32768 + c.1 * 8192 + c.2.1 * 256 + c.2.2

/-- Bytes 0x000 to 0x1FB of a flit block (R355). -/
def Flit.head (f : Flit) : List Byte :=
  let cr := f.credits.map creditField
  le 1 f.kind ++ le 1 (b2n f.nak + 2 * b2n f.seqd + 4 * b2n f.abort) ++ le 2 f.seq ++ le 2 f.ack ++ le 2 f.mgmt ++
  ((cr ++ List.replicate (4 - cr.length) 0).flatMap (le 2)) ++
  le 1 (128 * b2n f.eom + 64 * b2n f.som + (if f.mgmt % 2 = 1 then 0 else 32 * f.lane + f.vc)) ++ le 1 f.sess ++ le 2 f.payload.length ++
  f.payload ++ List.replicate (488 - f.payload.length) 0

/-- The 512 bytes of a flit block. -/
def Flit.bytes (f : Flit) : List Byte := let h := f.head; h ++ le 4 (crc32c h)

/-- A flit block read from bytes 0x000 to 0x1FB. -/
def readFlit (l : List Byte) : Flit :=
  let fl := leAt l 1 1
  let ch := leAt l 0x10 1
  { kind := leAt l 0 1, nak := bitAt fl 0, seqd := bitAt fl 1, abort := bitAt fl 2, seq := leAt l 2 2, ack := leAt l 4 2, mgmt := leAt l 6 2,
    credits := ((List.range 4).map fun i => leAt l (8 + 2 * i) 2).filterMap fun c =>
      if bitAt c 15 then some (field c 14 13, field c 12 8, field c 7 0) else none,
    som := bitAt ch 6, eom := bitAt ch 7, lane := field ch 5 5, vc := field ch 4 0, sess := leAt l 0x11 1 % 64,
    payload := slice l 0x14 (leAt l 0x12 2) }

/-- A message cut into the blocks of one lane (R357); a message without bytes takes one block. -/
def cutBlocks (proto : Flit) (bytes : List Byte) : List Flit :=
  let l := if bytes.isEmpty then [[]] else pieces 488 bytes
  l.zipIdx.map fun (b, k) => { proto with payload := b, som := k == 0, eom := k + 1 == l.length }

/-- A port and the blocks handed to it. -/
structure Wired where
  port : Nat
  blocks : List Flit

/-- A block of a lane, in the numbering of R363. -/
def laneFlit (k sess : Nat) : Flit :=
  if k < 64 then { kind := 1, lane := k % 2, vc := k / 2, sess := sess } else { kind := 1, mgmt := 1 + 2 * (k - 64), sess := sess }

/-- A message on a lane of a port. -/
def wired (port lane sess : Nat) (bytes : List Byte) : Option Wired := some ⟨port, cutBlocks (laneFlit lane sess) bytes⟩

/-- The block that wakes a sleeping link (R368). -/
def wakeFlit : Flit := { kind := 3, som := true, eom := true, payload := le 1 0x04 }

/-- The lane of a Drover message (R300). -/
def laneOf (m : DMsg) : Nat :=
  match m.type with
  | 1 => 4 * m.fold + 1
  | 2 => 4 * m.fold + 3
  | 3 | 5 | 6 => 4 * m.fold
  | 4 => 4 * m.fold + 2
  | _ => 64

/-- The blocks that carry what the module sends; none for what is a block itself, or does not travel on a port. Egress data names no
session: 0 (log 39). -/
def Out.wire : Out → Option Wired
  | .drover p lane m => wired p lane 0 (DMsgBytes m)
  | .linkCtl p b => some ⟨p, [{ kind := 3, som := true, eom := true, payload := b }]⟩
  | .ack n st h t => wired 32 1 n (ackBytes st h t)
  | .openReply n st t => wired 32 1 n (openReplyBytes st t)
  | .completion c => wired 32 1 c.sess c.bytes
  | .notice n code old new fault device time step slot epoch =>
    wired 32 1 n (noticeBytes code old new fault device time step slot epoch)
  | .bulk n vc b => wired 32 (2 * vc) n b
  | .chunk p _ b => wired p 65 0 b
  | .egress vc _ b => wired 32 (2 * vc) 0 b
  | .flit _ _ | .hello _ _ | .flash _ | .sideband _ _ _ _ | .alertAddress _ => none

end Sys2Proof.Machine
end

