-- ==== Sys2Proof/Machine/Ops.lean ====
section
/-! DEFINITION. The named operations over tables, bytes and the parts of the state that every command uses. -/

namespace Sys2Proof.Machine

/-! ## Sparse tables -/

/-- The entry `k` of a table, `d` where it lists none. -/
def look (d : α) (k : Nat) : Map α → α
  | [] => d
  | (a, b) :: r => if k = a then b else look d k r

/-- Whether a table lists `k`. -/
def has (k : Nat) (m : Map α) : Bool := m.any fun e => e.1 == k

/-- The entry `k` if the table lists it. -/
def find? (k : Nat) : Map α → Option α
  | [] => none
  | (a, b) :: r => if k = a then some b else find? k r

/-- A table with entry `k` set to `v`, kept in rising order. -/
def put (k : Nat) (v : α) : Map α → Map α
  | [] => [(k, v)]
  | (a, b) :: r =>
    if k < a then (k, v) :: (a, b) :: r
    else if k = a then (k, v) :: r
    else (a, b) :: put k v r

/-- A table without entry `k`. -/
def drop (k : Nat) (m : Map α) : Map α := m.filter fun e => e.1 != k

/-- A table with entry `k` changed by `f` (from `d` where it lists none). -/
def adjust (d : α) (k : Nat) (f : α → α) (m : Map α) : Map α := put k (f (look d k m)) m

/-- A set of numbers as a rising list: with `n` in it. -/
def insertN (n : Nat) : List Nat → List Nat
  | [] => [n]
  | a :: r => if n < a then n :: a :: r else if n = a then a :: r else a :: insertN n r

/-- A set of numbers without `n`. -/
def eraseN (n : Nat) (l : List Nat) : List Nat := l.filter fun a => a != n

/-- Whether an ordered list of numbers has no entry twice and rises. -/
def rising : List Nat → Bool
  | [] => true
  | [_] => true
  | a :: b :: r => a < b && rising (b :: r)

/-! ## Byte stores in their one canonical form -/

/-- The byte at an address: zero where nothing is listed (log 5). -/
def readByte (m : Bytes) (a : Nat) : Byte := look 0 a m

/-- A store with one byte written; writing what an unlisted address reads as removes its entry. -/
def writeByte (m : Bytes) (a : Nat) (v : Byte) : Bytes :=
  if v = 0 then drop a m else put a v m

/-- Consecutive bytes from an address. -/
def readBytes (m : Bytes) (a : Nat) : Nat → List Byte
  | 0 => []
  | n + 1 => readByte m a :: readBytes m (a + 1) n

/-- A store with consecutive bytes written from an address. -/
def writeBytes (m : Bytes) (a : Nat) : List Byte → Bytes
  | [] => m
  | b :: r => writeBytes (writeByte m a b) (a + 1) r

/-- The canonical form: addresses strictly rising, and no entry equal to what an unlisted address reads as. -/
def Memory.wf (m : Bytes) : Bool :=
  rising (m.map (·.1)) && m.all fun c => c.2 != 0

/-! ## Free values -/

/-- The next free value of the step, and the state that has used it (log 1). -/
def takeFree (s : State) : Nat × State := (Config.free s.fresh 0, { s with fresh := s.fresh + 1 })

/-- A free order of a list: the unspecified order of a sum (R16). Each place takes one of the entries left. -/
def pick (f : Nat → Nat) : Nat → List α → List α
  | 0, _ => []
  | n + 1, l =>
    let i := f n % l.length
    match l[i]? with
    | some a => a :: pick f n (l.eraseIdx i)
    | none => []

/-- A list in an order the manual does not fix, chosen by the free values of `fresh`. -/
def anyOrder (fresh : Nat) (l : List α) : List α := pick (Config.free fresh) l.length l

/-- The largest value of 32 bits, at which many counts stop. -/
def max32 : Nat := 2 ^ 32 - 1

/-! ## Time -/

/-- Sources (R454). -/
def srcMgmt : Nat := 0
def srcBlock (b : Nat) : Nat := 0x1000 + b
def srcRegion (r : Nat) : Nat := 0x2000 + r
def srcDrover (r : Nat) : Nat := 0x3000 + r
def srcMem (c : Nat) : Nat := 0x4000 + c
def srcPort (p : Nat) : Nat := 0x5000 + p
def srcRail : Nat := 0x6000

/-- A timestamp taken in another island: late by 0 to 4 ns, by an amount the manual leaves open (R38). -/
def State.stamp (s : State) : Nat := (s.board.time + Config.free s.fresh 0 % 5) % 2 ^ 64

/-- The state after a timestamp was taken. -/
def State.stamped (s : State) : State := { s with fresh := s.fresh + 1 }

/-- The time base as a source outside the heartwood stamps it into a trace record or a capture: late by 0 to 4 ns, never early (R38). -/
def State.localTime (s : State) (src n : Nat) : Nat := s.board.time + Config.late s.board.time src n % 5

/-- The time base as the management island stamps it: into notices, acknowledgements, completions and their results, stop requests, lifetime
records (R38). -/
def State.now (s : State) : Nat := s.localTime srcMgmt 0

/-- Cycles of a clock in MHz that fit into some nanoseconds. -/
def cyclesIn (mhz ns : Nat) : Nat := ns * mhz / 1000

/-- Whether `ns` have gone by since `t`. -/
def State.elapsed (s : State) (t ns : Nat) : Bool := t + ns ≤ s.board.time

/-! ## Counters -/

/-- The key of a counter: its group, instance and index in the group's capture block (R475, R476). -/
def ctrKey (group inst idx : Nat) : Nat := group * 65536 + inst * 64 + idx

/-- A counter's value: 48 bits (R476). -/
def State.ctr (s : State) (group inst idx : Nat) : Nat := look 0 (ctrKey group inst idx) s.counters

/-- A counter counts `n`: 48 bits, saturating; a group that COUNTER_POLICY disables does not count (R117, R476, R477). -/
def State.count (s : State) (group inst idx n : Nat) : State :=
  { s with counters := if !bitAt s.job.ctrMask group || n = 0 then s.counters
                       else adjust 0 (ctrKey group inst idx) (satAdd max48 · n) s.counters }

/-! ## The parts of the state -/

def State.blk (s : State) (b : Nat) : Block := look {} b s.blocks
def State.setBlk (s : State) (b : Nat) (x : Block) : State := { s with blocks := put b x s.blocks }
def State.modBlk (s : State) (b : Nat) (f : Block → Block) : State := s.setBlk b (f (s.blk b))

def State.rgn (s : State) (r : Nat) : Region := look {} r s.regions
def State.setRgn (s : State) (r : Nat) (x : Region) : State := { s with regions := put r x s.regions }
def State.modRgn (s : State) (r : Nat) (f : Region → Region) : State := s.setRgn r (f (s.rgn r))

def State.port (s : State) (p : Nat) : Port := look {} p s.ports
def State.setPort (s : State) (p : Nat) (x : Port) : State := { s with ports := put p x s.ports }
def State.modPort (s : State) (p : Nat) (f : Port → Port) : State := s.setPort p (f (s.port p))

def State.ten (s : State) (t : Nat) : TensorRt := look {} t s.tensors
def State.setTen (s : State) (t : Nat) (x : TensorRt) : State := { s with tensors := put t x s.tensors }
def State.modTen (s : State) (t : Nat) (f : TensorRt → TensorRt) : State := s.setTen t (f (s.ten t))

def State.setQueue (s : State) (q : Nat) (x : Queue) : State := { s with queues := put q x s.queues }

def State.sess (s : State) (n : Nat) : Session := look {} n s.hci.sessions
def State.setSess (s : State) (n : Nat) (x : Session) : State :=
  { s with hci := { s.hci with sessions := put n x s.hci.sessions } }

/-! ## Sending -/

/-- Lanes in the order of the hello's allocations (R363): 2 × VC + lane, then the two management lanes; 66 stands for link control. -/
def Flit.key (f : Flit) : Nat := if f.kind = 3 then 66 else if f.mgmt % 2 = 1 then 64 + f.mgmt / 2 % 2 else 2 * f.vc + f.lane

/-- Rank of a lane in the choice of a block slot (R362): the management control lane and with it link control, which the rule does not rank
(DESIGN CHOICE, log 165), head lanes, the others. -/
def laneRank (k : Nat) : Nat := if k = 66 || k = 64 then 0 else if k < 64 && k % 2 = 1 then 1 else 2

/-- Whether a port holds a credit for a lane; link control needs none. -/
def Port.mayTake (x : Port) (k : Nat) : Bool := k == 66 || 0 < look 0 k x.credits

/-- Where the message of a block comes from: this module, in one of the control port's sessions, or the port it came in by (R302). -/
def Flit.source (f : Flit) : Nat := f.via * 64 + f.sess

/-- Whether a block may go now: its lane has a credit, and is not partway through a message of another source (R362). -/
def Port.mayGo (x : Port) (f : Flit) : Bool :=
  x.mayTake f.key && match find? f.key x.partway with
    | some n => n == f.source
    | none => true

/-- The lanes partway through a message after a block has gone (R357, R362). -/
def Port.partAfter (x : Port) (f : Flit) : Map Nat :=
  if f.key = 66 then x.partway else if f.eom then drop f.key x.partway else put f.key f.source x.partway

/-- A weighted round among requesters (R30, R31, R32): the one in turn while its share lasts, else the next in rising order that has something
to send, with the share its weight gives it; and what is left of the share. That a requester takes its share at once, and which of them is
the first, is the model's choice (log 30). -/
def roundRobin (weight : Nat → Nat) (turn left : Nat) (l : List Nat) : Option (Nat × Nat) :=
  if l.contains turn && 0 < left then some (turn, left - 1)
  else
    let at' (k : Nat) := (k + 63 - turn % 64) % 64
    (l.foldl (fun (a : Option Nat) k => match a with
      | some j => if at' k < at' j then some k else a
      | none => some k) none).map fun k => (k, weight k - 1)

/-- The requester of a data block at a port (R32): its session at the control port; at a fabric port its fold, and 16 for the management bulk
lane. -/
def sharer (p : Nat) (f : Flit) : Nat := if p = 32 then f.sess else if f.key = 65 then 16 else f.key / 4

/-- The weight of a requester at a port (R32, R301): DEVICE_POLICY's, for a fold without one its FOLD_TABLE weight, 1 for the bulk lane. -/
def State.shareOf (s : State) (p k : Nat) : Nat :=
  if p = 32 then (if (s.sess k).oper then s.job.opWeight else s.job.obsWeight)
  else if k = 16 then 1
  else
    let w := s.job.portWeights / 256 ^ k % 256
    if w != 0 then w else ((s.job.folds.find? fun f => f.fold == k).map (·.weight)).getD 1

/-- The block that a port sends next: the first in rank that may go, and among data lanes by weighted fair sharing (R32, R362);
with it the requester in turn and what is left of its share. -/
def State.nextBlock (s : State) (p : Nat) : Option (Flit × Nat × Nat) :=
  let x := s.port p
  let first (r : Nat) := x.txq.find? fun f => laneRank f.key == r && x.mayGo f
  match (first 0).or (first 1) with
  | some f => some (f, x.turn, x.left)
  | none =>
    let l := x.txq.filter fun f => laneRank f.key == 2 && x.mayGo f
    (roundRobin (s.shareOf p) x.turn x.left (l.map (sharer p)).eraseDups).bind fun (k, left) =>
      (l.find? fun f => sharer p f == k).map fun f => (f, k, left)

/-- Up to four credit returns taken from what is owed (R355, R361): lane, VC, blocks. -/
def Port.returns (x : Port) : List (Nat × Nat × Nat) :=
  ((x.owed.filter fun e => e.2 != 0).take 4).map fun (k, n) =>
    (if k = 64 then 2 else if k = 65 then 3 else k % 2, if k < 64 then k / 2 else 0, Min.min 255 n)

/-- What is owed after some returns. -/
def Port.returned (x : Port) (l : List (Nat × Nat × Nat)) : Port :=
  l.foldl (fun x (lane, vc, n) =>
    let k := if lane = 2 then 64 else if lane = 3 then 65 else 2 * vc + lane
    { x with owed := adjust 0 k (· - n) x.owed }) x

/-- The sequence number of the last block accepted in order (R355). -/
def Port.ack (x : Port) : Nat := (x.e + 65535) % 65536

/-- Whether a port returns credits: the control port not from the entry of a power state to the end of its exit (R417, R430). -/
def State.returnsOn (s : State) (p : Nat) : Bool := (s.port p).st == 2 && (p != 32 || s.pwr.state == 0 && !s.pwr.busy)

/-- A sequenced block sent: numbered, with the ack and the credit returns, kept for replay (R355, R358). -/
def State.sendBlock (s : State) (p : Nat) (f : Flit) : State :=
  let x := s.port p
  let ret := if s.returnsOn p then x.returns else []
  let f := { f with seqd := true, seq := x.nextSeq, ack := x.ack, credits := ret, via := 0, rx := none, own := 0 }
  let x := { x.returned ret with nextSeq := (x.nextSeq + 1) % 65536, replay := x.replay ++ [f] }
  let s := (s.setPort p x).count 18 p 0 1
  { s with out := .flit p f :: s.out }

/-- Blocks of the replay buffer (R358). -/
def replaySlots : Nat := 1024

/-- An idle block without a number: it carries only the ack (R355, R358). -/
def State.sendIdle (s : State) (p : Nat) : State :=
  let s := s.count 18 p 0 1
  { s with out := .flit p { kind := 2, ack := (s.port p).ack } :: s.out }

/-- Credit returns that no block has carried leave in sequenced idle blocks (R361). -/
def State.sendReturns (s : State) (p : Nat) : Nat → State
  | 0 => s
  | n + 1 =>
    let x := s.port p
    if !s.returnsOn p || x.returns.isEmpty || replaySlots ≤ x.replay.length then s else (s.sendBlock p { kind := 2 }).sendReturns p n

/-- The port a block came in by owes a credit for its lane, and returns it (R361). -/
def State.repay (s : State) (p k n : Nat) : State := (s.modPort p fun x => { x with owed := adjust 0 k (· + n) x.owed }).sendReturns p 66

/-- A block has left a port's queue: where it came in by another port and no other one has it still to send, it has left that port's
buffer, and its credit is returned (R361). -/
def State.leave (s : State) (f : Flit) : State :=
  if f.rx.isNone || s.ports.any fun e => e.2.txq.any fun g => g.via == f.via && g.rx == f.rx then s else s.repay (f.via - 1) f.key 1

/-- Waiting blocks sent as credits and the replay buffer allow; lanes that hold no credit begin to wait, and at a full replay buffer an idle block
without a number goes in place of the next one (R358, R361, R362). -/
def State.pump (s : State) (p : Nat) : Nat → State
  | 0 => s
  | n + 1 =>
    let x := s.port p
    if x.st != 2 || x.txq.isEmpty then s
    else if replaySlots ≤ x.replay.length then s.sendIdle p
    else match s.nextBlock p with
      | none =>
        let dry := ((x.txq.map Flit.key).filter fun k => !x.mayTake k).eraseDups
        s.setPort p { x with creditFrom := dry.foldl (fun m k => if has k m then m else put k s.board.time m) x.creditFrom }
      | some (f, turn, left) =>
        let k := f.key
        let waited := match find? k x.creditFrom with
          | some t => s.board.time - t
          | none => 0
        let x := { x with txq := x.txq.erase f, partway := x.partAfter f, turn := turn, left := left, credits := if k = 66 then x.credits else adjust 0 k (· - 1) x.credits,
                          creditFrom := drop k x.creditFrom }
        ((((s.setPort p x).count 18 p 8 waited).sendBlock p f).leave f).pump p n

/-- Whatever waits on a port sent as far as it goes. -/
def State.flush (s : State) (p : Nat) : State := s.pump p ((s.port p).txq.length + 1)

/-- A port able to send again catches up: blocks that wait, then the returns that none of them carried (R361). -/
def State.catchUp (s : State) (p : Nat) : State := (s.flush p).sendReturns p 66

/-- Blocks handed to a port: lost where it is not up, and waking a sleeping link (R367, R368). -/
def State.atPort (s : State) (p : Nat) (l : List Flit) : State :=
  let x := s.port p
  if !([2, 3, 4].contains x.st) then s
  else
    let wake := x.st == 4 && s.pwr.state == 0
    s.setPort p { x with st := if wake then 2 else x.st, txq := (if wake then [wakeFlit] else []) ++ x.txq ++ l }

/-- Blocks handed to a port and sent as far as it goes. -/
def State.enqueue (s : State) (p : Nat) (l : List Flit) : State := (s.atPort p l).flush p

/-- A block handed to several ports at once. -/
def State.spread (s : State) (ports : List Nat) (f : Flit) : State := ports.foldl State.flush (ports.foldl (fun s q => s.atPort q [f]) s)

/-- The state having sent `o` (log 2): it is noted, and what travels on a port is cut into blocks there (R357). -/
def State.send (s : State) (o : Out) : State :=
  let s := { s with out := o :: s.out }
  match o.wire with
  | some w => s.enqueue w.port w.blocks
  | none => s

/-- The state having sent several things, in order. -/
def State.sendAll (s : State) (l : List Out) : State := l.foldl State.send s

/-- A whole message that FLIT_BLOCK reassembled is handed on: it no longer waits at its port (log 41). -/
def State.taken (s : State) (p : Nat) (bytes : List Byte) : State :=
  let x := s.port p
  if x.delivered.isEmpty then s
  else match x.delivered.find? fun d => d.2 == bytes with
    | some d => s.setPort p { x with delivered := x.delivered.erase d, sentOn := x.sentOn.erase bytes }
    | none => s

/-- Whether what arrives at a port waits by credit back-pressure: in P1 and P2 (R417, R430, R439). -/
def State.heldAt (s : State) (p : Nat) : Bool :=
  s.board.powerGood && (s.pwr.state == 1 || s.pwr.state == 2) && ((s.port p).st == 2 || (s.port p).st == 4)

/-- A message held until the module wakes. -/
def State.hold (s : State) (i : Instr) : State := { s with hci := { s.hci with held := s.hci.held ++ [i] } }

/-- The region a block belongs to (R18): block numbers count 64 to a region. -/
def regionOf (b : Nat) : Nat := b / 64

/-- The job is loaded and the module's state is one of those given. -/
def State.inState (s : State) (l : List ModState) : Bool := l.contains s.glb.mstate

end Sys2Proof.Machine
end

