-- ==== Sys2Proof/Machine/TraceOps.lean ====
section
/-! DEFINITION. Trace buffers and the trigger (R480-R484): what every unit that writes a record uses. -/

namespace Sys2Proof.Machine

/-- Slots of a trace buffer, and entries of its input FIFO (R480). -/
def traceSlots : Nat := 262144
def traceFifo : Nat := 256

/-- The region into whose buffer a source writes (R480). -/
def traceRegion (src : Nat) : Nat :=
  let i := src % 4096
  match src / 4096 with
  | 1 => i / 64 % 4
  | 2 => i % 4
  | 3 => i % 4
  | 4 => if i < 16 then i / 4 else (i - 16) / 2 % 4
  | 5 => if i < 32 then i / 8 else 0
  | _ => 0

/-- The event-mask bit of a record kind; none for kinds always written (R482, R486). -/
def maskBit (kind : Nat) : Option Nat :=
  if 1 ≤ kind && kind ≤ 8 then some (kind - 1)
  else if kind = 0x10 then some 8 else if kind = 0x11 then some 9 else if kind = 0x12 then some 10
  else if kind = 0x13 then some 11 else if kind = 0x21 then some 12
  else if kind = 0x28 || kind = 0x29 then some 13 else if kind = 0x2A then some 14
  else none

/-- Every record that follows the trigger is written: the region takes no more, and TRACE_FREEZE freezes it (R484). -/
def TraceBuf.ended (t : TraceBuf) : Bool := t.triggered && t.left == 0

/-- A region that is armed and not frozen is capturing (R483). -/
def TraceBuf.capturing (t : TraceBuf) : Bool := t.armed && !t.frozen && !t.ended

def Region.modTrace (g : Region) (f : TraceBuf → TraceBuf) : Region := { g with trace := f g.trace }

/-- Records written at the end of the ring; the oldest leave it when it is full (R480). -/
def TraceBuf.push (t : TraceBuf) (r : TRec) : TraceBuf :=
  if t.recs.length < traceSlots then { t with recs := t.recs ++ [r] }
  else { t with recs := t.recs.drop 1 ++ [r], wrapped := true }

/-- Whether a region's armed body lets a record of a kind through (R482). -/
def TraceBuf.wants (t : TraceBuf) (kind : Nat) : Bool :=
  match maskBit kind with
  | some b => bitAt t.mask b
  | none => true

/-- One record into the ring, inexact where its source lost an event on its trace line (R42, R481). -/
def TraceBuf.write (t : TraceBuf) (r : TRec) : TraceBuf :=
  let lost := t.inexact.contains r.src && !([0x28, 0x29, 0x30, 0x31].contains r.kind)
  { t.push (if lost then { r with flags := r.flags ||| 1 } else r) with
    inexact := if lost then t.inexact.filter (· != r.src) else t.inexact }

/-- Records taken into a capturing buffer together; after the trigger each counts down (R480, R484). -/
def TraceBuf.take (t : TraceBuf) (l : List TRec) : TraceBuf :=
  let t := l.foldl TraceBuf.write t
  if t.triggered then { t with left := t.left - l.length } else t

/-- The record, or the two slots of a watch pair, that stand first in an input FIFO, and what stands behind (R487). -/
def firstOf : List TRec → List TRec × List TRec
  | [] => ([], [])
  | [a] => ([a], [])
  | a :: b :: r => if a.kind = 0x28 then ([a, b], r) else ([a], b :: r)

/-- The first records leave an input FIFO, which then has room for the marker of what was dropped (R480). -/
def TraceBuf.next (t : TraceBuf) (rest : List TRec) (src now : Nat) : TraceBuf :=
  { t with fifo := if t.dropsSince = 0 then rest else rest ++ [{ kind := 0x3F, src := src, start := now, obj := t.dropsSince }], dropsSince := 0 }

/-- Records dropped in a region, counted in TRC_DROP_r and TRC_DROPS (R480). -/
def State.dropTrace (s : State) (region n : Nat) : State :=
  (s.modRgn region fun g =>
    { g.modTrace fun (t : TraceBuf) => { t with drops := t.drops + n, dropsSince := t.dropsSince + n } with
      trcDrop := satAdd max32 g.trcDrop n }).count 11 region 3 n

/-! ## The trigger (R484) -/

/-- The trigger starts in one region: its record, then the countdown. A region that counts down already does not start again. -/
def TraceBuf.trigger (t : TraceBuf) (rec : TRec) : TraceBuf :=
  if !t.capturing || t.triggered then t else { (t.push rec) with triggered := true, trigTime := rec.start, left := t.depth * 32 }

/-- A buffer freezes (R483). -/
def TraceBuf.freeze (t : TraceBuf) (now : Nat) : TraceBuf :=
  if t.armed && !t.frozen then { t with frozen := true, freezeTime := now, fifo := [] } else t

/-- When a region freezes, in its own island's time (R38). -/
def State.freezeTime (s : State) (r : Nat) : Nat := s.localTime (srcRegion r) 0

/-- Whether a region can take the trigger: it captures and has not taken one since it was armed. -/
def TraceBuf.awaits (t : TraceBuf) : Bool := t.capturing && !t.triggered

/-- The trigger fires, at most once per arming: every capturing region writes a record of kind 0x20. -/
def State.fireTrigger (s : State) : State :=
  if s.trc.fired || !([0, 1, 2, 3].any fun r => (s.rgn r).trace.awaits) then s
  else
    let x : TRec := { kind := 0x20, start := s.now, detail := s.trc.body.kind, obj := s.trc.body.arg }
    let s := { s with trc := { s.trc with fired := true, trigTime := x.start } }
    [0, 1, 2, 3].foldl (fun s r =>
      if (s.rgn r).trace.awaits then (s.modRgn r fun g => g.modTrace (·.trigger x)).count 11 r 2 1 else s) s

/-- Whether a record fires a trigger of kind 2 or 3. -/
def TraceBody.firedBy (b : TraceBody) (r : TRec) : Bool :=
  (b.kind == 2 && r.kind < 64 && bitAt b.arg r.kind) || (b.kind == 3 && 1 ≤ r.kind && r.kind ≤ 8 && b.arg ≤ r.dur)

/-! ## Records of the units (R480-R482, R487) -/

/-- Records written into a capturing region's buffer; TRC_RECORDS counts them, and they may fire the trigger. Both slots of a pair are
dropped where the countdown has room for one only (R476, R487). -/
def State.writeTrace (s : State) (region : Nat) (l : List TRec) : State :=
  let t := (s.rgn region).trace
  if !t.capturing then s
  else if t.triggered && t.left < l.length then s.dropTrace region l.length
  else
    let s := (s.modRgn region fun g => g.modTrace (·.take l)).count 11 region 2 l.length
    if l.any s.trc.body.firedBy then s.fireTrigger else s

/-- Records taken from the input FIFO of a region, one for each region cycle (R480). The marker of drops stands under the region island
(log 54). -/
def State.drainFifo (s : State) (region : Nat) : Nat → State
  | 0 => s
  | n + 1 =>
    match firstOf (s.rgn region).trace.fifo with
    | ([], _) => s
    | (l, rest) =>
      let s := s.modRgn region fun g => g.modTrace (·.next rest (srcRegion region) (s.localTime (srcRegion region) 0x3F))
      (s.writeTrace region l).drainFifo region n

/-- Records that reach the input FIFO of a capturing region, all of them wanted there: in its 256 entries, or dropped where that is full. The
buffer then takes as many records as region cycles go by, a number that is open (R480; log 54). -/
def State.offer (s : State) (region : Nat) (l : List TRec) : State :=
  let t := (s.rgn region).trace
  if !t.capturing || !l.all (fun r => t.wants r.kind) then s
  else
    let s := if traceFifo < t.fifo.length + l.length then s.dropTrace region l.length
      else s.modRgn region fun g => g.modTrace fun (t : TraceBuf) => { t with fifo := t.fifo ++ l }
    s.drainFifo region (Config.taken s.fresh s.board.time region (s.ctr 11 region 2) (s.rgn region).trace.drops % (traceFifo + 1))

/-- A record of a unit: it goes to the buffer of a region (R480). -/
def State.trace (s : State) (region : Nat) (r : TRec) : State := s.offer region [r]

/-- The records written at a stop, whatever the arming (R497): a capturing region appends them, behind those that wait in its FIFO, and
freezes; a frozen region writes them over its oldest records; a region not armed is cleared first. -/
def State.stopRecords (s : State) (region : Nat) (l : List TRec) : State :=
  let s := s.drainFifo region (traceFifo + 1)
  let t := (s.rgn region).trace
  let t' : TraceBuf :=
    if !t.armed then l.foldl TraceBuf.push {}
    else if t.frozen || t.ended then { t with recs := t.recs.drop l.length ++ l, wrapped := t.wrapped || !t.recs.isEmpty }
    else l.foldl TraceBuf.push t
  (s.modRgn region fun g => { g with trace := t'.freeze (s.freezeTime region) }).count 11 region 2 l.length

end Sys2Proof.Machine
end

