-- ==== Sys2Proof/Machine/Faults.lean ====
section
/-! DEFINITION. Reports, the log ring, the first-fault latch's window and the alert (R33, R454-R464); the lifetime record
chain (R468, R469). -/

namespace Sys2Proof.Machine

/-- A fault code (R33). -/
def faultCode (level cls detail : Nat) : Nat := level * 16384 + cls * 256 + detail

def codeLevel (c : Nat) : Nat := c / 16384
def codeClass (c : Nat) : Nat := c / 256 % 64
def codeDetail (c : Nat) : Nat := c % 256

/-- The class codes of R455. -/
def PARITY : Nat := 0x01
def ECC_UNCORR : Nat := 0x02
def POISON_COMMIT : Nat := 0x03
def CRC_EXHAUST : Nat := 0x04
def LINK_DOWN : Nat := 0x05
def PEER_LOST : Nat := 0x06
def DESC_ALIGN : Nat := 0x07
def DESC_BOUNDS : Nat := 0x08
def DESC_OVERLAP : Nat := 0x09
def INDEX : Nat := 0x0A
def DEADLOCK : Nat := 0x0B
def STREAM_DUP : Nat := 0x0C
def WIDEN_EXHAUST : Nat := 0x0D
def THERMAL : Nat := 0x0E
def AGEING_MARGIN : Nat := 0x0F
def IMAGE_SIG : Nat := 0x10
def IMAGE_FORMAT : Nat := 0x11
def CDC_OVERRUN : Nat := 0x12
def WATCHDOG : Nat := 0x13
def REPAIR : Nat := 0x14

/-- Whether a source is inside the ranges of R454. -/
def srcLegal (s : Nat) : Bool :=
  let k := s / 4096
  let i := s % 4096
  match k with
  | 0 => i == 0 | 1 => i < 256 | 2 => i < 4 | 3 => i < 4 | 4 => i < 24 | 5 => i < 33 | 6 => i == 0 | _ => false

/-- The disposition of a report (R35, R455). -/
inductive Disp where
  | contained | jobFault | loadRefused | recorded | notice
  deriving DecidableEq, Repr

/-- The disposition of a code; LINK_DOWN is a job fault on a fabric port the job uses (R366). -/
def disposition (s : State) (code ctx : Nat) : Disp :=
  match codeClass code with
  | 0x01 | 0x02 | 0x12 => .contained
  | 0x03 | 0x04 | 0x06 | 0x08 | 0x0A | 0x0E | 0x13 => .jobFault
  | 0x05 => if ctx % 256 < 32 && (s.port (ctx % 256)).inUse then .jobFault else .recorded
  | 0x0B => if codeDetail code = 0x10 then .loadRefused else .jobFault
  | 0x07 | 0x09 | 0x0C | 0x10 => .loadRefused
  | 0x11 => if codeDetail code = 0x41 then .recorded else .loadRefused
  | 0x14 => if codeLevel code = 1 then .recorded else .loadRefused
  | 0x0D | 0x0F => .notice
  | _ => .recorded

/-- The two reports that latch and make the module FAULTED whether or not a job runs (R456). -/
def alwaysFaults (code : Nat) : Bool :=
  (codeClass code == THERMAL && codeDetail code == 0x02) || (codeClass code == WATCHDOG && codeDetail code == 0x05)

/-- Entries unread in the log ring (R463). -/
def Err.unread (e : Err) : Nat := (e.wr + 2048 - e.rd) % 2048

/-- Slot of entry `i` (R463). -/
def logSlot (i : Nat) : Nat := i % 1024

/-- An alert bit set: 0 FIRST, 1 START, 2 NOTICE, 3 OVF (R464). -/
def State.alert (s : State) (b : Nat) : State := { s with err := { s.err with alert := s.err.alert ||| 2 ^ b } }

/-- The newest unread entry that a report merges into, as an entry number (R462). -/
def mergeTarget (e : Err) (code src time : Nat) : Option Nat :=
  let same := (List.range e.unread).filterMap fun k =>
    let i := (e.wr + 2048 - 1 - k) % 2048
    match find? (logSlot i) e.log with
    | some x => if x.code = code && x.source = src then some (i, x) else none
    | none => none
  match same with
  | (i, x) :: _ => if time < x.first + 1000000 then some i else none
  | [] => none

/-- A report enters the log ring: merged, or in a new entry that may overwrite the oldest unread one (R462, R463). -/
def logReport (s : State) (code src ctx time : Nat) : State :=
  let e := s.err
  match mergeTarget e code src time with
  | some i =>
    let f (x : LogEnt) : LogEnt := { x with count := satAdd 0xFFFFFFFF x.count 1, last := time }
    match find? (logSlot i) e.log with
    | some x => { s with err := { e with log := put (logSlot i) (f x) e.log } }
    | none => s
  | none =>
    let ent : LogEnt := { code := code, source := src, first := time, last := time, ctx := ctx }
    let log := put (logSlot e.wr) ent e.log
    if e.unread = 1024 then
      State.alert { s with err := { e with log := log, wr := (e.wr + 1) % 2048, rd := (e.rd + 1) % 2048,
                                           overwritten := satAdd 0xFFFF e.overwritten 1 } } 3
    else { s with err := { e with log := log, wr := (e.wr + 1) % 2048 } }

/-- The 32 bytes of a log entry (R462). -/
def logBytes (x : LogEnt) : List Byte :=
  le 2 x.code ++ le 2 x.source ++ le 4 x.count ++ le 8 x.first ++ le 8 x.last ++ le 8 x.ctx

/-! ## Lifetime records -/

/-- Bytes a lifetime record takes: its header and its body padded to a multiple of 64 (R468). -/
def lifeSize (body : List Byte) : Nat := 64 + ceilDiv body.length 64 * 64

/-- Header and body of a lifetime record, with the field at 0x18 as given (R468). -/
def lifeBytesWith (r : LifeRec) (crc : Nat) : List Byte :=
  le 2 r.kind ++ le 2 r.body.length ++ le 4 r.powerOn ++ le 8 r.seq ++ le 8 r.time ++ le 4 crc ++ le 4 0 ++ le 32 r.prev ++ r.body

/-- The record with its CRC (R468). -/
def lifeBytes (r : LifeRec) : List Byte := lifeBytesWith r (crc32c (lifeBytesWith r 0))

/-- The previous digest of the next record: SM3 of the newest record's header and body; 0 before the first. -/
def lifePrev (s : State) : Nat :=
  match s.flash.life.getLast? with
  | some r => (Config.sm3 (lifeBytes r)).toNat
  | none => 0

/-- A lifetime record written into the journal store: in the open segment if it fits, else in the next one, whose old
records are erased first and whose header is written (R468). -/
def addLife (s : State) (kind : Nat) (body : List Byte) : State :=
  let f := s.flash
  let n := lifeSize body
  let fits := f.lifeUsed != 0 && f.lifeUsed + n ≤ 65536
  let seg := if fits then f.lifeSeg else if f.lifeUsed = 0 && f.lifeSeq = 0 then 0 else (f.lifeSeg + 1) % 8064
  let used := if fits then f.lifeUsed + n else 64 + n
  let kept := if fits then f.life else f.life.filter fun r => r.segment != seg
  let r : LifeRec := { kind := kind, powerOn := f.powerOns, seq := f.lifeSeq, time := s.now, prev := lifePrev s,
                       body := body, segment := seg }
  let heads := if fits then f.lifeHeads
    else (f.lifeHeads.filter fun h => h.segment != seg) ++ [{ segment := seg, seq := f.lifeSeq, powerOn := f.powerOns }]
  { s with flash := { f with life := kept ++ [r], lifeHeads := heads, lifeSeq := f.lifeSeq + 1, lifeSeg := seg, lifeUsed := used } }

/-- The lifetime record that a report calls for: table parity, and descriptor corruption (R469). -/
def lifeKind (code : Nat) : Option Nat :=
  if codeClass code = PARITY && codeLevel code = 0 then some 0x0007
  else if codeClass code = DESC_BOUNDS && codeDetail code = 0x02 then some 0x0009
  else none

/-- A report written into the lifetime records where it calls for one, with its log entry as the body (R469). -/
def State.lifeReport (s : State) (code src ctx time : Nat) : State :=
  match lifeKind code with
  | some k => addLife s k (logBytes { code := code, source := src, first := time, last := time, ctx := ctx })
  | none => s

/-! ## The latch window -/

/-- The report as it waits in the latch window; `dev` is the device of a fault carried by STOP. -/
def toWindow (s : State) (code src ctx time : Nat) (dev : Option Nat) : State :=
  let e := s.err
  let ent : LogEnt := { code := code, source := src, first := time, last := time, ctx := ctx }
  { s with err := { e with window := e.window ++ [(ent, dev)], windowAt := some (e.windowAt.getD s.board.time) } }

/-- A report that ends the JOB_START in progress when the window closes, and does not latch: no job is RUNNING or PAUSED (R456, log 45). -/
def quietStop (s : State) (code src ctx time : Nat) (dev : Option Nat) : State :=
  let e := s.err
  let ent : LogEnt := { code := code, source := src, first := time, last := time, ctx := ctx }
  { s with err := { e with quiet := e.quiet ++ [(ent, dev)], windowAt := some (e.windowAt.getD s.board.time), stopIssue := true } }

/-- The report opens the latch window, or joins it, and issue stops (R458). -/
def stopFor (s : State) (code src ctx time : Nat) : State :=
  let s := toWindow s code src ctx time none
  { s with err := { s.err with stopIssue := true } }

/-- A report reaches the management controller (R454-R464): it is logged and counted; a job fault stops issue and opens
the latch window; a notice, or a job-fault class that stops no job, sets NOTICE, in FAULTED too (R461, R464). A job that is starting is
stopped and does not latch (DEDUCED, log 45). -/
def reportAt (s : State) (code src ctx time : Nat) : State :=
  let s := logReport s code src ctx time
  let k := (codeClass code - 1) * 4 + codeLevel code
  let s := { s with err := { s.err with counts := adjust 0 k (· + 1) s.err.counts } }
  let s := s.lifeReport code src ctx time
  let s := s.trace (traceRegion src) { kind := 0x2A, src := src, start := time, detail := code, obj := ctx }
  let b := s.trc.body
  let s := if b.kind = 6 && (Nat.land code (b.arg / 65536 % 65536)) = b.arg % 65536 then s.fireTrigger else s
  if alwaysFaults code then
    if s.glb.mstate != .faulted then stopFor s code src ctx time
    else if s.err.valid then s
    else toWindow s code src ctx time none
  else match disposition s code ctx with
    | .jobFault =>
      if s.inState [.running, .paused] then stopFor s code src ctx time
      else if s.glb.jobStarting then (quietStop s code src ctx time none).alert 2
      else s.alert 2
    | .recorded => if codeClass code = LINK_DOWN then s.alert 2 else s
    | .notice => s.alert 2
    | _ => s

/-- Reports of a source that may still be on their way: those of the last 2 µs (R458). -/
def State.onTheWay (s : State) : List (Nat × Nat) := s.err.recent.filter fun x => s.board.time < x.2 + 2000

/-- The island whose buffer the reports of a source pass: a block's climb through its region's error unit, the others go straight (R458). -/
def islandOf (src : Nat) : Nat := if src / 4096 = 1 then srcRegion (src % 4096 / 64) else src

/-- Whether a report of a source can find a 4-entry buffer on its way full: a contained report or a notice of any unit but the
management controller, with four of the same island on their way (R458). -/
def State.bufferFull (s : State) (code src ctx : Nat) : Bool :=
  let d := disposition s code ctx
  (d == .contained || d == .notice) && src != srcMgmt && 4 ≤ (s.onTheWay.filter fun x => islandOf x.1 == islandOf src).length

/-- A report that is not passed on: counted, and OVF set (R458, R464). -/
def State.dropReport (s : State) : State :=
  ({ s with err := { s.err with dropped := satAdd 0xFFFF s.err.dropped 1 } } : State).alert 3

/-- A report passed on, stamped with a time. -/
def State.passReport (s : State) (code src ctx time : Nat) : State :=
  reportAt { s with err := { s.err with recent := s.onTheWay ++ [(src, s.board.time)] } } code src ctx time

/-- A condition detected now: its report carries the time base as synchronised into the detecting island (R38, R454). Whether a buffer that
may be full is full is a free choice, since the rule bounds a report's way by 2 µs and says no more (R458, log 141). -/
def raise (s : State) (code src ctx : Nat) : State :=
  let t := s.stamp
  let s := s.stamped
  if s.bufferFull code src ctx then
    let (v, s) := takeFree s
    if v % 2 = 0 then s.dropReport else s.passReport code src ctx t
  else s.passReport code src ctx t

/-- A sticky bit of a block's window set (R42, R510). -/
def State.blkSticky (s : State) (b bit : Nat) : State := s.modBlk b fun x => { x with sticky := x.sticky ||| 2 ^ bit }

/-- A sticky bit of a region's window set (R42, R510). -/
def State.rgnSticky (s : State) (r bit : Nat) : State := s.modRgn r fun x => { x with sticky := x.sticky ||| 2 ^ bit }

/-- Poisoned values discarded on a block without reaching a commit point (R34, R475). -/
def State.discard (s : State) (b n : Nat) : State :=
  if n = 0 then s else (s.count 4 b 4 n).blkSticky b 3

end Sys2Proof.Machine
end

