-- ==== Sys2Proof/Machine/Records.lean ====
section
/-! DEFINITION. Epirium records (R440-R450): the base record in progress, records entering the chain, and their bytes. -/

namespace Sys2Proof.Machine

/-- Slots of the record area (R447). -/
def recSlots : Nat := 4194304

/-- Bodies that may await signature before handle records are dropped (R448). -/
def recBacklog : Nat := 65536

/-- The uncertainty bound of a record (R441), in mJ. -/
def uncertainty (energy : List Nat) (gaps : Nat) : Nat := ceilDiv (15 * energy.sum) 1000 + 40 * gaps + 6

/-- The annex of a flock record (R450): header and entries. -/
def annexBytes (entries : List (List Nat)) : List Byte :=
  le 4 entries.length ++ le 12 0 ++ entries.flatMap fun w => w.flatMap (le 4)

/-- The 192-byte body of a record (R444). -/
def ERec.body (r : ERec) : List Byte :=
  le 1 r.kind ++ le 1 r.flags ++ le 2 r.device ++ le 4 r.handle ++ le 8 r.seq ++ le 16 Config.serial.toNat ++ le 8 r.job ++
  le 8 r.start ++ le 8 r.stop ++ le 8 r.firstStep ++ le 4 r.steps ++ le 4 r.gaps ++ r.energy.flatMap (le 8) ++
  le 8 (uncertainty r.energy r.gaps) ++ le 32 (if r.annex.isEmpty then 0 else (Config.sm3 r.annex).toNat) ++ le 32 r.prev

/-- The 256 bytes of a signed record. -/
def ERec.bytes (r : ERec) : List Byte := r.body ++ le 64 (r.sig.getD 0)

/-- The slot of a sequence number (R447): package, data frame, byte in the frame. -/
def recPlace (q : Nat) : Nat × Nat × Nat :=
  let k := q % recSlots
  let j := k / 8
  (k % 8, 32192 + j / 8192, 256 * (j % 8192))

/-- Sequence numbers that may be taken in any 1 s (R448). -/
def recRate : Nat := 1000

/-- Sequence numbers that a record takes: its own and those of its annex (R445). -/
def ERec.numbers (r : ERec) : Nat := 1 + r.annexSlots

/-- A body written into its slot, and the annex behind it; each takes sequence numbers, and the oldest records of a full
area are overwritten (R445, R447, R448). -/
def Eng.place (e : Eng) (r : ERec) (now : Nat) : Eng :=
  let q := e.nextSeq
  let next := q + r.numbers
  let oldest := Nat.max e.oldest (next - recSlots)
  let recs := (put q { r with seq := q } e.recs).filter fun x => oldest ≤ x.1
  { e with recs := recs, queue := e.queue ++ [q], nextSeq := next, oldest := oldest, used := (now, r.numbers) :: e.used.filter fun x => now < x.1 + 1000000000 }

/-- Sequence numbers taken in the last second (R448). -/
def Eng.taken (e : Eng) (now : Nat) : Nat := ((e.used.filter fun x => now < x.1 + 1000000000).map (·.2)).sum

/-- Closed records written in their order, as many as the rate of 1 s allows; the rest wait (R448). -/
def Eng.placeAll (now : Nat) : List ERec → Eng → Eng
  | [], e => { e with waiting := [] }
  | r :: rest, e =>
    if e.taken now + r.numbers ≤ recRate then (e.place r now).placeAll now rest else { e with waiting := r :: rest }

/-- The records that wait written, as far as the rate allows now. -/
def State.admitRecs (s : State) : State := { s with eng := s.eng.placeAll s.board.time s.eng.waiting }

/-- A record closes: it joins those that wait for their sequence numbers, and is written at once where the rate allows it (R448). -/
def writeRec (s : State) (r : ERec) : State :=
  let r := { r with device := s.drv.device, job := s.glb.jobId }
  ({ s with eng := { s.eng with waiting := s.eng.waiting ++ [r] } } : State).admitRecs

/-- What the accumulators have gained since the base record began. -/
def energyFrom (base acc : List Nat) : List Nat := List.zipWith (fun a b => b - a) base acc

/-- The base record in progress closes at a time, with the accumulators and gaps of that time, and the next one starts
there (R442). Before the chain has started nothing is written and the first base record still starts at 0 (R446). -/
def closeBaseAt (s : State) (flags steps time gaps : Nat) (acc : List Nat) : State :=
  let e := s.eng
  if !e.started then s
  else
    let fl := flags + (if e.isRange then b2n e.rangeReplay + 32 * b2n e.rangeSkip else 2 * b2n (e.lowPower || s.pwr.state != 0))
    let r : ERec :=
      { kind := if e.isRange then 1 else 2, flags := fl, handle := if e.isRange then s.hci.jobHandle else 0, start := e.baseStart,
        stop := time, firstStep := if e.isRange then e.rangeFirst else 0, steps := if e.isRange then steps else 0,
        gaps := gaps - e.baseGaps, energy := energyFrom e.baseAcc acc }
    let s := writeRec s r
    { s with eng := { s.eng with baseStart := time, baseAcc := acc, baseGaps := gaps, rangeReplay := false, rangeSkip := false,
                                 lowPower := false } }

/-- The base record closes now. A step range cut short carries flag [2] and counts the steps sealed inside it (R442). -/
def closeBase (s : State) : State :=
  let e := s.eng
  let inside := (e.seals.filter fun x => e.rangeFirst ≤ x.1 && e.baseStart ≤ x.2.1).map (·.1)
  closeBaseAt s (if e.isRange then 4 else 0) inside.eraseDups.length s.board.time e.gapTotal e.acc

/-- The next base record is a step range from the step that runs first, or an interval (R442). -/
def State.baseIs (s : State) (range : Bool) (first : Nat) : State :=
  { s with eng := { s.eng with isRange := range, rangeFirst := first, rangeReplay := false, rangeSkip := false, seals := [] } }

/-- A handle record at a completion (R443): only handles outstanding for 1 ms or longer, and none while 65,536 bodies await
signature (R448). -/
def handleRecord (s : State) (h : Hnd) : State :=
  if !bitAt s.job.energyFlags 0 || s.now < h.accepted + 1000000 || !s.eng.started then s
  else if recBacklog ≤ s.eng.queue.length then
    { s with eng := { s.eng with handleDrop := satAdd 0xFFFFFFFF s.eng.handleDrop 1 } }
  else writeRec s { kind := 3, handle := h.handle, start := h.accepted, stop := s.now, gaps := h.gaps,
                    energy := h.shares.map fun f => f.1 / f.2 / 1000000 }

end Sys2Proof.Machine
end

