-- ==== Sys2Proof/Machine/HostOps.lean ====
section
/-! DEFINITION. Sessions, acknowledgements, completions and notices (R407-R415, R424), the admission of commands (R413, R418)
and changes of the module state (R416, R442). -/

namespace Sys2Proof.Machine

/-- Status codes (R410). -/
def stDone : Nat := 0x00
def stAlready : Nat := 0x01
def stAborted : Nat := 0x02
def stRefused : Nat := 0x03
def stMissed : Nat := 0x04
def stBad : Nat := 0x10
def stWrong : Nat := 0x11
def stNoRes : Nat := 0x12
def stNotPerm : Nat := 0x13
def stJobFault : Nat := 0x20
def stSig : Nat := 0x21

/-- Module state as IDENTIFY and GLB_STATE show it (R418). -/
def ModState.code : ModState → Nat
  | .off => 0 | .starting => 1 | .ready => 2 | .running => 3 | .paused => 4 | .faulted => 5

/-- The open sessions. -/
def State.openSessions (s : State) : List Nat := (s.hci.sessions.filter fun e => e.2.isOpen).map (·.1)

/-- A notice to every open session (R424). -/
def State.notify (s : State) (code old new fault device step slot epoch : Nat) : State :=
  s.sendAll (s.openSessions.map fun n => .notice n code old new fault device s.now step slot epoch)

/-! ## Changes of state -/

/-- A measurement that is due begins at once where no job runs and the islands are clocked; an entry into a power state defers it (R430,
R466). -/
def State.ageBegins (s : State) : State :=
  if s.age.due && s.pwr.state == 0 && !s.pwr.busy && s.glb.trip.isNone && !s.board.gated && s.inState [.ready, .paused, .faulted] then
    { s with age := { s.age with due := false, busy := true } }
  else s

/-- The module changes state: the base record closes (R442), the change is timed (R429) and told in a notice (R418, R424). The
first range begins with the first step that runs. -/
def State.setMode (s : State) (m : ModState) : State :=
  if s.glb.mstate = m then s
  else
    let old := s.glb.mstate
    let s := closeBase s
    let s := { s with glb := { s.glb with mstate := m, stateSince := s.board.time } }
    let s := s.modRgn 0 fun g => { g with wdogFrom := s.board.time }
    let s := (s.baseIs (m == .running) s.gov.step).ageBegins
    s.notify 0x01 old.code m.code 0 s.drv.device 0 0 0

/-! ## Completions -/

/-- A completion sent for a handle that leaves the table: a handle record (R443), the remembered status (R414), and the message
unless its session has closed, which counts (R412). -/
def State.completeOne (s : State) (h : Hnd) (status : Nat) (result : List Byte) (refuser fault : Nat) : State :=
  let s := handleRecord s h
  let s := { s with hci := { s.hci with handles := s.hci.handles.filter fun x => x.handle != h.handle } }
  if h.sess < 64 && (s.sess h.sess).isOpen then
    let x := s.sess h.sess
    let s := s.setSess h.sess { x with remembered := ((h.handle, status) :: x.remembered).take 64 }
    s.send (.completion { sess := h.sess, status := status, opcode := h.opcode, refuser := refuser, handle := h.handle, tag := h.tag,
                          fault := fault, accepted := h.accepted, completed := s.now, result := result })
  else s.count 18 32 10 1

/-- The opcode of ABORT_HANDLE. -/
def opAbortHandle : Nat := 0x7F

/-- A command completes; every abort that waited for its latch completes behind it: DONE when the abort stopped it,
ALREADY_COMPLETE with its status when its own completion came first (R419). -/
def State.finishN : Nat → State → Hnd → Nat → List Byte → Nat → Nat → State
  | 0, s, h, status, result, refuser, fault => s.completeOne h status result refuser fault
  | n + 1, s, h, status, result, refuser, fault =>
    let s := s.completeOne h status result refuser fault
    (s.hci.handles.filter fun x => x.opcode == opAbortHandle && x.arg == h.handle).foldl (fun s a =>
      let late := status != stAborted
      let s := { s with hci := { s.hci with late := satAdd 0xFFFF s.hci.late (b2n late) } }
      State.finishN n s a (if late then stAlready else stDone) (le 1 status ++ le 7 0) 0 0) s

/-- A command completes, and the aborts that waited for it. -/
def State.finish (s : State) (h : Hnd) (status : Nat) (result : List Byte := []) (refuser : Nat := 0) (fault : Nat := 0) : State :=
  State.finishN s.hci.handles.length s h status result refuser fault

/-- The outstanding command of an opcode, the oldest first. -/
def State.outstanding (s : State) (opcode : Nat) : Option Hnd := s.hci.handles.find? fun h => h.opcode == opcode

/-- Every outstanding command of an opcode completes with a status. -/
def State.finishAll (s : State) (opcode status : Nat) (fault : Nat := 0) (result : List Byte := []) : State :=
  (s.hci.handles.filter fun h => h.opcode == opcode).foldl (fun s h => s.finish h status result 0 fault) s

/-! ## The entry into a power state before its commit (R430) -/

/-- A refusal or an abort counts under its code and is the last one (R430). -/
def State.countRefusal (s : State) (code : Nat) : State :=
  { s with pwr := { s.pwr with lastRefuser := code, refuse := s.pwr.refuse.set (code - 1) (satAdd max32 (s.pwr.refuse.getD (code - 1) 0) 1) } }

/-- An entry undone: what was deferred begins, and the control port returns credits again (R430). -/
def State.entryUndone (s : State) : State :=
  ({ s with pwr := { s.pwr with busy := false, target := 0, wakeHeld := false } } : State).ageBegins.sendReturns 32 66

/-! ## Data sent for a command (R409) -/

/-- Messages of a handle sent on a lane of a port, and the blocks of them that wait marked as its own. -/
def State.sendOwned (s : State) (handle p k : Nat) (l : List Out) : State :=
  l.foldl (fun s o => (s.send o).modPort p fun x =>
    { x with txq := x.txq.map fun (f : Flit) => if f.key = k && f.own = 0 && f.via = 0 then { f with own := handle % 2 ^ 32 } else f }) s

/-- Whether blocks of a handle have not been sent by a port. -/
def State.unsent (s : State) (p handle : Nat) : Bool := (s.port p).txq.any fun f => f.own == handle % 2 ^ 32

/-- The commands whose data has gone complete, in their order. -/
def State.settleSends (s : State) : State :=
  s.hci.handles.foldl (fun s h => match h.sending with
    | some (p, _) => if s.unsent p h.handle then s else s.finish h stDone h.result
    | none => s) s

/-- Whether a slot is being shipped (R288, R290). -/
def State.shipping (s : State) : Bool := s.hci.handles.any fun h => h.opcode == 0x21 && h.sending.isSome

/-! ## Accepting a command -/

/-- Whether messages on the head lane reach the module: the control port is up and commands are served, from order 5 of a
start (R399) and in P0 (R417, R426). -/
def State.hostUp (s : State) : Bool :=
  s.board.powerGood && s.glb.mstate != .off && s.pwr.state == 0 && !s.glb.bootRom && !s.board.gated && (s.port 32).st == 2 &&
  (s.glb.mstate != .starting || 5 ≤ s.glb.order)

/-- The sequence number after `n` (R414). -/
def nextSeqNo (n : Nat) : Nat := if n = 0x3FFFFFF then 1 else n + 1

/-- Handles of a session in the table. -/
def State.outOf (s : State) (n : Nat) : Nat := (s.hci.handles.filter fun h => h.sess == n).length

/-- Whether a header is legal (R407, R408): the inline length in range and as long as the arguments, the reserved bytes 0. -/
def cmdLegal (c : Cmd) : Bool := c.inlineLen ≤ 456 && c.inlineLen == c.args.length && c.rsv == 0

/-- The answer to a command message: refused in its acknowledgement, or accepted with a handle (R408, R414). -/
def State.accept (s : State) (c : Cmd) (opcode : Nat) : State × Option Hnd :=
  let x := s.sess c.sess
  if !s.hostUp || !x.isOpen then (s, none)
  else if !cmdLegal c then (s.send (.ack c.sess stBad 0 c.tag), none)
  else if 64 ≤ s.outOf c.sess then (s.send (.ack c.sess stNoRes 0 c.tag), none)
  else
    let handle := c.sess * 2 ^ 26 + x.next
    let h : Hnd := { handle := handle, sess := c.sess, tag := c.tag, opcode := opcode, accepted := s.now }
    let s := s.setSess c.sess { x with next := nextSeqNo x.next }
    let s := { s with hci := { s.hci with handles := s.hci.handles ++ [h] } }
    (s.send (.ack c.sess 0 handle c.tag), some h)

/-- Opcodes an observer may issue (R413). -/
def observerMay (opcode : Nat) : Bool := [0x01, 0x02, 0x40, 0x50, 0x52, 0x60, 0x7F].contains opcode

/-- Opcodes admitted while STARTING (R418). -/
def startingMay (opcode : Nat) : Bool := observerMay opcode

/-- Whether the module state admits a command; what a command's own entry adds is tested by its meaning (R416, R418). -/
def State.admits (s : State) (opcode : Nat) : Bool :=
  let m := s.glb.mstate
  if m = .off then false
  else if m = .starting then startingMay opcode
  else if m = .faulted && !s.glb.job && [0x10, 0x14, 0x20, 0x51, 0x70, 0x71].contains opcode then false
  else match opcode with
    | 0x10 => m = .ready
    | 0x11 => m = .running
    | 0x12 => m = .running || m = .paused
    | 0x13 => m = .paused && !s.glb.halted
    | 0x14 => m = .paused || (m = .faulted && s.glb.job && !s.drv.restartSeen)
    | 0x21 => m != .off
    | 0x51 => m = .ready || m = .running || m = .paused
    | 0x70 => m = .ready || m = .running || m = .paused
    | _ => true

/-- The row that a command message of an opcode belongs to (R418). -/
def cmdInstr (opcode : Nat) (c : Cmd) : Instr :=
  match opcode with
  | 0x01 => .identify c
  | 0x02 => .attest c
  | 0x10 => .jobStart ⟨c, {}⟩
  | 0x11 => .jobPause c
  | 0x12 => .jobHalt c
  | 0x13 => .jobResume c
  | 0x14 => .jobAbort c
  | 0x20 => .snapshotTake c
  | 0x21 => .snapshotShip ⟨c, {}⟩
  | 0x30 => .powerState c
  | 0x40 => .readRegs c
  | 0x41 => .writeRegs c
  | 0x50 => .countersRead c
  | 0x51 => .traceArm c
  | 0x52 => .traceRead c
  | 0x60 => .energyReport c
  | 0x70 => .streamOpen c
  | 0x71 => .streamClose c
  | 0x7F => .abortHandle c
  | _ => .unlistedOpcode opcode c

/-- A command run to its end: held in P1 and P2, as the row `i` that it is; acknowledged, refused for role or state, or handed to its meaning
(R408, R413, R416, R417). -/
def State.command (s : State) (c : Cmd) (opcode : Nat) (run : State → Hnd → State) (i : Instr := cmdInstr opcode c) : State :=
  if s.heldAt 32 then s.hold i
  else match (if s.hostUp then s.taken 32 (cmdBytes opcode c) else s).accept c opcode with
  | (s, none) => s
  | (s, some h) =>
    if !(s.sess c.sess).oper && !observerMay opcode then s.finish h stNotPerm
    else if !s.admits opcode then s.finish h stWrong
    else run s h

/-- The stored handle changed. -/
def State.setHnd (s : State) (h : Hnd) : State :=
  { s with hci := { s.hci with handles := s.hci.handles.map fun x => if x.handle = h.handle then h else x } }

end Sys2Proof.Machine
end

