-- ==== Sys2Proof/Machine/Rng.lean ====
section
/-! DEFINITION. The keyed, counter-based generator (R140) and the counter of every draw (R141, R143). -/

namespace Sys2Proof.Machine

/-- Rotation of a 32-bit word to the left. -/
def rotl32 (v n : Nat) : Nat := ((v <<< n) ||| (v >>> (32 - n))) % 2 ^ 32

/-- The four words of the generator. -/
structure Quad where
  a : Nat
  b : Nat
  c : Nat
  d : Nat
  deriving DecidableEq, Repr

/-- One round of the generator (R140). -/
def rngRound (i : Nat) (q : Quad) : Quad :=
  let a := (q.a + q.c) % 2 ^ 32
  let d := rotl32 (q.d ^^^ a) 16
  let b := (q.b + d) % 2 ^ 32
  let c := rotl32 (q.c ^^^ b) 12
  let a := (a + c + i) % 2 ^ 32
  let d := rotl32 (d ^^^ a) 8
  let b := (b + d) % 2 ^ 32
  let c := rotl32 (c ^^^ b) 7
  ⟨a, b, c, d⟩

/-- 128 bits from a 64-bit key and a 64-bit counter (R140). -/
def rngBlock (key ctr : Nat) : Quad :=
  let k0 := key % 2 ^ 32
  let k1 := (key >>> 32) % 2 ^ 32
  let q := (List.range 10).foldl (fun q i => rngRound i q) ⟨ctr % 2 ^ 32, (ctr >>> 32) % 2 ^ 32, k0, k1⟩
  ⟨q.a ^^^ k0, q.b ^^^ k1, q.c, q.d⟩

/-- Word `i` of a generator block. -/
def Quad.word (q : Quad) : Nat → Nat
  | 0 => q.a | 1 => q.b | 2 => q.c | _ => q.d

/-- The counter of a draw: step number, F, block index (R141). -/
def drawCtr (step f idx : Nat) : Nat := (step % 2 ^ 22) * 2 ^ 42 + (f % 2 ^ 10) * 2 ^ 32 + idx % 2 ^ 32

/-- A random stream at one step and F: the key used and the counter's upper fields. -/
structure Stm where
  key : Nat
  step : Nat
  f : Nat
  deriving DecidableEq, Repr

/-- Generator block `idx` of a stream. -/
def Stm.block (m : Stm) (idx : Nat) : Quad := rngBlock m.key (drawCtr m.step m.f idx)

/-- Halfword `h` of a stream: the 16-bit draw of stochastic rounding (R143). -/
def Stm.half (m : Stm) (h : Nat) : Nat :=
  let w := (m.block (h / 8)).word (h % 8 / 2)
  if h % 2 = 0 then w % 65536 else w / 65536

/-- The UNIFORM draw of element `i` in units of 2^-24 (R143). -/
def Stm.uniform (m : Stm) (i : Nat) : Nat := (m.block (i / 4)).word (i % 4) / 256

/-- The two 24-bit draws u1 and u2 behind element `i` of NORMAL, in units of 2^-24 (R143). -/
def Stm.pair (m : Stm) (i : Nat) : Nat × Nat :=
  let q := m.block (i / 4)
  let p := i % 4 / 2
  (q.word (2 * p) / 256 + 1, q.word (2 * p + 1) / 256)

end Sys2Proof.Machine
end

