-- ==== Sys2Proof/Machine/Formats.lean ====
section
/-! DEFINITION. The element formats (R48-R55), scale blocks (R56-R62) and the format word (R63, R64). -/

namespace Sys2Proof.Machine

/-- What a conversion needs of a target format: width, significand bits (none for an integer), least spacing, the largest
finite value maxM × 2^maxE, and its special values. -/
structure Fmt where
  width : Nat
  prec : Option Nat
  emin : Int
  maxM : Nat
  maxE : Int
  hasInf : Bool
  hasNan : Bool
  isInt : Bool
  deriving DecidableEq, Repr

/-- The code of each element format in FMT (R63). -/
def FP32 : Nat := 0
def BF16 : Nat := 1
def FP16 : Nat := 2
def INT16 : Nat := 3
def E4M3 : Nat := 4
def E5M2 : Nat := 5
def INT8 : Nat := 6
def E2M3 : Nat := 7
def E3M2 : Nat := 8
def E2M1 : Nat := 9
def INT4 : Nat := 0xA

/-- Width in bits of an element (R48). -/
def widthOf : Nat → Nat
  | 0 => 32 | 1 => 16 | 2 => 16 | 3 => 16 | 4 => 8 | 5 => 8 | 6 => 8 | 7 => 6 | 8 => 6 | 9 => 4 | 10 => 4 | _ => 32

/-- The implicit factor's exponent of a block-scaled integer element (R60). -/
def implicitExp : Nat → Int
  | 3 => -14 | 6 => -6 | 10 => -2 | _ => 0

/-- An element format (R48-R51, R60, R67). -/
def fmtOf (code : Nat) (scaled : Bool) : Fmt :=
  match code with
  | 0 => ⟨32, some 24, -149, 2 ^ 24 - 1, 104, true, true, false⟩
  | 1 => ⟨16, some 8, -133, 2 ^ 8 - 1, 120, true, true, false⟩
  | 2 => ⟨16, some 11, -24, 2047, 5, true, true, false⟩
  | 4 => ⟨8, some 4, -9, 7, 6, false, true, false⟩
  | 5 => ⟨8, some 3, -16, 7, 13, true, true, false⟩
  | 7 => ⟨6, some 4, -3, 15, -1, false, false, false⟩
  | 8 => ⟨6, some 3, -4, 7, 2, false, false, false⟩
  | 9 => ⟨4, some 2, -1, 3, 1, false, false, false⟩
  | 3 => ⟨16, none, if scaled then -14 else 0, 32767, if scaled then -14 else 0, false, false, true⟩
  | 6 => ⟨8, none, if scaled then -6 else 0, 127, if scaled then -6 else 0, false, false, true⟩
  | 10 => ⟨4, none, if scaled then -2 else 0, 7, if scaled then -2 else 0, false, false, true⟩
  | _ => ⟨32, some 24, -149, 2 ^ 24 - 1, 104, true, true, false⟩

/-- The canonical NaN pattern (R52). -/
def nanBits : Nat → Nat
  | 0 => 0x7FC00000 | 1 => 0x7FC0 | 2 => 0x7E00 | 4 => 0x7F | 5 => 0x7E | _ => 0

/-- Exponent bits, mantissa bits and bias of a floating format (R48). -/
def floatFields : Nat → Nat × Nat × Int
  | 0 => (8, 23, 127) | 1 => (8, 7, 127) | 2 => (5, 10, 15) | 4 => (4, 3, 7) | 5 => (5, 2, 15) | 7 => (2, 3, 1)
  | 8 => (3, 2, 3) | 9 => (2, 1, 1) | _ => (8, 23, 127)

/-- The value of an element pattern before any scale (R49-R52, R60). -/
def decodeElem (code : Nat) (scaled : Bool) (w : Nat) : Number :=
  if (fmtOf code scaled).isInt then
    let i := signed (widthOf code) (w % 2 ^ widthOf code)
    .fin (i < 0) i.natAbs (if scaled then implicitExp code else 0)
  else
    let (eb, mb, bias) := floatFields code
    let s := bitAt w (eb + mb)
    let ex := (w >>> mb) % 2 ^ eb
    let ma := w % 2 ^ mb
    if (fmtOf code scaled).hasInf && ex = 2 ^ eb - 1 then (if ma = 0 then .inf s else .nan)
    else if code = 4 && ex = 15 && ma = 7 then .nan
    else decodeFin eb mb bias w

/-- The value of an element of a scale block: 2^(x-127) × v; under 0x00 a signed zero, under 0xFF NaN (R56, R57, R60). -/
def decodeScaled (code x w : Nat) : Number :=
  if x = 0xFF then .nan
  else
    match decodeElem code true w with
    | .fin s m e => if x = 0 || m = 0 then .fin s 0 0 else .fin s m (e + x - 127)
    | v => if x = 0 then .fin v.sign 0 0 else v

/-- The pattern of a representable number (R48, R51, R52). -/
def encodeElem (code : Nat) (scaled : Bool) (v : Number) : Nat :=
  let w := widthOf code
  match v with
  | .nan => nanBits code
  | .inf s =>
    let (eb, mb, _) := floatFields code
    b2n s * 2 ^ (w - 1) + (2 ^ eb - 1) * 2 ^ mb
  | .fin s m e =>
    if (fmtOf code scaled).isInt then
      let u := roundUnits .rne m e (fmtOf code scaled).emin
      unsigned w (if s then -(u : Int) else u)
    else
      let (eb, mb, bias) := floatFields code
      b2n s * 2 ^ (w - 1) + encodeFin eb mb bias m e

/-! ## The format word -/

def fwFmt (w : Nat) : Nat := field w 3 0
def fwBsz (w : Nat) : Nat := field w 6 4
def fwOvf (w : Nat) : Bool := bitAt w 7
def fwRnd (w : Nat) : Nat := field w 9 8

/-- Elements of a scale block: 0 for an unscaled format (R63). -/
def bszElems : Nat → Nat
  | 1 => 16 | 2 => 32 | 3 => 64 | 4 => 128 | _ => 0

def fwBlock (w : Nat) : Nat := bszElems (fwBsz w)
def fwScaled (w : Nat) : Bool := fwBsz w != 0
def fwWidth (w : Nat) : Nat := widthOf (fwFmt w)

/-- A legal format word (R63, R64). -/
def fwLegal (w : Nat) : Bool :=
  w < 1024 && fwRnd w < 2 && fwFmt w ≤ 0xA && fwBsz w ≤ 4 &&
  (if fwFmt w ≤ 2 then fwBsz w == 0 else if fwFmt w ≥ 7 then fwBsz w != 0 else true) &&
  (!fwOvf w || fwFmt w ≤ 2 || fwFmt w == 5)

/-- The format word with another element format and block size. -/
def fwWith (w fmt bsz : Nat) : Nat := (w / 128) * 128 + bsz * 16 + fmt

/-- Width class as an array operand; 0 for FP32, which is none (R54). -/
def widthClass : Nat → Nat
  | 10 => 4 | 9 => 4 | 6 => 8 | 4 => 8 | 5 => 8 | 1 => 8 | 3 => 16 | 2 => 16 | 7 => 8 | 8 => 8 | _ => 0

end Sys2Proof.Machine
end

