-- ==== Sys2Proof/Machine/Convert.lean ====
section
/-! DEFINITION. Conversion of a scale block's worth of values (R65-R73), and the acceptance check of data from outside
(R58). -/

namespace Sys2Proof.Machine

/-- Outcome flags of a converted scale block, in the order of R73. -/
inductive Flag where
  | nanBlock | zeroBlock | fullySat | collapsed | saturated | clean
  deriving DecidableEq, Repr

/-- What a conversion delivers: the scale byte, the elements' bits with poison, and the counts of R73. `amax` is a finite
number. -/
structure Conv where
  scale : Nat
  elems : List (Nat × Bool)
  amax : Number
  values : Nat
  zero : Nat
  sat : Nat
  rz : Nat
  nan : Nat
  inf : Nat
  flag : Flag
  deriving DecidableEq, Repr

/-- The largest magnitude among the finite values, held in FP32 (R66). -/
def amaxOf (src : List Val) : Number :=
  src.foldl (fun a v =>
    if v.pois then a
    else match v.num with
      | .fin _ m e =>
        let x : Number := if cmpMag m e (2 ^ 24 - 1) 104 == .gt then .fin false (2 ^ 24 - 1) 104 else .fin false m e
        if a.lt x then x else a
      | _ => a) .zero

/-- Whether a magnitude reaches the saturation threshold of the format: its rounding to nearest even with an exponent
unbounded above exceeds MAXF (R67). -/
def saturates (f : Fmt) (m : Nat) (e : Int) : Bool :=
  let (u, q) := roundMag .rne f.prec f.emin m e
  cmpMag u q f.maxM f.maxE == .gt

/-- The smallest exponent from `e` on at which m × 2^k does not saturate. -/
def leastScale (f : Fmt) (m : Nat) (k : Int) : Nat → Int → Int
  | 0, e => e
  | n + 1, e => if saturates f m (k - e) then leastScale f m k n (e + 1) else e

/-- The scale from maximum, as an exponent (R68). -/
def scaleFromMax (f : Fmt) (amax : Number) : Int :=
  match amax with
  | .fin _ m e =>
    if m = 0 then 127
    else
      let e0 := (Nat.log2 m : Int) + e - ((Nat.log2 f.maxM : Int) + f.maxE) - 2
      Max.max (-126) (Min.min 127 (leastScale f m e 6 e0))
  | _ => 127

/-- One element's conversion at scale 2^e (the last loop of R65): bits, whether it saturated, whether it rounded to zero. -/
def convElem (fw : Nat) (rnd : Rnd) (e : Int) (v : Val) : Nat × Bool × Bool :=
  let code := fwFmt fw
  let sc := fwScaled fw
  let f := fmtOf code sc
  let top (s : Bool) : Number := .fin s f.maxM f.maxE
  if v.pois then (encodeElem code sc (.fin v.num.sign 0 0), false, false)
  else match v.num with
    | .nan => (if f.hasNan then nanBits code else 0, false, false)
    | .inf s => if f.hasInf then (encodeElem code sc (.inf s), false, false) else (encodeElem code sc (top s), true, false)
    | .fin s m k =>
      if m = 0 then (encodeElem code sc (.fin s 0 0), false, false)
      else
        let (u, q) := roundMag rnd f.prec f.emin m (k - e)
        if cmpMag u q f.maxM f.maxE == .gt then
          (encodeElem code sc (if fwOvf fw then .inf s else top s), true, false)
        else (encodeElem code sc (.fin s u q), false, u == 0)

/-- The flag of R73 from the scale written and the counts over finite nonzero sources. -/
def flagOf (fw scale fnz satFin rz sat : Nat) : Flag :=
  if fwScaled fw && scale = 0xFF then .nanBlock
  else if fwScaled fw && scale = 0 then .zeroBlock
  else if fnz > 0 && satFin = fnz then .fullySat
  else if fnz > 0 && rz = fnz then .collapsed
  else if sat > 0 then .saturated
  else .clean

/-- Whether a value is a finite nonzero source. -/
def Val.fnz (v : Val) : Bool :=
  !v.pois && match v.num with
    | .fin _ m _ => m != 0
    | _ => false

/-- The conversion of R65. `draw i` is the 16-bit draw of element `i` when the format word rounds stochastically (R76); `big i` says that
a source behind element `i` was clamped at the vector unit's read, which counts the element as saturated, once (R73, R130, log 91); `part`
that the values are only some of a scale block's, which therefore keeps an imposed scale though all of them are zero, and counts as a zero
block for this owner all the same (DESIGN CHOICE, log 29). -/
def convertBlock (fw : Nat) (scaleIn : Option Nat) (draw : Nat → Nat) (src : List Val) (big : Nat → Bool := fun _ => false)
    (part : Bool := false) : Conv :=
  let f := fmtOf (fwFmt fw) (fwScaled fw)
  let live := src.filter fun v => !v.pois
  let nan := (live.filter fun v => v.num.isNan).length
  let inf := (live.filter fun v => v.num.isInf).length
  let zeros := (live.filter fun v => v.num.isZero).length
  let amax := amaxOf src
  let n := live.length
  let bigs := (src.zipIdx.filter fun (v, i) => !v.pois && big i).length
  if fwScaled fw && nan > 0 && !f.hasNan then
    ⟨0xFF, src.map fun v => (0, v.pois), amax, n, zeros, bigs, 0, nan, inf, .nanBlock⟩
  else if fwScaled fw && zeros = n then
    let x := match scaleIn with
      | some p => if part then Max.max 1 (Min.min 0xFE p) else 0x00
      | none => 0x00
    ⟨x, src.map fun v => (encodeElem (fwFmt fw) true (.fin v.num.sign 0 0), v.pois), amax, n, zeros, bigs, 0, nan, inf, .zeroBlock⟩
  else
    let e : Int :=
      if !fwScaled fw then 0
      else match scaleIn with
        | some x => Max.max (-126) (Min.min 127 ((x : Int) - 127))
        | none => scaleFromMax f amax
    let rnd (i : Nat) : Rnd := if fwRnd fw = 1 then .sto (draw i) else .rne
    let done := src.zipIdx.map fun (v, i) =>
      let r := convElem fw (rnd i) e v
      (v, r.1, r.2.1 || (!v.pois && big i), r.2.2)
    let sat := (done.filter fun d => d.2.2.1).length
    let rz := (done.filter fun d => d.2.2.2).length
    let fnz := (done.filter fun d => d.1.fnz).length
    let satFin := (done.filter fun d => d.1.fnz && d.2.2.1).length
    let scale := (e + 127).toNat
    ⟨scale, done.map fun d => (d.2.1, d.1.pois), amax, n, zeros, sat, rz, nan, inf, flagOf fw scale fnz satFin rz sat⟩

/-- The acceptance check of R58 on one scale block: scale and elements as stored, and how many elements became zero. -/
def acceptBlock (code x : Nat) (elems : List Nat) : Nat × List Nat × Nat :=
  let nonzero := elems.any fun w => !(decodeElem code true w).isZero
  if x = 0 && nonzero then
    let f := fmtOf code true
    let half := elems.map fun w =>
      match decodeElem code true w with
      | .fin s m e =>
        if m = 0 then (w, false)
        else
          let (u, q) := roundMag .rne f.prec f.emin m (e - 1)
          (encodeElem code true (.fin s u q), u == 0)
      | _ => (w, false)
    (1, half.map (·.1), (half.filter (·.2)).length)
  else (x, elems, 0)

end Sys2Proof.Machine
end

