-- ==== Sys2Proof/Machine/Tally.lean ====
section
/-! DEFINITION. Tally statistics: the record of R152, its histogram (R153), merging (R155), and the scale-plan entry
(R154, R159). -/

namespace Sys2Proof.Machine

/-- Directions of a key: forward, backward, update (R152). -/
def dirFwd : Nat := 0
def dirBwd : Nat := 1
def dirUpd : Nat := 2

/-- The key (layer, role, direction) as a number. -/
def tallyKey (layer role dir : Nat) : Nat := layer * 32 + role * 4 + dir

def max40 : Nat := 2 ^ 40 - 1

/-- Position of the leading bit of a finite nonzero number: floor of log2 of its magnitude. -/
def Number.log2 : Number → Int
  | .fin _ m e => (Nat.log2 m : Int) + e
  | _ => 0

/-- The exponent bin of a finite nonzero value in a block whose largest magnitude is `a` (R153). -/
def binOf (a v : Number) : Nat := (Min.min 31 (a.log2 - v.log2)).toNat

/-- Counts added bin by bin, saturating. -/
def addHist (h k : List Nat) : List Nat := List.zipWith (satAdd max40) h k

/-- The histogram of one conversion block. -/
def histOf (amax : Number) (src : List Val) : List Nat :=
  let bins := (src.filter Val.fnz).map fun v => binOf amax v.num
  (List.range 32).map fun b => (bins.filter fun x => x == b).length

/-- The record of one converted block (R73, R152). -/
def recOf (c : Conv) (src : List Val) : TallyRec :=
  let f (x : Flag) : Nat := b2n (c.flag == x)
  { liveBlk := b2n (c.flag != .nanBlock && c.flag != .zeroBlock), zeroBlk := f .zeroBlock, nanBlk := f .nanBlock,
    satBlk := f .saturated, fullBlk := f .fullySat, colBlk := f .collapsed, values := c.values, zero := c.zero,
    sat := c.sat, rz := c.rz, nan := c.nan, inf := c.inf, amax := enc32 c.amax, hist := histOf c.amax src }

/-- Two records merged under the Merge column of R152. -/
def TallyRec.merge (a b : TallyRec) : TallyRec :=
  { liveBlk := satAdd max40 a.liveBlk b.liveBlk, zeroBlk := satAdd max40 a.zeroBlk b.zeroBlk,
    nanBlk := satAdd max32 a.nanBlk b.nanBlk, satBlk := satAdd max32 a.satBlk b.satBlk,
    fullBlk := satAdd max32 a.fullBlk b.fullBlk, colBlk := satAdd max32 a.colBlk b.colBlk,
    values := satAdd max48 a.values b.values, zero := satAdd max48 a.zero b.zero, sat := satAdd max40 a.sat b.sat,
    rz := satAdd max40 a.rz b.rz, nan := satAdd max32 a.nan b.nan, inf := satAdd max32 a.inf b.inf,
    amax := Max.max a.amax b.amax, hist := addHist a.hist b.hist, lost := satAdd max40 a.lost b.lost }

/-- A record merged into a table of records. -/
def addRec (k : Nat) (r : TallyRec) (m : Map TallyRec) : Map TallyRec := adjust {} k (·.merge r) m

/-- The scale-plan entry of a block written with imposed scale `p` and scale from maximum `s`: (REPLAY_SC, NEXT_SC)
(R159). -/
def planEntry (flag : Flag) (s p : Nat) : Nat × Nat :=
  match flag with
  | .nanBlock | .zeroBlock => (p, p)
  | .fullySat | .collapsed => (s, s)
  | .saturated => (s, Min.min (p + 1) 0xFE)
  | .clean => (p, Max.max s (p - 1))

end Sys2Proof.Machine
end

