-- ==== Sys2Proof/Machine/Tensor.lean ====
section
/-! DEFINITION. Tensors: where the elements, scales and plan entries of a descriptor lie (R246, R247, R249, R250, R260), how
they are read and written with their poison (R34, R533), and the conversion of results into a destination (R125, R154,
R159). -/

namespace Sys2Proof.Machine

/-- No owner, no metadata tensor, no master (R243). -/
def none20 : Nat := 0xFFFFF

/-! ## Geometry of a descriptor -/

def Desc.w (d : Desc) : Nat := fwWidth d.fmtw
def Desc.bs (d : Desc) : Nat := fwBlock d.fmtw
def Desc.e (d : Desc) (i : Nat) : Nat := d.ext.getD i 1
def Desc.st (d : Desc) (i : Nat) : Nat := d.str.getD i 0

/-- Product of a list. -/
def prod (l : List Nat) : Nat := l.foldl (· * ·) 1

/-- Elements of a tensor. -/
def Desc.count (d : Desc) : Nat := prod d.ext

/-- The extents that count toward scale blocks: a dimension with stride 0 counts as extent 1 (R247). -/
def Desc.scExt (d : Desc) : List Nat := [1, 2, 3, 4, 5].map fun i => if d.st i = 0 then 1 else d.e i

/-- Scale blocks of a tensor (R252). -/
def Desc.nScale (d : Desc) : Nat := if d.bs = 0 then 0 else d.e 0 / d.bs * prod d.scExt

/-- Length in bytes of the data range (R252). -/
def Desc.dataLen (d : Desc) : Nat :=
  ceilDiv ((if d.b0 then 1 else d.e 0) * d.w) 8 + ([1, 2, 3, 4, 5].map fun i => (d.e i - 1) * d.st i).sum

/-- The outermost dimension used by REP: the highest-numbered one whose extent is not 1 (R249). -/
def Desc.outer (d : Desc) : Nat := ([5, 4, 3, 2, 1, 0].find? fun i => d.e i != 1).getD 0

/-- Whether a descriptor broadcasts (R248). -/
def Desc.broadcasts (d : Desc) : Bool := d.b0 || [1, 2, 3, 4, 5].any fun i => d.e i > 1 && d.st i == 0

/-- Whether entries of a scale plan lie beside the tensor (R154, R244). -/
def Desc.planned (d : Desc) : Bool := d.pbase != 0 && d.bs != 0

/-- The index vector of the n-th element over some extents, dimension 0 fastest. -/
def coords : List Nat → Nat → List Nat
  | [], _ => []
  | e :: r, n => if e = 0 then 0 :: coords r n else n % e :: coords r (n / e)

/-- The linear index of an index vector over some extents, dimension 0 fastest. -/
def linear : List Nat → List Nat → Nat
  | e :: r, i :: j => i + e * linear r j
  | _, _ => 0

/-- A tensor as one access sees it: its descriptor, the offset of the copy accessed (R250), and the slice that REP takes
(R123). -/
structure View where
  t : Nat
  d : Desc
  off : Nat := 0
  rep : Option Nat := none
  deriving DecidableEq, Repr

/-- The extents of a view. -/
def View.ext (v : View) : List Nat :=
  match v.rep with
  | none => v.d.ext
  | some _ => v.d.ext.set v.d.outer 1

/-- Elements of a view. -/
def View.count (v : View) : Nat := prod v.ext

/-- The outermost dimension of what a view shows: the highest-numbered one whose extent there is not 1 (R203, R249). -/
def View.outer (v : View) : Nat := ([5, 4, 3, 2, 1, 0].find? fun i => v.ext.getD i 1 != 1).getD 0

/-- Rows of a view along its outermost dimension, and the elements of one (R203). -/
def View.rows (v : View) : Nat := v.ext.getD v.outer 1

def View.rowSize (v : View) : Nat := v.count / Nat.max 1 v.rows

/-- The index vector of element `n` of a view in the whole tensor. -/
def View.index (v : View) (n : Nat) : List Nat :=
  match v.rep with
  | none => coords v.d.ext n
  | some r => (coords v.ext n).set v.d.outer r

/-- Elements of the unit in which a tensor's writes are noted: a scale block, or 16 elements of an unscaled one, which is the smallest
scale block it could take (R173). -/
def Desc.unit (d : Desc) : Nat := if d.bs = 0 then 16 else d.bs

/-- Scale block of an index vector (R247); of an unscaled tensor the group of 16 elements. -/
def Desc.scaleIdx (d : Desc) (i : List Nat) : Nat :=
  let j := [1, 2, 3, 4, 5].map fun k => if d.st k = 0 then 0 else i.getD k 0
  i.getD 0 0 / d.unit + ceilDiv (d.e 0) d.unit * linear d.scExt j

/-- Byte and bit of an element of a tensor held whole in one place (R246). -/
def Desc.byteBit (d : Desc) (i : List Nat) : Nat × Nat :=
  let a := d.base + ([1, 2, 3, 4, 5].map fun k => i.getD k 0 * d.st k).sum
  let bit := if d.b0 then 0 else i.getD 0 0 * d.w
  (a + bit / 8, bit % 8)

/-- Elements of a granule of 1 MiB: those of the layout at load, which a change of format leaves together (R260, R534). -/
def Desc.granuleElems (d : Desc) : Nat := 2 ^ 23 / (if d.gw = 0 then d.w else d.gw)

/-- Granules of a tensor. -/
def Desc.granules (d : Desc) : Nat := ceilDiv d.count d.granuleElems

/-- Bytes from one owned granule to the next: 1 MiB, or what its elements take at a width wider than that at load (R260, R534, log 127). -/
def Desc.granuleStep (d : Desc) : Nat := Nat.max (2 ^ 20) (d.granuleElems * d.w / 8)

/-- The owner device named for granule `g`: in a job with tier 2 the flock number replaces bits [15:8] (R260). -/
def State.granuleOwner (s : State) (owner g : Nat) : Nat :=
  let dev := (look [] owner s.job.owners).getD g 0xFFFF
  if s.job.flock.flocks > 1 then s.drv.device / 256 * 256 + dev % 256 else dev

/-- The rank of granule `g` among those this module owns; none where it does not own it (R260). -/
def State.granuleRank (s : State) (owner g : Nat) : Option Nat :=
  if s.granuleOwner owner g = s.drv.device then
    some ((List.range g).filter fun k => s.granuleOwner owner k == s.drv.device).length
  else none

/-- The owned ranges of a tensor in dense order: (first, count), one for each granule this module owns; all of an undistributed
tensor. -/
def State.ownedRanges (s : State) (d : Desc) : List (Nat × Nat) :=
  if d.owner = none20 then [(0, d.count)]
  else (List.range d.granules).filterMap fun g =>
    if s.granuleOwner d.owner g = s.drv.device then
      some (g * d.granuleElems, Min.min d.granuleElems (d.count - g * d.granuleElems))
    else none

/-- Elements of a tensor that this module owns. -/
def State.ownedCount (s : State) (d : Desc) : Nat := ((s.ownedRanges d).map (·.2)).sum

/-- Scale blocks of a tensor that stand in this module (R252, R260). -/
def State.scales (s : State) (d : Desc) : Nat :=
  if d.owner = none20 then d.nScale else if d.bs = 0 then 0 else s.ownedCount d / d.bs

/-- Where an element and its scale byte lie; none where a granule of this module does not hold it (R246, R247, R253, R260). `block` numbers
the scale blocks that stand in this module, in the order of their scale bytes and of their plan entries (R154); groups of 16 elements of an
unscaled tensor. -/
structure Spot where
  byte : Nat
  bit : Nat
  scale : Nat
  block : Nat
  deriving DecidableEq, Repr

/-- The place of the element at an index vector. -/
def State.spotAt (s : State) (d : Desc) (off : Nat) (i : List Nat) : Option Spot :=
  if d.owner = none20 then
    let sc := d.scaleIdx i
    let (a, b) := d.byteBit i
    some ⟨a + off, b, d.sbase + off + sc, sc⟩
  else
    let e := linear d.ext i
    let r := e % d.granuleElems
    match s.granuleRank d.owner (e / d.granuleElems) with
    | none => none
    | some k =>
      let blk := (k * d.granuleElems + r) / d.unit
      some ⟨d.base + k * d.granuleStep + r * d.w / 8 + off, r * d.w % 8, d.sbase + blk + off, blk⟩

/-! ## Bytes and poison of a place -/

/-- A memory-space address in the frames: block address times 256 plus the byte (R332, R333). -/
def State.phys (s : State) (a : Nat) : Nat :=
  let p := look {} (a / 2 ^ 21) s.mem.pages
  (p.ctl * 2 ^ 28 + p.frame * 2 ^ 13 + a % 2 ^ 21 / 256) * 256 + a % 256

/-- A byte of a tensor's tier (R252, R259). -/
def State.tByte (s : State) (d : Desc) (a : Nat) : Byte :=
  if d.tier = 0 then readByte (s.blk d.block).store a else readByte s.mem.data (s.phys a)

/-- Whether the storage word or memory block of a byte is poisoned (R533). -/
def State.tPois (s : State) (d : Desc) (a : Nat) : Bool :=
  if d.tier = 0 then (s.blk d.block).storePoison.contains (a / 8) else s.mem.poison.contains (s.phys a / 256)

/-- `w` bits from a byte and bit. -/
def State.tBits (s : State) (d : Desc) (byte bit w : Nat) : Nat :=
  let n := (bit + w + 7) / 8
  (ofLe ((List.range n).map fun k => s.tByte d (byte + k)) >>> bit) % 2 ^ w

/-- Whether any word that `w` bits touch is poisoned. -/
def State.tBitsPois (s : State) (d : Desc) (byte bit w : Nat) : Bool :=
  (List.range ((bit + w + 7) / 8)).any fun k => s.tPois d (byte + k)

/-- One byte stored. -/
def State.tStore (s : State) (d : Desc) (a : Nat) (v : Byte) : State :=
  if d.tier = 0 then s.modBlk d.block fun b => { b with store := writeByte b.store a v }
  else { s with mem := { s.mem with data := writeByte s.mem.data (s.phys a) v } }

/-- `w` bits stored from a byte and bit, the neighbours kept. -/
def State.tStoreBits (s : State) (d : Desc) (byte bit w v : Nat) : State :=
  let n := (bit + w + 7) / 8
  let old := ofLe ((List.range n).map fun k => s.tByte d (byte + k))
  let new := old - ((old >>> bit) % 2 ^ w) * 2 ^ bit + (v % 2 ^ w) * 2 ^ bit
  (le n new).zipIdx.foldl (fun s (b, k) => s.tStore d (byte + k) b) s

/-- One piece of a write: a byte, a bit, a width, the bits and whether the value is poisoned. -/
structure Piece where
  byte : Nat
  bit : Nat
  w : Nat
  v : Nat
  pois : Bool
  deriving DecidableEq, Repr

/-- The storage unit of a byte: a 64-bit word of a block store, a 256-byte block of a device (R533). -/
def State.unitOf (s : State) (d : Desc) (a : Nat) : Nat := if d.tier = 0 then a / 8 else s.phys a / 256

/-- Bits of a storage unit. -/
def unitBits (d : Desc) : Nat := if d.tier = 0 then 64 else 2048

/-- What a write does to each storage unit: bits it covers, and whether any value it stores is poisoned. -/
def State.cover (s : State) (d : Desc) (ps : List Piece) : Map (Nat × Bool) :=
  ps.foldl (fun m p =>
    (List.range ((p.bit + p.w + 7) / 8)).foldl (fun m k =>
      let lo := if k = 0 then p.bit else 0
      let hi := Min.min 8 (p.bit + p.w - 8 * k)
      adjust (0, false) (s.unitOf d (p.byte + k)) (fun (n, q) => (n + (hi - lo), q || p.pois)) m) m) []

/-- A unit's poison after one write: poisoned by any poisoned value, clean when clean data covers all of it (R533). -/
def State.setUnit (s : State) (d : Desc) (u : Nat) (covered : Nat) (pois : Bool) : State :=
  let f (l : List Nat) : List Nat :=
    if pois then insertN u l else if unitBits d ≤ covered then eraseN u l else l
  if d.tier = 0 then s.modBlk d.block fun b => { b with storePoison := f b.storePoison }
  else { s with mem := { s.mem with poison := f s.mem.poison } }

/-- Blocks of the memory devices written by one write, counted per controller: MEM_WR_BLOCKS, and MEM_RMW where a block is
not wholly covered or is added into (R336, R351; one write of an engine counts each block once, log 12). -/
def State.countMemWrites (s : State) (m : Map (Nat × Bool)) (adds : Bool) : State :=
  m.foldl (fun s (u, n, _) =>
    let c := u / 2 ^ 28
    (s.count 17 c 1 1).count 17 c 2 (b2n (adds || n < 2048))) s

/-- One write, or atomic adds: every piece stored, then the poison of every unit it touched (R336, R533). -/
def State.writePieces (s : State) (d : Desc) (ps : List Piece) (adds : Bool := false) : State :=
  let m := s.cover d ps
  let s1 := ps.foldl (fun s p => s.tStoreBits d p.byte p.bit p.w p.v) s
  let s2 := m.foldl (fun s (u, n, q) => s.setUnit d u n q) s1
  if d.tier = 0 then s2 else s2.countMemWrites m adds

/-- The memory blocks that some bytes lie in. -/
def State.memBlocks (s : State) (bytes : List Nat) : List Nat :=
  bytes.foldl (fun l a => insertN (s.phys a / 256) l) []

/-! ## Views -/

/-- The cached descriptor's copies: the live one at the offset the live-copy bit selects, the staging one at the other
(R250). -/
def TensorRt.offset (x : TensorRt) (staging : Bool) : Nat := if x.live != staging then x.desc.stgoff else 0

/-- The live copy of tensor `t`. -/
def State.liveView (s : State) (t : Nat) (rep : Option Nat := none) : View :=
  let x := s.ten t
  { t := t, d := x.desc, off := x.offset false, rep := rep }

/-- The copy a write goes to: the staging copy with SPEC, else the live copy (R250). -/
def State.destView (s : State) (t : Nat) (spec : Bool) (rep : Option Nat := none) : View :=
  let x := s.ten t
  { t := t, d := x.desc, off := x.offset spec, rep := rep }

/-- The place of element `n` of a view. -/
def State.spot (s : State) (v : View) (n : Nat) : Option Spot := s.spotAt v.d v.off (v.index n)

/-- An element as stored: its bits, its scale byte (0 for an unscaled format), whether it reads poisoned, from its own word or from its
scale's, and whether the scale byte itself does (R34, R533). -/
structure RawEl where
  bits : Nat := 0
  scale : Nat := 0
  pois : Bool := false
  scalePois : Bool := false
  deriving DecidableEq, Repr

/-- The element of a view at an index vector of the whole tensor. -/
def State.rawAt (s : State) (v : View) (i : List Nat) : RawEl :=
  match s.spotAt v.d v.off i with
  | none => { pois := true, scalePois := true }
  | some p =>
    let bits := s.tBits v.d p.byte p.bit v.d.w
    let q := s.tBitsPois v.d p.byte p.bit v.d.w
    if v.d.bs = 0 then { bits := bits, pois := q }
    else
      let qs := s.tPois v.d p.scale
      { bits := bits, scale := (s.tByte v.d p.scale).toNat, pois := q || qs, scalePois := qs }

/-- Element `n` of a view as stored. -/
def State.rawEl (s : State) (v : View) (n : Nat) : RawEl := s.rawAt v (v.index n)

/-- The bits, the scale byte and the poison of element `n`. -/
def State.rawElem (s : State) (v : View) (n : Nat) : Nat × Nat × Bool :=
  let x := s.rawEl v n
  (x.bits, x.scale, x.pois)

/-- The value of an element (R60). -/
def elemVal (d : Desc) (bits sc : Nat) : Number :=
  if d.bs = 0 then decodeElem (fwFmt d.fmtw) false bits else decodeScaled (fwFmt d.fmtw) sc bits

/-- The exact value of element `n` of a view. -/
def State.elem (s : State) (v : View) (n : Nat) : Val :=
  let (bits, sc, q) := s.rawElem v n
  ⟨elemVal v.d bits sc, q⟩

/-- The values of a view in element order, dimension 0 fastest. -/
def State.readView (s : State) (v : View) : List Val := (List.range v.count).map fun n => s.elem v n

/-- A value as the vector unit reads it: beyond FP32 range the largest finite of its sign (R130). -/
def clamp32 (x : Number) : Number :=
  match x with
  | .fin sg m e => if cmpMag m e (2 ^ 24 - 1) 104 == .gt then .fin sg (2 ^ 24 - 1) 104 else x
  | _ => x

/-- A value as the vector unit reads it (R130). -/
def Val.clamp (x : Val) : Val := { x with num := clamp32 x.num }

/-- A value that the vector unit's read clamps, and that counts as saturated: one beyond FP32 range, and not poisoned (R66, R130). -/
def Val.big (x : Val) : Bool := !x.pois && clamp32 x.num != x.num

/-- The values of a view as the vector unit reads them (R130). -/
def State.readVec (s : State) (v : View) : List Val := (s.readView v).map Val.clamp

/-- Which values of a view the vector unit's read clamps (R130). -/
def State.bigs (s : State) (v : View) : List Bool := (s.readView v).map Val.big

/-! ## Plan entries -/

/-- A value of a plan entry with its poison, which stands above its 8 bits (R34, R533). -/
def planVal (v : Nat) (pois : Bool) : Nat := v % 256 + 256 * b2n pois

/-- The 8 bits of a plan value. -/
def planByte (n : Nat) : Nat := n % 256

/-- Whether a plan value is poisoned. -/
def planPois (n : Nat) : Bool := 256 ≤ n

/-- The plan entry of a scale block in one copy: (REPLAY_SC, NEXT_SC), each with the poison of its word or block (R154, R533). -/
def State.planAt (s : State) (d : Desc) (off blk : Nat) : Nat × Nat :=
  let a := d.pbase + off + 2 * blk
  (planVal (s.tByte d (a + 1)).toNat (s.tPois d (a + 1)), planVal (s.tByte d a).toNat (s.tPois d a))

/-- What writing a plan entry stores. -/
def planPieces (d : Desc) (off blk : Nat) (e : Nat × Nat) : List Piece :=
  let a := d.pbase + off + 2 * blk
  [⟨a, 0, 8, planByte e.2, planPois e.2⟩, ⟨a + 1, 0, 8, planByte e.1, planPois e.1⟩]

/-- The plan entry of a scale block written. -/
def State.setPlan (s : State) (d : Desc) (off blk : Nat) (e : Nat × Nat) : State := s.writePieces d (planPieces d off blk e)

/-- The plan entries of some scale blocks, from block 0 on, written in one write. -/
def State.setPlans (s : State) (d : Desc) (off : Nat) (l : List (Nat × Nat)) : State :=
  s.writePieces d (l.zipIdx.flatMap fun (e, b) => planPieces d off b e)

/-! ## Results into a destination -/

/-- How a write chooses its scales: from the maximum, from the plan, or from the REPLAY_SC of a discarded execution
(R154, R161, R169). -/
inductive Impose where
  | fromMax | plan | replay
  deriving DecidableEq, Repr

/-- The context of a write: how scales are chosen, the rounding stream with the draw index of element 0, and which elements come from
sources clamped at the read (R130). -/
structure WCtx where
  impose : Impose := .fromMax
  stm : Option Stm := none
  base : Nat := 0
  seed : Nat := 0
  big : List Bool := []
  /-- the values are some of a shared scale block's (log 29) -/
  part : Bool := false
  /-- elements that the write leaves as they stand and does not count (R274) -/
  skip : List Nat := []
  deriving DecidableEq, Repr

/-- The 16-bit draw of element `n`; a free value where the manual names no stream (log 25). -/
def WCtx.draw (c : WCtx) (n : Nat) : Nat :=
  match c.stm with
  | some m => m.half (c.base + n)
  | none => Config.free c.seed n % 65536

/-- The scale imposed on a block and its plan value, as in force when the pass first writes it (R154, R160, R161). -/
def State.inForce (s : State) (v : View) (c : WCtx) (blk : Nat) : Nat × Nat :=
  let x := s.ten v.t
  match find? blk x.force with
  | some p => p
  | none =>
    let live := s.planAt v.d (x.offset false) blk
    match c.impose with
    | .replay => (live.1, live.2)
    | _ => (live.2, live.2)

/-- The values of a destination cut into conversion blocks: scale blocks, or everything one instruction writes (R65). -/
def blocksOf (d : Desc) (vals : List Val) : List (List Val) := if d.bs = 0 then [vals] else pieces d.bs vals

/-- One converted block of a destination: the first element's number, its scale block, the imposed scale and its plan value where one is,
each with its poison, and the conversion. -/
structure Done where
  first : Nat
  blk : Nat
  imposed : Option (Nat × Nat)
  conv : Conv
  src : List Val
  deriving Repr

/-- The scale that a part of a shared block keeps where no plan imposes one: the one that stands there, unless it is 0x00 and everything of
the block is zero (R57; log 29). -/
def State.standing (s : State) (v : View) (c : WCtx) (first : Nat) : Option Nat :=
  if !c.part || v.d.bs = 0 then none
  else (s.spot v first).bind fun p => let x := (s.tByte v.d p.scale).toNat; if x = 0 then none else some x

/-- Every block of a run of a destination's elements, from element `off`, converted (R65, R125). -/
def State.convertAll (s : State) (v : View) (c : WCtx) (off : Nat) (vals : List Val) : List Done :=
  let step := if v.d.bs = 0 then 0 else v.d.bs
  (blocksOf v.d vals).zipIdx.map fun (src, k) =>
    let first := off + k * step
    let blk := match s.spot v first with
      | some p => p.block
      | none => 0
    let imposed := if c.impose != .fromMax && v.d.planned then some (s.inForce v c blk) else none
    ⟨first, blk, imposed,
      convertBlock v.d.fmtw ((imposed.map fun p => planByte p.1).or (s.standing v c first)) (fun i => c.draw (first + i)) src (fun i => c.big.getD (k * step + i) false) c.part,
      src⟩

/-- Whether the scale imposed on a block is poisoned: what is converted under it is poisoned with it (R34). -/
def Done.poisoned (x : Done) : Bool := match x.imposed with
  | some p => planPois p.1
  | none => false

/-- The pieces a converted block stores: its elements but those skipped, and its scale byte, which stays clean (R66) unless a poisoned plan
value imposed it (R34). -/
def State.donePieces (s : State) (v : View) (x : Done) (skip : List Nat := []) : List Piece :=
  let els := x.conv.elems.zipIdx.filterMap fun ((bits, q), i) =>
    if skip.contains (x.first + i) then none
    else (s.spot v (x.first + i)).map fun p => (⟨p.byte, p.bit, v.d.w, bits, q || x.poisoned⟩ : Piece)
  if v.d.bs = 0 then els
  else match s.spot v x.first with
    | some p => els ++ [⟨p.scale, 0, 8, x.conv.scale, x.poisoned⟩]
    | none => els

/-- The plan entry a governed write leaves for a block (R154, R159), and the block's place in the pass. -/
def State.planDone (s : State) (v : View) (x : Done) : State :=
  match x.imposed with
  | none => s
  | some (p, old) =>
    let p' := Max.max 1 (Min.min 0xFE (planByte p))
    let f := fmtOf (fwFmt v.d.fmtw) true
    let sm := (scaleFromMax f x.conv.amax + 127).toNat
    let e := planEntry x.conv.flag sm p'
    let s := s.setPlan v.d v.off x.blk (planVal e.1 (planPois p), planVal e.2 (planPois p))
    s.modTen v.t fun r => { r with force := put x.blk (p, old) r.force }

/-- A block marked as written by the pass, and its groups of 16 elements as written since load (R160, R173). -/
def State.markWritten (s : State) (t blk : Nat) : State :=
  s.modTen t fun r =>
    let k := r.desc.unit / 16
    { r with written := insertN blk r.written, ever := (List.range k).foldl (fun l j => insertN (blk * k + j) l) r.ever }

/-- The blocks that a run of elements of a view lies in, each once. -/
def State.blocksIn (s : State) (v : View) (off n : Nat) : List Nat :=
  (List.range n).foldl (fun l k => match s.spot v (off + k) with
    | some p => insertN p.block l
    | none => l) []

/-- The Tally record of everything one instruction writes into a destination (R152). -/
def tallyOf (l : List Done) : TallyRec := l.foldl (fun r x => r.merge (recOf x.conv x.src)) {}

/-- Results written into a run of a destination's elements: converted block by block, stored in one write, plan entries made.
Answers the state and the statistics of everything converted. -/
def State.writeRun (s : State) (v : View) (c : WCtx) (off : Nat) (vals : List Val) : State × TallyRec :=
  let l := s.convertAll v c off vals
  let s1 := s.writePieces v.d (l.flatMap fun x => s.donePieces v x c.skip)
  let s2 := l.foldl (fun s x => s.planDone v x) s1
  ((s.blocksIn v off vals.length).foldl (fun s b => s.markWritten v.t b) s2, tallyOf l)

/-- Results written into a whole destination. -/
def State.writeView (s : State) (v : View) (c : WCtx) (vals : List Val) : State × TallyRec := s.writeRun v c 0 vals

/-- Bits written as they are from element `off` on: elements and scale bytes, each with its poison (R204, R255, R533). Where elements from
several scale blocks meet in one, it takes the scale byte of the first (DESIGN CHOICE, log 162). -/
def State.writeRaw (s : State) (v : View) (off : Nat) (elems : List RawEl) : State :=
  let ps := elems.zipIdx.flatMap fun (x, k) =>
    let n := off + k
    match s.spot v n with
    | none => []
    | some p =>
      let e : Piece := ⟨p.byte, p.bit, v.d.w, x.bits, x.pois⟩
      if v.d.bs != 0 && n % v.d.bs = 0 then [e, ⟨p.scale, 0, 8, x.scale, x.scalePois⟩] else [e]
  let s1 := s.writePieces v.d ps
  (s.blocksIn v off elems.length).foldl (fun s b => s.markWritten v.t b) s1

/-! ## Changes of format and size (R173, R534) -/

/-- The top binade of a block-scaled format (R173). -/
def topBinade : Nat → Int
  | 9 => 2 | 7 => 2 | 8 => 4 | 4 => 8 | 5 => 15 | _ => 0

/-- Pairs of plan values merged to the larger, poisoned where either is (R34). -/
def mergePairs : List Nat → List Nat
  | a :: b :: r => planVal (Nat.max (planByte a) (planByte b)) (planPois a || planPois b) :: mergePairs r
  | l => l

/-- A plan between two sizes, one allowed size being 2^k times another: values doubled or merged, again and again (R173). -/
def resizePlan (f : List Nat → List Nat) : Nat → List Nat → List Nat
  | 0, l => l
  | n + 1, l => resizePlan f n (f l)

/-- The plan values of a block-scaled tensor under another block-scaled word (R173). -/
def shiftPlan (old fw : Nat) (plan : List Nat) : List Nat :=
  let shift := topBinade (fwFmt old) - topBinade (fwFmt fw)
  let moved := plan.map fun (p : Nat) => planVal (Max.max 1 (Min.min 0xFE ((planByte p : Int) + shift))).toNat (planPois p)
  let ro := Nat.log2 (fwBlock old)
  let rn := Nat.log2 (fwBlock fw)
  if rn < ro then resizePlan (fun l => l.flatMap fun p => [p, p]) (ro - rn) moved else resizePlan mergePairs (rn - ro) moved

/-- The first elements of the runs of `b` elements that stand in this module, in the order of their scale blocks. -/
def State.blockFirsts (s : State) (d : Desc) (b : Nat) : List Nat :=
  (s.ownedRanges d).flatMap fun (a, n) => (List.range (n / b)).map fun k => a + k * b

/-- The plan of an unscaled tensor that takes a block-scaled word: the scale from maximum of what each block holds in the live copy, and
INIT_SC for a block never written since load (R173). -/
def State.planFromData (s : State) (t fw initSc : Nat) : List Nat :=
  let v := s.liveView t
  let f := fmtOf (fwFmt fw) true
  let b := fwBlock fw
  let loaded := (look ({} : TEntry) t s.job.tensors).contents.isSome
  (s.blockFirsts v.d b).map fun n =>
    let ns := (List.range b).map (n + ·)
    let touched := loaded || ns.any fun m => match s.spot v m with
      | some p => (s.ten t).ever.contains p.block
      | none => false
    if touched then (scaleFromMax f (amaxOf (ns.map (s.elem v))) + 127).toNat else initSc

/-- The plan of a tensor led through one more format word (R173). -/
def State.planStep (s : State) (t initSc : Nat) (x : Nat × List Nat) (fw : Nat) : Nat × List Nat :=
  (fw, if fwBlock fw = 0 then [] else if fwBlock x.1 = 0 then s.planFromData t fw initSc else shiftPlan x.1 fw x.2)

/-- One of the two values of every plan entry of a tensor's live copy. -/
def State.planValues (s : State) (t : Nat) (f : Nat × Nat → Nat) : List Nat :=
  let x := s.ten t
  if x.desc.planned then (List.range (s.scales x.desc)).map fun b => f (s.planAt x.desc (x.offset false) b) else []

/-- A governed tensor that waits for its next write, from a step on, to take a new layout takes it now: its plan, and with it what a rerun
would impose, is rebuilt from what the tensor holds (R173, R534). -/
def State.settle (s : State) (t n : Nat) : State :=
  let x := s.ten t
  match x.later with
  | none => s
  | some r =>
    if n < r.step then s
    else
      let plan (f : Nat × Nat → Nat) : List Nat := (r.words.foldl (s.planStep t r.initSc) (x.desc.fmtw, s.planValues t f)).2
      let entries := (plan (·.1)).zip (plan (·.2))
      let s := s.setTen t { x with desc := r.desc, later := none, took := some r, force := [], written := [] }
      let offs := if r.desc.stgoff = 0 then [0] else [0, r.desc.stgoff]
      if r.desc.planned then offs.foldl (fun s off => s.setPlans r.desc off entries) s else s

/-- A view of only +0 written: an accumulator cleared (R138). -/
def State.clearView (s : State) (v : View) : State :=
  (s.writeView v {} (List.replicate v.count Val.zero)).1

end Sys2Proof.Machine
end

