-- ==== Sys2Proof/Machine/MemOps.lean ====
section
/-! DEFINITION. What every engine does with the memory devices: block reads under their CRC (R338-R341), residence and use of
pages (R261-R263, R333), and frames taken and freed (R334, R347). -/

namespace Sys2Proof.Machine

/-- Frames of a stack and data frames of a package (R331). -/
def hbmFrames : Nat := 18432
def lpFrames : Nat := 32256

/-- Controllers 0 to 15 are stacks, 16 to 23 packages (R331). -/
def isHbm (ctl : Nat) : Bool := ctl < 16

/-- A block address taken apart (R332). -/
def baCtl (b : Nat) : Nat := b / 2 ^ 28
def baFrame (b : Nat) : Nat := b / 2 ^ 13 % 2 ^ 15
def baBlock (b : Nat) : Nat := b % 2 ^ 13

/-- The metadata block of a package's data block (R340). -/
def metaBlock (b : Nat) : Nat :=
  let m := (baFrame b * 8192 + baBlock b) / 63
  baCtl b * 2 ^ 28 + (32256 + m / 8192) * 2 ^ 13 + m % 8192

/-- How often a fetch of a block fails its CRC, as the upsets of the access say. -/
def crcFails (ups : Upsets) (b : Nat) : Nat := (ups.crc.filter fun x => x.1 == b).foldl (fun n x => n + x.2) 0

/-- How often a write of a block is reported as failed, and whether its retries are exhausted (R342). -/
def wrDead (ups : Upsets) (b : Nat) : Bool := 4 ≤ (ups.wr.filter fun x => x.1 == b).foldl (fun n x => n + x.2) 0

/-! ## What the devices hold beside the data (R338-R340): formed from the data, since nothing else can write it -/

/-- The 256 data bytes of a block. -/
def State.blockBytes (s : State) (b : Nat) : List Byte := (List.range 256).map fun k => readByte s.mem.data (b * 256 + k)

/-- The CRC of a block's data and address (R338). -/
def State.blockCrc (s : State) (b : Nat) : Nat := crc32c (s.blockBytes b ++ le 8 b)

/-- The CRC stored with a block: inverted where the block is poisoned (R338). -/
def State.storedCrc (s : State) (b : Nat) : Nat := if s.mem.poison.contains b then s.blockCrc b ^^^ 0xFFFFFFFF else s.blockCrc b

/-- The metadata on the ECC pins of an HBM3E block: the stored CRC, then zeros (R339). -/
def State.hbmMeta (s : State) (b : Nat) : List Byte := le 4 (s.storedCrc b) ++ le 28 0

/-- The bytes of metadata block `m` of a package's controller: the CRCs of its 63 data blocks, then its own (R340). -/
def State.lpMeta (s : State) (ctl m : Nat) : List Byte :=
  let body := (List.range 63).flatMap fun k => le 4 (s.storedCrc (ctl * 2 ^ 28 + 63 * m + k))
  body ++ le 4 (crc32c (body ++ le 8 (ctl * 2 ^ 28 + (32256 + m / 8192) * 2 ^ 13 + m % 8192)))

/-- What a fetch of a block that its link did not disturb gives: none where the stored CRC fits neither way (R341). -/
def State.readState (s : State) (b : Nat) : Option Bool :=
  if s.storedCrc b = s.blockCrc b then some false
  else if s.storedCrc b = s.blockCrc b ^^^ 0xFFFFFFFF then some true
  else none

/-- CRC_EXHAUST detail of a block (R341). -/
def crcDetail (b : Nat) : Nat :=
  if isHbm (baCtl b) then 0x01 else if baFrame b < lpFrames then 0x02 else 0x03

/-- A mismatch shown in MEM_CRC_LAST and MEM_CRC_ADDR (R350). -/
def State.crcShown (s : State) (b result : Nat) : State :=
  { s with mem := { s.mem with crcValid := true, crcCtl := baCtl b, crcResult := result, crcFrame := baFrame b,
                               crcBlock := baBlock b } }

/-- A write that failed again after its third retry (R342). -/
def State.writeExhaust (s : State) (b : Nat) : State := raise s (faultCode 3 CRC_EXHAUST 0x04) (srcMem (baCtl b)) b

/-- One block fetched with up to three re-reads (R341): the state, and whether the fetches were exhausted. -/
def State.fetch (s : State) (ups : Upsets) (b : Nat) : State × Bool :=
  let n := crcFails ups b
  let c := baCtl b
  if n = 0 then (s, false)
  else if n < 4 then (((s.count 17 c 3 n).count 17 c 4 (b2n !(s.mem.poison.contains b))).crcShown b n, false)
  else
    let s := (s.count 17 c 3 4).crcShown b 0xFF
    (raise s (faultCode 3 CRC_EXHAUST (crcDetail b)) (srcMem c) b, true)

/-- Metadata blocks that an LPDDR5X controller keeps (R340). -/
def metaSlots : Nat := 1024

/-- Whether the CRC of a block is at hand: in HBM3E it comes with the block, in a package its metadata block must stand in the cache (R340). -/
def State.metaHit (s : State) (b : Nat) : Bool := isHbm (baCtl b) || (look [] (baCtl b) s.mem.metas).contains (metaBlock b)

/-- A package's metadata block enters its controller's cache; a full cache gives up one, which the manual leaves open (R340, log 18). -/
def State.cacheMeta (s : State) (b : Nat) : State :=
  let l := look [] (baCtl b) s.mem.metas
  let l := if l.length < metaSlots then l else l.eraseIdx (Config.free s.fresh 0 % metaSlots)
  { s with fresh := s.fresh + 1, mem := { s.mem with metas := put (baCtl b) (l ++ [metaBlock b]) s.mem.metas } }

/-- What a read or a write of a block does with its metadata: a miss of the cache counts and reads the metadata block under its own CRC
(R340, R341). -/
def State.touchMeta (s : State) (ups : Upsets) (b : Nat) : State × Bool :=
  if s.metaHit b then (s, false)
  else
    let (s, bad) := (s.count 17 (baCtl b) 6 1).fetch ups (metaBlock b)
    (if bad then s else s.cacheMeta b, bad)

/-- One block read (R341): a package's metadata block is checked first; a poisoned block is delivered and counts. -/
def State.readBlock (s : State) (ups : Upsets) (b : Nat) : State × Bool :=
  let c := baCtl b
  let (s, bad) := (s.count 17 c 0 1).touchMeta ups b
  if bad then (s, true)
  else
    let (s, bad) := s.fetch ups b
    (s.count 17 c 5 (b2n (!bad && s.mem.poison.contains b)), bad)

/-- Blocks read in order until one is exhausted. -/
def State.readBlocks (s : State) (ups : Upsets) : List Nat → State × Bool
  | [] => (s, false)
  | b :: r =>
    let (s, bad) := s.readBlock ups b
    if bad then (s, true) else s.readBlocks ups r

/-- Blocks written in order until one fails for good: each with its metadata at hand (R340, R342). -/
def State.writeBlocks (s : State) (ups : Upsets) : List Nat → State × Bool
  | [] => (s, false)
  | b :: r =>
    let (s, bad) := s.touchMeta ups b
    if bad then (s, true)
    else if wrDead ups b then (s.writeExhaust b, true)
    else (s.count 17 (baCtl b) 1 1).writeBlocks ups r

/-- Whether the fetches of a block's metadata, where a miss makes them, are exhausted by the upsets. -/
def State.metaDead (s : State) (ups : Upsets) (b : Nat) : Bool := !s.metaHit b && 4 ≤ crcFails ups (metaBlock b)

/-- Whether a block's fetches, or those of its metadata, are exhausted by the upsets. -/
def State.crcDead (s : State) (ups : Upsets) (b : Nat) : Bool := 4 ≤ crcFails ups b || s.metaDead ups b

/-- The memory blocks that some bytes cover wholly. -/
def State.wholeBlocks (s : State) (bytes : List Nat) : List Nat :=
  let l := bytes.eraseDups
  (s.memBlocks l).filter fun b => 256 ≤ (l.filter fun a => s.phys a / 256 == b).length

/-! ## Pages -/

def State.page (s : State) (p : Nat) : Page := look {} p s.mem.pages

def State.setPage (s : State) (p : Nat) (x : Page) : State := { s with mem := { s.mem with pages := put p x s.mem.pages } }

/-- A page that an engine may access where it lies: in HBM3E, or pinned to LPDDR5X (R261). -/
def Page.resident (x : Page) : Bool := !x.lp || x.pin

/-- The time unit of the last use (R262). -/
def useTime (s : State) : Nat := s.board.time / 2 ^ 20

/-- A page used: its last access, on a migratable page (R262). -/
def State.usePage (s : State) (p : Nat) : State :=
  if (s.page p).pin then s else { s with mem := { s.mem with lastUse := put p (useTime s) s.mem.lastUse } }

/-- A write to a page under eviction aborts the eviction; it counts in the region whose stack keeps the page (R263). -/
def State.abortEviction (s : State) (p : Nat) : State :=
  match s.mem.moves.find? fun m => m.page == p && !m.up with
  | none => s
  | some m =>
    let s := { s with mem := { s.mem with moves := s.mem.moves.filter fun x => !(x.page == p && !x.up) } }
    let s := s.setPage p { (s.page p) with moving := false }
    s.count 9 m.region 2 1

/-- A request for a page of the memory packages, shared by everything stalled on it (R263). -/
def State.requestPage (s : State) (p region : Nat) : State :=
  if (s.mem.requests.any fun r => r.page == p) || (s.mem.moves.any fun m => m.page == p && m.up) then s
  else { s with mem := { s.mem with requests := s.mem.requests ++ [{ page := p, region := region, since := s.board.time }] } }

/-! ## Frames -/

/-- Frames of LPDDR5X that do not back the memory space: the record area and the snapshot slots (R347). -/
def State.lpReserved (s : State) (frame : Nat) : Bool := 32192 - 2 * (s.job.snapFrames / 8) ≤ frame

/-- Frames of the spill area (R432). -/
def State.spillFrame (s : State) (frame : Nat) : Bool := !s.job.retain && 15 ≤ frame && frame ≤ 70

/-- The frames in use: those of mapped pages and of moves under way, as (controller, frame). -/
def State.framesUsed (s : State) : List (Nat × Nat) :=
  (s.mem.pages.filterMap fun e => if e.2.mapped then some (e.2.ctl, e.2.frame) else none) ++
  s.mem.moves.map (fun m => (m.ctl, m.frame)) ++ s.mem.reserved

/-- Whether a frame may back the memory space and is free. -/
def State.frameFree (s : State) (used : List (Nat × Nat)) (ctl frame : Nat) : Bool :=
  (if isHbm ctl then frame < hbmFrames && !s.spillFrame frame else frame < lpFrames && !s.lpReserved frame) &&
  !used.contains (ctl, frame)

/-- The lowest free frame of a device from `f` on, looking at most `n` further. -/
def State.lowFrame (s : State) (used : List (Nat × Nat)) (ctl : Nat) : Nat → Nat → Option Nat
  | 0, _ => none
  | n + 1, f => if s.frameFree used ctl f then some f else s.lowFrame used ctl n (f + 1)

/-- The lowest free frame of a device: the used and the spill frames bound the search (R334). -/
def State.freeFrame (s : State) (ctl : Nat) : Option Nat :=
  let used := s.framesUsed
  s.lowFrame used ctl (used.length + 57) 0

/-- The first device of a list with a free frame. -/
def State.firstFrame (s : State) (ctls : List Nat) : Option (Nat × Nat) :=
  ctls.findSome? fun c => (s.freeFrame c).map fun f => (c, f)

/-- The stacks, or the packages, of a region. -/
def regionCtls (hbm : Bool) (r : Nat) : List Nat := if hbm then (List.range 4).map (4 * r + ·) else (List.range 2).map (16 + 2 * r + ·)

/-- The devices for page `p` in the order of R334. -/
def homeOrder (hbm : Bool) (p : Nat) : List Nat :=
  let r := p % 4
  let home := if hbm then 4 * r + p / 4 % 4 else 16 + 2 * r + p / 4 % 2
  let own := (regionCtls hbm r).filter (· != home)
  let others := ((List.range 4).filter (· != r)).flatMap (regionCtls hbm)
  home :: own ++ others

/-- The stacks for an up-migration: the requesting region's first, then any (R262). -/
def upOrder (region : Nat) : List Nat := regionCtls true region ++ ((List.range 4).filter (· != region)).flatMap (regionCtls true)

/-- Free frames of the stacks and of the packages (R350). -/
def State.freeHbm (s : State) : Nat :=
  let total := 16 * hbmFrames - (if s.job.retain || !s.job.loaded then 0 else 16 * 56)
  total - (s.framesUsed.filter fun f => isHbm f.1).length

def State.freeLp (s : State) : Nat :=
  8 * lpFrames - 512 - 2 * s.job.snapFrames - (s.framesUsed.filter fun f => !isHbm f.1).length

/-! ## Accesses of an engine -/

/-- What stops an engine before an access: a page not resident (R266), a block whose fetches or writes are exhausted (R341, R342), an
illegal index, with the poisoned ones read before it in its unit (R206, R207), an access outside its allocation or to a granule not owned (R253). -/
inductive Bar where
  | page (p : Nat)
  | crc (b : Nat)
  | crcMeta (b : Nat)
  | write (b : Nat)
  | index (pos detail before : Nat)
  | bounds (t detail : Nat)
  deriving DecidableEq, Repr

/-- Elements of a delivery unit of a destination (R265). -/
def unitSize (d : Desc) : Nat := if d.bs = 0 then 1 else d.bs

/-- A delivery unit (R265): memory addresses it reads and writes, whether it is delivered at all, whether it adds into what it writes (R336),
and a bar of its own. -/
structure XUnit where
  reads : List Nat := []
  writes : List Nat := []
  counts : Bool := true
  adds : Bool := false
  bar : Option Bar := none

/-- The bytes of an element and of its scale in the memory space, and whether all lie in the allocation (R252, R253). -/
def State.touch (s : State) (v : View) (n : Nat) : List Nat × Option Bar :=
  match s.spot v n with
  | none => ([], some (.bounds v.t 0x03))
  | some p =>
    let bytes := (List.range ((p.bit + v.d.w + 7) / 8)).map (p.byte + ·)
    let all := if v.d.bs = 0 then bytes else bytes ++ [p.scale]
    if all.any fun a => a < v.d.abase || v.d.abase + v.d.alen ≤ a then ([], some (.bounds v.t 0x02))
    else if v.d.tier = 0 then ([], none)
    else if all.any fun a => !(s.page (a / 2 ^ 21)).mapped then ([], some (.bounds v.t 0x02))
    else (all, none)

/-- The two bytes of a plan entry, in the memory space, and whether both lie in the allocation (R154, R252, R253). -/
def State.planTouch (s : State) (v : View) (blk : Nat) : List Nat × Option Bar :=
  let a := v.d.pbase + v.off + 2 * blk
  if a < v.d.abase || v.d.abase + v.d.alen ≤ a + 1 then ([], some (.bounds v.t 0x02))
  else if v.d.tier = 0 then ([], none)
  else if !(s.page (a / 2 ^ 21)).mapped then ([], some (.bounds v.t 0x02))
  else ([a, a + 1], none)

/-- A unit joined with the plan entries of some scale blocks of a view that it reads or writes. -/
def State.joinPlanBlocks (s : State) (u : XUnit) (v : View) (blks : List Nat) (rd wr : Bool) : XUnit :=
  if !v.d.planned then u
  else blks.foldl (fun u b =>
    let (l, bar) := s.planTouch v b
    { u with reads := if rd then u.reads ++ l else u.reads, writes := if wr then u.writes ++ l else u.writes, bar := u.bar <|> bar }) u

/-- A unit joined with the plan entries of the scale blocks that some elements of a view lie in (R154). -/
def State.joinPlans (s : State) (u : XUnit) (v : View) (ns : List Nat) (rd wr : Bool) : XUnit :=
  s.joinPlanBlocks u v (ns.filterMap fun n => (s.spot v n).map (·.block)).eraseDups rd wr

/-- A unit joined with the elements of a view it reads or writes. -/
def State.joinUnit (s : State) (u : XUnit) (v : View) (ns : List Nat) (write : Bool) : XUnit :=
  ns.foldl (fun u n =>
    let (l, b) := s.touch v n
    let u := if write then { u with writes := u.writes ++ l } else { u with reads := u.reads ++ l }
    { u with bar := u.bar <|> b }) u

/-- The blocks among those that some bytes lie in that the write of them does not read first: those that the access it belongs to covers
wholly (R336). -/
def State.unreadBlocks (s : State) (u : XUnit) : List Nat := if u.adds then [] else s.wholeBlocks u.writes

/-- What bars a unit now; `whole` are blocks that the access it is part of covers. -/
def State.barOf (s : State) (ups : Upsets) (u : XUnit) (whole : List Nat := s.unreadBlocks u) : Option Bar :=
  match u.bar with
  | some b => some b
  | none =>
    match (u.reads ++ u.writes).find? fun a => !(s.page (a / 2 ^ 21)).resident with
    | some a => some (.page (a / 2 ^ 21))
    | none =>
      let ws := s.memBlocks u.writes
      match (s.memBlocks u.reads ++ ws.filter fun b => !(whole.contains b)).find? (s.crcDead ups) with
      | some b => some (.crc b)
      | none => match ws.find? (s.metaDead ups) with
        | some b => some (.crcMeta b)
        | none => (ws.find? (wrDead ups)).map Bar.write

/-- What a bar that is no page does to an engine's access: a job fault (R253, R341, R342). -/
def State.barFault (s : State) (ups : Upsets) (level src : Nat) : Bar → State
  | .crc b => (s.readBlock ups b).1
  | .crcMeta b => (s.touchMeta ups b).1
  | .write b => s.writeExhaust b
  | .bounds t detail =>
    raise s (faultCode level DESC_BOUNDS detail) src t
  | _ => s

/-- The memory side of accesses made: pages used, evictions aborted by writes, blocks read under their CRCs, those among them that a write
covers only in part or adds into, and the metadata of every block written (R262, R263, R336, R340, R341). -/
def State.useMemory (s : State) (ups : Upsets) (reads writes : List Nat) (adds : Bool := false) : State :=
  let s := (((reads ++ writes).map (· / 2 ^ 21)).eraseDups).foldl State.usePage s
  let s := ((writes.map (· / 2 ^ 21)).eraseDups).foldl State.abortEviction s
  let ws := s.memBlocks writes
  let whole := if adds then [] else s.wholeBlocks writes
  let s := (s.readBlocks ups (s.memBlocks reads)).1
  let s := (s.readBlocks ups (ws.filter fun b => !(whole.contains b))).1
  ws.foldl (fun s b => (s.touchMeta ups b).1) s

/-- The memory side of a unit. -/
def State.useUnit (s : State) (ups : Upsets) (u : XUnit) : State := s.useMemory ups u.reads u.writes u.adds

/-- What a tensor reads and writes as it takes a new layout at the write of a step: its old plan, and what it holds where the plan is formed
from that; its new plan in both copies (R173, R534). Nothing where no layout waits. -/
def State.settleUnit (s : State) (t n : Nat) : XUnit :=
  let x := s.ten t
  match x.later with
  | none => {}
  | some r =>
    if n < r.step then {}
    else
      let v := s.liveView t
      let u := s.joinPlanBlocks {} v (List.range (s.scales x.desc)) true false
      let u := if v.d.bs = 0 && fwBlock r.desc.fmtw != 0 then
          s.joinUnit u v ((s.ownedRanges v.d).flatMap fun (a, k) => (List.range k).map (a + ·)) false
        else u
      (if r.desc.stgoff = 0 then [0] else [0, r.desc.stgoff]).foldl (fun u off =>
        s.joinPlanBlocks u { t := t, d := r.desc, off := off } (List.range (s.scales r.desc)) false true) u

/-- What bars a tensor from taking the layout that waits for it. -/
def State.settleBar (s : State) (ups : Upsets) (t n : Nat) : Option Bar := s.barOf ups (s.settleUnit t n)

/-- A tensor takes the layout that waits for it, with what that does in the memory devices. -/
def State.settleNow (s : State) (ups : Upsets) (t n : Nat) : State := (s.useUnit ups (s.settleUnit t n)).settle t n

/-- The detail of a bar that is an access outside an allocation, or to a granule not owned. -/
def Bar.stray : Bar → Option Nat
  | .bounds _ d => some d
  | _ => none

/-- The elements of a view, and with `plans` the plan entries of its scale blocks, that lie outside its allocation or in a granule not owned:
the detail of the first (R253). -/
def State.strayIn (s : State) (v : View) (plans : Bool := false) : Option Nat :=
  ((List.range v.count).findSome? fun n => (s.touch v n).2.bind Bar.stray).or
    (if plans then (s.joinPlans {} v (List.range v.count) false true).bar.bind Bar.stray else none)

end Sys2Proof.Machine
end

