-- ==== Sys2Proof/Machine/Program.lean ====
section
/-! DEFINITION. Stage programs as they run: positions in program order (R120, R134), operand references (R123), the
operands an instruction reads and writes, conflicts, units (R124) and the buffers of a pair (R282). -/

namespace Sys2Proof.Machine

/-! ## Opcodes (R124) -/

def opMma : Nat := 0x01
def opConv : Nat := 0x02
def opVec : Nat := 0x10
def opNorm : Nat := 0x11
def opSoftmax : Nat := 0x12
def opReduce : Nat := 0x13
def opGather : Nat := 0x20
def opScatter : Nat := 0x21
def opRoute : Nat := 0x22
def opQuant : Nat := 0x30
def opDequant : Nat := 0x31
def opRng : Nat := 0x40
def opLoss : Nat := 0x41
def opSend : Nat := 0x50
def opRecv : Nat := 0x51
def opSeal : Nat := 0x60

/-- Kinds of an operand reference (R123). -/
def kTensor : Nat := 1
def kQueue : Nat := 2
def kSlot : Nat := 3
def kStream : Nat := 4

def OpRef.isT (r : OpRef) : Bool := r.kind == 1
def OpRef.isQ (r : OpRef) : Bool := r.kind == 2
def OpRef.isS (r : OpRef) : Bool := r.kind == 3
def OpRef.isX (r : OpRef) : Bool := r.kind == 4
def OpRef.isNone (r : OpRef) : Bool := r.kind == 0
def OpRef.rot (r : OpRef) : Bool := bitAt r.value 27
def OpRef.rep (r : OpRef) : Bool := bitAt r.value 26
def OpRef.tensor (r : OpRef) : Nat := field r.value 19 0
def OpRef.queue (r : OpRef) : Nat := field r.value 17 0
def OpRef.slot (r : OpRef) : Nat := field r.value 3 0
def OpRef.stream (r : OpRef) : Nat := field r.value 11 0

/-- The TENSOR_TABLE indices a reference names: both slots with ROT (R123). -/
def OpRef.slots (r : OpRef) : List Nat := if !r.isT then [] else if r.rot then [r.tensor, r.tensor + 1] else [r.tensor]

/-- The destinations an instruction writes: DST, and the gate weights of ROUTE in SRC_C (R126). -/
def IWord.dsts (i : IWord) : List OpRef := (if i.op = opRoute then [i.srcC] else []) ++ [i.dst]

/-- The tensors an instruction writes. -/
def IWord.dests (i : IWord) : List Nat := i.dsts.flatMap OpRef.slots

def IWord.isSealLayer (i : IWord) : Bool := i.op == opSeal && i.var == 1
def IWord.isSealStep (i : IWord) : Bool := i.op == opSeal && i.var == 2
def IWord.isSend (i : IWord) : Bool := i.op == opSend
def IWord.isRecv (i : IWord) : Bool := i.op == opRecv

/-- The four units of a block. -/
inductive Unit4 where
  | array | vector | transfer | issue
  deriving DecidableEq, Repr

/-- The unit that runs an instruction (R124). -/
def IWord.unit (i : IWord) : Unit4 :=
  if i.op = opMma || i.op = opConv then .array
  else if i.op = opSeal then .issue
  else if i.op = opGather || i.op = opScatter || i.op = opSend || i.op = opRecv || (i.op = opVec && i.var = 0) then .transfer
  else .vector

/-! ## Positions -/

/-- Index of SEAL LAYER: the length of the body (R120). -/
def Stage.body (g : Stage) : Nat := g.prog.findIdx IWord.isSealLayer

/-- Instructions of one step in program order: the body once for each repeat, SEAL LAYER, the tail (R120). -/
def Stage.total (g : Stage) : Nat := g.repeats * g.body + (g.prog.length - g.body)

/-- The instruction index and the repeat number of a position. The seal and the tail have the last repeat number
(DEDUCED, log 10). -/
def Stage.locate (g : Stage) (p : Nat) : Nat × Nat :=
  let n := g.repeats * g.body
  if p < n then (p % g.body, p / g.body) else (g.body + (p - n), g.repeats - 1)

/-- The instruction at a position. -/
def Stage.instr? (g : Stage) (p : Nat) : Option IWord := g.prog[(g.locate p).1]?

/-- Position of SEAL LAYER. -/
def Stage.sealPos (g : Stage) : Nat := g.repeats * g.body

def State.stages (s : State) (b : Nat) : List Stage := look [] b s.job.stages

def State.stage? (s : State) (b i : Nat) : Option Stage := (s.stages b).find? fun g => g.idx == i

def Block.run (b : Block) (i : Nat) : StageRun := look {} i b.stages

def State.run (s : State) (b i : Nat) : StageRun := (s.blk b).run i

def State.setRun (s : State) (b i : Nat) (r : StageRun) : State :=
  s.modBlk b fun x => { x with stages := put i r x.stages }

def State.modRun (s : State) (b i : Nat) (f : StageRun → StageRun) : State := s.setRun b i (f (s.run b i))

/-- Whether the instruction at a position has completed. -/
def StageRun.done (r : StageRun) (p : Nat) : Bool := p < r.oldest || r.doneAt.contains p

/-- The oldest position not completed after the completions recorded; `fuel` bounds the search. -/
def settleOldest (doneAt : List Nat) : Nat → Nat → Nat
  | 0, o => o
  | f + 1, o => if doneAt.contains o then settleOldest doneAt f (o + 1) else o

/-- A run with one more position completed (R134). At the end of its program the stage rests (R120). -/
def StageRun.complete (r : StageRun) (g : Stage) (p : Nat) : StageRun :=
  let d := if r.done p then r.doneAt else r.doneAt ++ [p]
  let o := settleOldest d d.length r.oldest
  { r with oldest := o, doneAt := d.filter fun x => o ≤ x, atRest := o ≥ g.total }

/-- The positions in the issue window: the 8 oldest instructions that have not completed (R134 condition 1). -/
def StageRun.window (r : StageRun) (g : Stage) : List Nat :=
  (((List.range (r.doneAt.length + 9)).map (r.oldest + ·)).filter fun p => p < g.total && !r.done p).take 8

/-- A layer sequence position's layer on a block (R148); a block that lists no sequence runs every layer it hosts. -/
def State.liveLayer (s : State) (b : Nat) : Option Nat :=
  let q := (look {} b s.job.rblocks).seq
  if q.length ≤ 1 then none else q[(s.blk b).pos % q.length]?

/-! ## Operands -/

/-- Whether tensor `t` heads a buffer pair (R282). -/
def State.isPair (s : State) (t : Nat) : Bool := (look {} t s.job.tensors).pairHead

/-- The buffer that work on step `n` reads: L when the step before it has its verdict, 1 - L while it awaits it (R282). -/
def State.bufFor (s : State) (n : Nat) : Nat := if n ≤ s.gov.step then s.upd.live else 1 - s.upd.live

/-- A tensor reference resolved: the entry used and the REP slice (R123, R282). -/
structure TRef where
  t : Nat
  rep : Option Nat := none
  deriving DecidableEq, Repr

/-- The tensor an operand reference names in repeat `r` of step `n` (R123). -/
def State.tref (s : State) (o : OpRef) (r n : Nat) : TRef :=
  let i := o.tensor + (if o.rot then r % 2 else 0)
  let i := if s.isPair i then i + s.bufFor n else i
  { t := i, rep := if o.rep then some r else none }

/-- Something an instruction reads or writes, as conflicts compare it (R134 condition 2). -/
inductive Acc where
  | t (r : TRef)
  | slot (n : Nat)
  | q (n : Nat)
  deriving DecidableEq, Repr

/-- Whether two accesses name the same operand: tensor slots and slices, scalar slots, queues. -/
def Acc.meets : Acc → Acc → Bool
  | .t a, .t b => a.t == b.t && (a.rep.isNone || b.rep.isNone || a.rep == b.rep)
  | .slot a, .slot b => a == b
  | .q a, .q b => a == b
  | _, _ => false

/-- What an operand reference accesses. -/
def State.acc (s : State) (o : OpRef) (r n : Nat) : List Acc :=
  if o.isT then [.t (s.tref o r n)] else if o.isS then [.slot o.slot] else if o.isQ then [.q o.queue] else []

/-- The operands an instruction reads. -/
def State.readsOf (s : State) (i : IWord) (r n : Nat) : List Acc :=
  if i.op = opSeal then []
  else
    let a := s.acc i.srcA r n
    let b := s.acc i.srcB r n
    let c := if i.op = opRoute || i.op = opLoss then [] else s.acc i.srcC r n
    (if i.isRecv then [] else a) ++ b ++ c ++ (if i.acc then s.acc i.dst r n else [])

/-- The operands an instruction writes; a queue counts as written by both SEND and RECV. -/
def State.writesOf (s : State) (i : IWord) (r n : Nat) : List Acc :=
  if i.op = opSeal then []
  else
    let d := s.acc i.dst r n
    let c := if i.op = opRoute || i.op = opLoss then s.acc i.srcC r n else []
    (if i.isRecv then s.acc i.srcA r n else []) ++ d ++ c

/-- Whether an earlier instruction conflicts with a later one: one writes what the other reads or writes. -/
def conflicts (r1 w1 r2 w2 : List Acc) : Bool :=
  (w1.any fun a => (r2 ++ w2).any a.meets) || (r1.any fun a => w2.any a.meets)

/-- A tensor reference as a live view. -/
def State.refView (s : State) (x : TRef) : View := s.liveView x.t x.rep

/-- Whether the tail of a stage's program, from a run's position, still sends into a queue. -/
def State.sendsLeft (s : State) (b : Nat) (g : Stage) (q : Nat) : Bool :=
  let r := s.run b g.idx
  !r.atRest && (List.range (g.total - r.oldest)).any fun k =>
    let p := r.oldest + k
    !r.done p && match g.instr? p with
      | some i => i.isSend && i.dst.queue == q
      | none => false

end Sys2Proof.Machine
end

