-- ==== Sys2Proof/Machine/Queue.lean ====
section
/-! DEFINITION. The queue manager: cells, positions, grants, the step gate, visibility, reading and the actions of verdicts
on queues (R209-R235). The commands that drive it are at the end. -/

namespace Sys2Proof.Machine

/-- Payload words of a cell (R213). -/
def cellWords : Nat := 15

/-- Cells of a region pool (R23). -/
def poolCells : Nat := 524288

/-- The region that holds a queue, and its local number (R18). -/
def qRegion (q : Nat) : Nat := q / 65536 % 4
def qLocal (q : Nat) : Nat := q % 65536

def State.queue? (s : State) (q : Nat) : Option Queue := find? q s.queues

/-- Queues of a region. -/
def State.regionQueues (s : State) (r : Nat) : List (Nat × Queue) := s.queues.filter fun e => qRegion e.1 == r

/-- Free cells of a region's pool. -/
def Region.freeCells (x : Region) : Nat := poolCells - x.nextFree + x.free.length

/-- Sum of max(0, RESERVE - HELD) over the queues of a region (R225, R241). -/
def State.owed (s : State) (r : Nat) : Nat := ((s.regionQueues r).map fun e => e.2.ent.reserve - e.2.held).sum

/-- The shared pool of a region (R225). -/
def State.sharedPool (s : State) (r : Nat) : Nat := (s.rgn r).freeCells - s.owed r

/-- How far a cell's bank lies from the bank whose turn it is (R212). -/
def bankGap (bank c : Nat) : Nat := (c + 128 - bank) % 128

/-- Of some free cells the one whose bank comes first in the rotation (R212; among cells of one bank the choice is the model's, log 13). -/
def nextCell (bank : Nat) : List Nat → Option Nat
  | [] => none
  | c :: r => match nextCell bank r with
    | some d => if bankGap bank c ≤ bankGap bank d then some c else some d
    | none => some c

/-- `n` cells from the free list, from the banks in rotation: cells never handed out first, then returned ones (R212). -/
def Region.alloc (x : Region) : Nat → List Nat × Region
  | 0 => ([], x)
  | n + 1 =>
    if x.nextFree < poolCells then
      let (l, y) := Region.alloc { x with nextFree := x.nextFree + 1, bank := (x.nextFree + 1) % 128 } n
      (x.nextFree :: l, y)
    else match nextCell x.bank x.free with
      | some c =>
        let (l, y) := Region.alloc { x with free := x.free.erase c, bank := (c + 1) % 128 } n
        (c :: l, y)
      | none => ([], x)

/-- Cells returned to the free list. -/
def Region.giveBack (x : Region) (cells : List Nat) : Region :=
  { x with free := x.free ++ cells, ctl := x.ctl.filter fun e => !cells.contains e.1 }

/-! ## Sizes -/

/-- Words of a packet of `n` bytes, its length word included (R217). -/
def packetWords (n : Nat) : Nat := ceilDiv n 8 + 1

/-- Items of `w` words that a cell holds (R217). -/
def itemsPerCell (w : Nat) : Nat := if w = 0 then 0 else cellWords / w

/-- The cells that a transfer of `n` bytes requests (R224). -/
def cellsFor (e : QEntry) (n : Nat) : Nat :=
  if e.mode = 1 then ceilDiv (packetWords n) cellWords
  else ceilDiv (ceilDiv n (8 * e.item)) (itemsPerCell e.item)

/-- Words of each unit that a transfer of `n` bytes reserves: one packet, or items of ITEM words. -/
def unitSizes (e : QEntry) (n : Nat) : List (List Nat) :=
  if e.mode = 1 then [List.replicate (packetWords n) 1]
  else List.replicate (ceilDiv n (8 * e.item)) [e.item]

/-! ## Positions -/

/-- The position after the last payload word of a cell, before the next cell is linked: marked by word 15, which no register shows
(log 14). -/
def Pos.past (c : Nat) : Pos := ⟨c, cellWords⟩

/-- A position as 32 bits (R216). Past the end of a closed cell the next word is word 0 of a new cell (R221, R234); which cell that will be,
while it is not linked, the manual does not say: a free index (log 14). -/
def Pos.bits (p : Pos) : Nat := if p.word < cellWords then p.cell % 2 ^ 19 * 16 + p.word else Config.nextCell p.cell % 2 ^ 19 * 16

/-- Placement of words: the current position, cells not yet linked, cells linked. A group of words of one item never spans
cells (R217). -/
structure Place where
  pos : Pos
  fresh : List Nat
  linked : List Nat := []
  out : List Pos := []
  deriving DecidableEq, Repr

/-- The word where another group of `n` words would stand behind word `w`: past the cell where it does not fit (R217, R221). -/
def wordAfter (w n : Nat) : Nat := if w + n ≤ cellWords then w else cellWords

/-- `n` words placed together: in the open cell if they fit, else at word 0 of the next cell. -/
def Place.put (x : Place) (n : Nat) : Place :=
  if x.pos.word + n ≤ cellWords then
    { x with pos := { x.pos with word := wordAfter (x.pos.word + n) n },
             out := x.out ++ (List.range n).map fun k => { x.pos with word := x.pos.word + k } }
  else match x.fresh with
    | [] => x
    | c :: r => { pos := ⟨c, wordAfter n n⟩, fresh := r, linked := x.linked ++ [c],
                  out := x.out ++ (List.range n).map fun k => ⟨c, k⟩ }

/-- The words of each unit placed in order. -/
def placeUnits : List (List Nat) → Place → List (List Pos) × Place
  | [], x => ([], x)
  | u :: r, x =>
    let y := u.foldl Place.put { x with out := [] }
    let (l, z) := placeUnits r { y with out := [] }
    (y.out :: l, z)

/-- A position that stood at the tail stands where the next words are placed. -/
def Pos.moved (tail first p : Pos) : Pos := if p = tail then first else p

/-- The positions of a descriptor once words are placed from `first` on: what stood at the tail, which is the next word to be reserved,
follows it into a new cell. -/
def Queue.placed (q : Queue) (first : Pos) : Queue :=
  let f := Pos.moved q.tail first
  { q with head := f q.head, tail := f q.tail, vis := f q.vis, mark0 := f q.mark0,
           mark1 := if q.m1v then f q.mark1 else q.mark1 }

/-! ## Cells closing and freeing -/

def State.ctl (s : State) (r c : Nat) : CellCtl := look {} c (s.rgn r).ctl

def State.setCtl (s : State) (r c : Nat) (x : CellCtl) : State := s.modRgn r fun g => { g with ctl := put c x g.ctl }

/-- A cell closes; a close with FILL below 15 counts (R221, R242). -/
def State.closeCell (s : State) (r c : Nat) : State :=
  let x := s.ctl r c
  if x.closed then s
  else (s.setCtl r c { x with closed := true }).count 8 r 4 (b2n (x.fill < cellWords))

/-- Whether a granted transfer still has words to write in a cell. -/
def Queue.busyIn (q : Queue) (c : Nat) : Bool := q.units.any fun u => !u.written && u.words.any fun p => p.cell == c

/-- The tail cell closes, or the close waits for the transfer that writes it; an empty tail cell has nothing to close
(R221). -/
def State.closeTail (s : State) (qid : Nat) : State :=
  match s.queue? qid with
  | none => s
  | some q =>
    match q.chain.getLast? with
    | none => s
    | some c =>
      if q.busyIn c then s.setQueue qid { q with closePend := true }
      else if q.tail = ⟨c, 0⟩ || (s.ctl (qRegion qid) c).closed then s.setQueue qid { q with closePend := false }
      else
        let s := s.closeCell (qRegion qid) c
        let past (p : Pos) : Pos := if p = q.tail then Pos.past c else p
        s.setQueue qid { q with tail := Pos.past c, head := past q.head, vis := past q.vis, mark0 := past q.mark0,
                                mark1 := if q.m1v then past q.mark1 else q.mark1, closePend := false }

/-- Something has happened that the no-progress watchdog counts from (R238). -/
def State.progress (s : State) : State := s.modRgn 0 fun g => { g with wdogFrom := s.board.time }

/-- The cells of the chain that lie wholly before a position are freed (R228, R233). -/
def State.freeBefore (s : State) (qid : Nat) (p : Pos) : State :=
  match s.queue? qid with
  | none => s
  | some q =>
    let gone := q.chain.takeWhile (· != p.cell)
    let gone := if gone.length = q.chain.length then [] else gone
    let s := if gone.isEmpty then s else (s.modRgn (qRegion qid) (·.giveBack gone)).progress
    s.setQueue qid { q with chain := q.chain.drop gone.length, held := q.held - gone.length }

/-- The cells a reader has passed: on a retained queue they stay until a verdict (R228, R233). -/
def State.freePassed (s : State) (qid : Nat) : State :=
  match s.queue? qid with
  | some q => if q.ent.cls = 1 then s else s.freeBefore qid q.head
  | none => s

/-! ## Grants -/

/-- Bytes of payload that a tensor view takes: its element stream, then its scale bytes (R218). -/
def View.bytes (v : View) : Nat :=
  ceilDiv (v.count * v.d.w) 8 + (if v.d.bs = 0 then 0 else v.count / v.d.bs)

/-- Bytes a SEND moves: its tensor's payload, or 4 bytes of a scalar slot (R218). -/
def State.sendBytes (s : State) (i : IWord) (r n : Nat) : Nat :=
  if i.srcA.isT then (s.refView (s.tref i.srcA r n)).bytes else 4

/-- The amount in bytes that a requester's transfer moves: of a SEND its tensor, of the ingress port the message that waits,
of a Drover slice the amount it names (R224). -/
def State.requestBytes (s : State) (qid : Nat) (who : Requester) (amount : Nat) : Nat :=
  match who with
  | .stage b st p =>
    match s.stage? b st with
    | none => 0
    | some g =>
      match g.instr? p with
      | some i => s.sendBytes i (g.locate p).2 (s.blk b).step
      | none => 0
  | .ingress =>
    match (s.hci.streams.find? fun e => e.2.queue == qid) with
    | some e => (e.2.waiting.head?.map List.length).getD 0
    | none => 0
  | .drover _ => amount

/-- Whether every stage producer of a queue has completed its transfers for step `n` (R226). -/
def State.producersDone (s : State) (q : Queue) (n : Nat) : Bool :=
  q.ent.producers.all fun e =>
    match e with
    | some (.stage b st) =>
      if n < (s.blk b).step then true
      else if (s.blk b).step < n then false
      else match s.stage? b st with
        | some g => !s.sendsLeft b g q.ent.qid
        | none => true
    | _ => true

/-- Whether the step gate admits a request: ingress and Drover requests without waiting, a stage's request for the gate's
step or, when its producers are done, for the next one (R226). -/
def State.gateAdmits (s : State) (q : Queue) (x : QReq) : Bool :=
  match x.who with
  | .stage .. => x.step ≤ q.gate || (x.step = q.gate + 1 && s.producersDone q q.gate)
  | _ => true

/-- Why the first request of a queue cannot be granted: 1 credit or the outstanding limit, 2 the shared pool, 3 the step
gate (R225). A broken queue grants without condition (R231). -/
def State.grantBar (s : State) (q : Queue) (x : QReq) : Option Nat :=
  if q.broken then none
  else
    let c := cellsFor q.ent x.amount
    let r := qRegion q.ent.qid
    if !s.gateAdmits q x then some 3
    else if q.ent.credit < q.held + c || q.ent.outst + 1 ≤ q.grants.length then some 1
    else if s.sharedPool r < (q.held + c - q.ent.reserve) - (q.held - q.ent.reserve) then some 2
    else none

/-- The descriptor as the gate opens for a step: on an egress queue MARK1 := TAIL; a commit that waited moves MARK0 there and clears M1V
(R226, R234). -/
def Queue.openGate (q : Queue) (step : Nat) : Queue :=
  if q.ent.cls = 2 then
    { q with gate := step, mark1 := q.tail, m1v := !q.markWait, mark0 := if q.markWait then q.tail else q.mark0, markWait := false }
  else { q with gate := step }

/-- Whether a request comes from a stage. -/
def QReq.isStage (x : QReq) : Bool :=
  match x.who with
  | .stage .. => true
  | _ => false

/-- The step gate opens where it admits the first request of a queue for a later step: an egress queue's tail closes first (R226). Whether
the request can be granted does not matter to it. -/
def State.gateOpens (s : State) (qid : Nat) : State :=
  match s.queue? qid with
  | none => s
  | some q =>
    match q.reqs with
    | [] => s
    | x :: _ =>
      if q.broken || !x.isStage || x.step ≤ q.gate || !s.gateAdmits q x then s
      else
        let s := if q.ent.cls = 2 then s.closeTail qid else s
        match s.queue? qid with
        | some q => s.setQueue qid (q.openGate x.step)
        | none => s

/-- The first request of a queue granted: cells taken, every word's position fixed, TAIL past the extent (R224-R226). -/
def State.grantFirst (s : State) (qid : Nat) : State :=
  match s.queue? qid with
  | none => s
  | some q =>
    match q.reqs with
    | [] => s
    | x :: rest =>
      if (s.grantBar q x).isSome then s
      else if q.broken then s.setQueue qid { q with reqs := rest, grants := q.grants ++ [x.who] }
      else
        let r := qRegion qid
        let c := cellsFor q.ent x.amount
        let (cells, reg) := (s.rgn r).alloc c
        let s := (s.setRgn r reg).count 8 r 0 cells.length
        let (units, pl) := placeUnits (unitSizes q.ent x.amount) { pos := q.tail, fresh := cells }
        let q := q.placed ((units.head?.bind List.head?).getD q.tail)
        let q := { q with chain := q.chain ++ pl.linked, tail := pl.pos, held := q.held + cells.length, reqs := rest,
                          grants := q.grants ++ [x.who], waitFrom := some (q.waitFrom.getD s.board.time),
                          units := q.units ++ units.zipIdx.map fun (w, k) =>
                            { who := x.who, step := x.step, words := w, spare := if k = 0 then pl.fresh else [] } }
        let s := s.setQueue qid q
        let s := pl.linked.foldl (fun s c => s.setCtl r c {}) s
        (s.freePassed qid).progress

/-! ## Writing -/

/-- The packet length word (R219). -/
def lenWord (ppois : Bool) (step len : Nat) : Nat := 2 ^ 63 + b2n ppois * 2 ^ 62 + step % 65536 * 2 ^ 32 + len % 2 ^ 24

/-- A word written into the pool: FILL counts the words written, and the cell closes with its 15th word, or with the last item that fits
it (R213, R221). Poison entering the queue counts (R214, R242). -/
def State.writeWord (s : State) (qid : Nat) (p : Pos) (w : PWord) : State :=
  let r := qRegion qid
  let x := s.ctl r p.cell
  let s := s.modRgn r fun g => { g with words := put (p.cell * 16 + p.word) w g.words }
  let s := s.setCtl r p.cell { x with fill := Min.min cellWords (x.fill + 1) }
  s.count 8 r 9 (b2n w.pois)

/-- The cells that a transfer has filled close. -/
def State.closeFull (s : State) (qid : Nat) (e : QEntry) (cells : List Nat) : State :=
  let full := if e.mode = 1 then cellWords else itemsPerCell e.item * e.item
  cells.foldl (fun s c => if full ≤ (s.ctl (qRegion qid) c).fill then s.closeCell (qRegion qid) c else s) s

/-- Payload bytes as pool words, with one poison flag for each word. -/
def toWords (bytes : List Byte) (pois : List Bool) : List PWord :=
  (pieces 8 bytes).zipIdx.map fun (b, k) => ⟨ofLe b, pois.getD k false⟩

/-- The words of each unit in the order of its positions: the length word and the payload of a packet, or items. -/
def unitWords (e : QEntry) (step : Nat) (bytes : List Byte) (pois : List Bool) : List (List PWord) :=
  let ws := toWords bytes pois
  if e.mode = 1 then [⟨lenWord (ws.any (·.pois)) step bytes.length, false⟩ :: ws]
  else pieces e.item ws

/-- The first granted transfer of a requester written: every word at its position, the length word back-filled, unused
cells returned, the tail closed where CPP asks it (R220, R221, R224). A broken queue discards the data (R231). -/
def State.writeTransfer (s : State) (qid : Nat) (who : Requester) (step : Nat) (bytes : List Byte) (pois : List Bool) : State :=
  match s.queue? qid with
  | none => s
  | some q =>
    let q := { q with grants := q.grants.erase who }
    if q.broken then s.setQueue qid q
    else
      let mine := q.units.zipIdx.filter fun (u, _) => u.who == who && !u.written
      let n := (unitSizes q.ent bytes.length).length
      let mine := mine.take n
      let ws := unitWords q.ent step bytes pois
      let s := (mine.zip ws).foldl (fun s (m, w) => (m.1.words.zip w).foldl (fun s (p, x) => s.writeWord qid p x) s) s
      let idx := mine.map (·.2)
      let spare := mine.flatMap fun m => m.1.spare
      let anyPois := ws.any fun w => w.any (·.pois)
      let units := q.units.zipIdx.map fun (u, k) =>
        if idx.contains k then { u with written := true, step := step, spare := [] } else u
      let last := match who with
        | .stage b st _ => some (b, st)
        | _ => q.lastSend
      let s := s.progress.setQueue qid { q with units := units, held := q.held - spare.length, pois := q.pois || anyPois, lastSend := last }
      let s := s.modRgn (qRegion qid) (·.giveBack spare)
      let s := s.closeFull qid q.ent ((mine.flatMap fun m => m.1.words.map (·.cell)).eraseDups)
      if q.ent.cpp || q.closePend then s.closeTail qid else s

/-! ## Visibility and reading -/

/-- Whether a unit is visible once those before it are: written, and every cell holding it closed (R222). -/
def State.unitReady (s : State) (qid : Nat) (u : QUnit) : Bool :=
  u.written && u.words.all fun p => (s.ctl (qRegion qid) p.cell).closed

/-- The position after a unit's last word. -/
def QUnit.after (u : QUnit) (last : Bool) : Pos :=
  match u.words.getLast? with
  | some p => if last || p.word + 1 = cellWords then Pos.past p.cell else { p with word := p.word + 1 }
  | none => {}

/-- The first position of a unit. -/
def QUnit.first (u : QUnit) : Pos := u.words.head?.getD {}

/-- HEAD or VIS after units were taken: the first word of the next unit reserved, else TAIL. -/
def Queue.nextPos (q : Queue) (rest : List QUnit) : Pos :=
  match rest.head? with
  | some u => u.first
  | none => q.tail

/-- Units that have become visible, in reservation order (R222). -/
def State.visibleNow (s : State) (qid : Nat) (q : Queue) : List QUnit := q.units.takeWhile (s.unitReady qid)

/-- Bytes of a packet from its length word (R219). -/
def packetLen (w : Nat) : Nat := w % 2 ^ 24

def State.word (s : State) (qid : Nat) (p : Pos) : PWord := look {} (p.cell * 16 + p.word) (s.rgn (qRegion qid)).words

/-- What a read of a unit delivers: payload bytes and a poison flag for each word (R214, R231). -/
def State.readUnit (s : State) (qid : Nat) (e : QEntry) (u : QUnit) : List Byte × List Bool :=
  let ws := u.words.map (s.word qid)
  if e.mode = 1 then
    match ws with
    | l :: r => ((r.flatMap fun w => le 8 w.val).take (packetLen l.val), r.map (·.pois))
    | [] => ([], [])
  else (ws.flatMap fun w => le 8 w.val, ws.map (·.pois))

/-- The units a reader takes leave HEAD behind them: VCNT falls, the read timer restarts, cells passed are freed or kept
(R228, R233). `step` is the consumer's step. -/
def State.takeUnits (s : State) (qid n step : Nat) : State :=
  match s.queue? qid with
  | none => s
  | some q =>
    let got := q.ready.take n
    let rest := q.ready.drop n
    let next := q.nextPos (rest ++ q.units)
    let kept := if q.ent.cls = 1 then q.kept ++ got.map fun u => { u with step := step } else q.kept
    let waiting := decide (next ≠ q.tail)
    let s := s.setQueue qid { q with ready := rest, kept := kept, head := next, vcnt := Min.min 65535 rest.length,
                                     toFlag := false, waitFrom := if waiting then some s.board.time else none }
    (s.freePassed qid).progress

/-- A queue broken by a structural parity error (R231). -/
def State.markBroken (s : State) (qid : Nat) : State :=
  match s.queue? qid with
  | none => s
  | some q =>
    let r := qRegion qid
    let s := s.setQueue qid { q with broken := true }
    let s := s.modRgn r fun g => { g with brkAny := true, brkFirst := if g.brkAny then g.brkFirst else qLocal qid }
    (s.rgnSticky r 1).rgnSticky r 0

/-- A queue's structural parity error: the queue is broken and PARITY reported (R231). -/
def State.breakQueue (s : State) (qid detail : Nat) : State :=
  if (s.queue? qid).isNone then s else raise (s.markBroken qid) (faultCode 2 PARITY detail) (srcRegion (qRegion qid)) qid

/-- A payload word that failed parity as it was delivered: PARITY detail 0x01 and POIS; the queue continues (R231). The read that delivers
it counts it as poisoned (R242). -/
def State.payloadParity (s : State) (qid : Nat) : State :=
  match s.queue? qid with
  | none => s
  | some q =>
    let r := qRegion qid
    let s := (s.setQueue qid { q with pois := true }).rgnSticky r 0
    raise s (faultCode 2 PARITY 0x01) (srcRegion r) qid

/-- The structural errors among the upsets of one access: their detail codes (R231). -/
def structural (ups : Upsets) : List Nat := (ups.queue.filter fun x => 2 ≤ x.1 && x.1 ≤ 4).map (·.1)

/-- The payload words among the upsets of one access. -/
def payloadHits (ups : Upsets) : List Nat := (ups.queue.filter fun x => x.1 == 1).map (·.2)

/-- Poison flags with the words that failed parity set. -/
def hitWords (hits : List Nat) (pois : List Bool) : List Bool := pois.zipIdx.map fun (p, k) => p || hits.contains k

/-! ## Verdicts on queues -/

/-- The marks of a queue when its consumer stage starts repeat 0 of the next step (R233). -/
def State.consumerStarts (s : State) (qid : Nat) : State :=
  match s.queue? qid with
  | some q => if q.ent.cls = 1 then s.setQueue qid { q with mark1 := q.head, m1v := true } else s
  | none => s

/-- A commit verdict of step `n` on a queue (R233, R234). The cells of a broken queue stay allocated (R231). -/
def State.commitQueue (s : State) (qid n : Nat) : State :=
  match s.queue? qid with
  | none => s
  | some q =>
    if q.broken then s
    else if q.ent.cls = 1 then
      let m := if q.m1v then q.mark1 else q.head
      let s := s.setQueue qid { q with mark0 := m, m1v := false, kept := q.kept.filter fun u => n < u.step }
      s.freeBefore qid m
    else if q.ent.cls = 2 then
      if q.m1v then s.setQueue qid { q with mark0 := q.mark1, m1v := false } else s.setQueue qid { q with markWait := true }
    else s

/-- A retained queue rewound to a position (R233): the units read since are unread again. -/
def State.rewindRetained (s : State) (qid n : Nat) (q : Queue) (skip : Bool) : State :=
  let m := if skip then (if q.m1v then q.mark1 else q.head) else q.mark0
  let back := q.kept.filter fun u => !skip || n < u.step
  let ready := back ++ q.ready
  let q' := { q with head := m, mark0 := m, m1v := false, kept := [], ready := ready, vcnt := Min.min 65535 ready.length }
  let s := (s.setQueue qid q').count 8 (qRegion qid) 8 1
  if skip then s.freeBefore qid m else s

/-- An egress queue rewound to MARK0: its cell is the tail cell, emptied and open; every later cell is freed (R234). -/
def State.rewindEgress (s : State) (qid n : Nat) (q : Queue) : State :=
  let r := qRegion qid
  let upto := q.chain.takeWhile (· != q.mark0.cell)
  let after := q.chain.drop (upto.length + 1)
  let spare := q.units.flatMap (·.spare)
  let s := s.modRgn r (·.giveBack (after ++ spare))
  let s := if q.mark0.word = 0 then s.setCtl r q.mark0.cell {} else s
  let keep := q.ready.takeWhile fun u => u.first != q.mark0
  let q' := { q with chain := q.chain.take (upto.length + 1), tail := q.mark0,
                     head := if keep.isEmpty then q.mark0 else q.head, vis := q.mark0, m1v := false, markWait := false,
                     units := [], ready := keep, vcnt := Min.min 65535 keep.length, reqs := [], grants := [],
                     closePend := false, held := q.held - after.length - spare.length, gate := n }
  ((s.setQueue qid q').count 8 r 8 1).progress

/-- A step-local queue cleared and a broken one rebuilt: one fresh cell, everything else returned (R235). -/
def State.clearQueue (s : State) (qid n : Nat) (q : Queue) : State :=
  let r := qRegion qid
  let s := s.modRgn r (·.giveBack (q.chain ++ q.units.flatMap (·.spare)))
  let (cells, reg) := (s.rgn r).alloc 1
  let c := cells.headD 0
  let s := ((s.setRgn r reg).setCtl r c {}).count 8 r 0 cells.length
  let p : Pos := ⟨c, 0⟩
  let q' := { q with chain := [c], head := p, tail := p, vis := p, held := 1, vcnt := 0, m1v := false, broken := false,
                     units := [], ready := [], kept := [], reqs := [], grants := [], closePend := false, waitFrom := none,
                     gate := n }
  ((s.setQueue qid q').count 8 r 7 1).progress

/-- A replay or skip verdict of step `n` on a queue; work goes on with step `next` (R233-R235). A broken retained or egress queue is rebuilt
only at a restart from snapshot: it keeps its cells, and requests of squashed work are dropped (R231). -/
def State.squashQueue (s : State) (qid n next : Nat) (skip : Bool) : State :=
  match s.queue? qid with
  | none => s
  | some q =>
    match q.ent.cls with
    | 0 => s.clearQueue qid next q
    | 1 => if q.broken then s else s.rewindRetained qid n q skip
    | _ => if q.broken then s.setQueue qid { q with reqs := [], grants := [] } else s.rewindEgress qid next q

/-! ## The descriptor -/

/-- The 256 bits of a queue descriptor (R215). -/
def Queue.bits (q : Queue) : Nat :=
  let e := q.ent
  e.toExp % 32 * 2 ^ 251 + e.cls % 4 * 2 ^ 249 + e.mode % 2 * 2 ^ 248 + e.item % 16 * 2 ^ 244 + b2n e.cpp * 2 ^ 243 +
  e.outst % 8 * 2 ^ 240 + b2n q.toFlag * 2 ^ 239 + b2n q.m1v * 2 ^ 238 + b2n q.pois * 2 ^ 237 + b2n q.broken * 2 ^ 236 +
  e.reserve % 2 ^ 20 * 2 ^ 216 + e.credit % 2 ^ 20 * 2 ^ 196 + q.held % 2 ^ 20 * 2 ^ 176 + q.vcnt % 65536 * 2 ^ 160 +
  q.mark1.bits * 2 ^ 128 + q.mark0.bits * 2 ^ 96 + q.vis.bits * 2 ^ 64 + q.tail.bits * 2 ^ 32 + q.head.bits

/-- A queue as loaded: one open, empty tail cell at which every position stands (R215, R216). -/
def newQueue (e : QEntry) (c step : Nat) : Queue :=
  let p : Pos := ⟨c, 0⟩
  { ent := e, held := 1, mark0 := p, vis := p, tail := p, head := p, chain := [c], gate := step }

end Sys2Proof.Machine
end

