-- ==== Sys2Proof/Machine/Issue.lean ====
section
/-! DEFINITION. Firing (R134-R138): when an instruction of a stage may fire, what its start and its completion do whatever the
operation, how results reach a destination (R125, R152), and how a block begins a step (R120, R146, R169). -/

namespace Sys2Proof.Machine

/-- One firing in its place: block, stage, position, the instruction, its index and repeat number, and the step (R120, R141). -/
structure Ctx where
  b : Nat
  g : Stage
  p : Nat
  i : IWord
  idx : Nat
  rep : Nat
  n : Nat
  deriving Repr

/-- What a firing answers: the state, whether the instruction completed (a job fault or a page stall stops it, R135), and the
statistics of everything it converted (R486). -/
structure Effect where
  s : State
  done : Bool := true
  stat : TallyRec := {}

/-- The context of a firing, if the block has such a stage and position. -/
def State.ctx? (s : State) (f : Fire) : Option Ctx :=
  match s.stage? f.blk f.stage with
  | none => none
  | some g =>
    match g.instr? f.pos with
    | none => none
    | some i =>
      if f.pos < g.total then
        some { b := f.blk, g := g, p := f.pos, i := i, idx := (g.locate f.pos).1, rep := (g.locate f.pos).2, n := (s.blk f.blk).step }
      else none

/-! ## The conditions of R134 -/

/-- The tensors and slices an instruction reads as sources. -/
def State.srcRefs (s : State) (c : Ctx) : List TRef :=
  let refs := if c.i.op = opSeal || c.i.isRecv then []
    else if c.i.op = opRoute || c.i.op = opLoss then [c.i.srcA, c.i.srcB] else [c.i.srcA, c.i.srcB, c.i.srcC]
  refs.filterMap fun o => if o.isT then some (s.tref o c.rep c.n) else none

/-- Whether a tensor is a working copy: weights of a pair, filled by the update engines' multicast, that no fold names as a master
(R271, R282). -/
def State.workingCopy (s : State) (t : Nat) : Bool :=
  let e := look {} t s.job.tensors
  (e.pairHead || e.pairTail) && e.desc.role == 0 &&
  !(s.job.folds.any fun f => f.layers.any fun l => l.tensors.contains (t - b2n e.pairTail))

/-- Tensors that a stage writes. -/
def Stage.dests (g : Stage) : List Nat := (g.prog.flatMap IWord.dests).eraseDups

/-- Tensors that the stages of a block write. -/
def State.writtenBy (s : State) (b : Nat) : List Nat := ((s.stages b).flatMap Stage.dests).eraseDups

/-- Whether a stage's part of a step comes before another's: forward stages first, then by index (DESIGN CHOICE, log 63). -/
def Stage.before (g h : Stage) : Bool := if g.backward == h.backward then g.idx < h.idx else h.backward

/-- Whether the slice of a tensor that a source names was written in the block's present step: as such, with the whole tensor, or, of a
whole tensor, slice by slice. -/
def State.filled (s : State) (x : TRef) : Bool :=
  let y := s.ten x.t
  y.filled.contains none || match x.rep with
    | some r => y.filled.contains (some r)
    | none => (List.range (y.desc.e y.desc.outer)).all fun r => y.filled.contains (some r)

/-- Whether a tensor lies in the weight halves of a time-shared block, where the layer prefetch fills it (R147-R149). -/
def State.inHalves (s : State) (b t : Nat) : Bool :=
  let x := look {} b s.job.rblocks
  let d := (s.ten t).desc
  1 < x.seq.length && d.tier == 0 && d.block == b && x.h0 ≤ d.base && d.base < x.h0 + 2 * x.half

/-- The step whose update a working copy read in step `n` must hold: the live one, or that of the step before (R283). -/
def State.copyNeed (s : State) (n : Nat) : Nat := if n ≤ s.gov.step then s.upd.liveOf else n

/-- A working copy that is not whole for the step that reads it (R283). -/
def State.copyAbsent (s : State) (c : Ctx) (t : Nat) : Bool := s.workingCopy t && (s.ten t).asOf != s.copyNeed c.n + 1

/-- A tensor of the weight halves that no instruction writes, so that the prefetch fills it, and that has not been prefetched (R149). -/
def State.unfetched (s : State) (c : Ctx) (t : Nat) : Bool :=
  s.inHalves c.b t && !(s.writtenBy c.b).contains t && !(s.blk c.b).fetched.contains t

/-- A source holds its data (R102, R134 condition 4): a working copy is whole (R283); a block-store tensor that an earlier stage of the
block writes has been written in this step, that stage being the earlier instruction's (log 63; within a stage condition 2 says it); and
one in the weight halves that no instruction writes, so that the prefetch fills it, has been prefetched (R149). -/
def State.srcReady (s : State) (c : Ctx) (x : TRef) : Bool :=
  !s.copyAbsent c x.t &&
  ((s.ten x.t).desc.tier != 0 ||
    (!s.unfetched c x.t && (s.filled x || !(s.stages c.b).any fun g => g.before c.g && g.dests.contains x.t)))

/-- The amount a RECV takes: packets, or items (R228). -/
def State.recvUnits (s : State) (c : Ctx) (e : QEntry) : Nat :=
  if e.mode = 1 then 1 else (unitSizes e (s.refView (s.tref c.i.dst c.rep c.n)).bytes).length

/-- Condition 5: a RECV finds its whole amount visible, or its queue broken (R228, R231). -/
def State.recvReady (s : State) (c : Ctx) : Bool :=
  match s.queue? c.i.srcA.queue with
  | some q => q.broken || s.recvUnits c q.ent ≤ q.ready.length
  | none => false

/-- Condition 6 for a SEND: its grant is held (R224). -/
def State.sendReady (s : State) (c : Ctx) : Bool :=
  match s.queue? c.i.dst.queue with
  | some q => q.grants.contains (.stage c.b c.g.idx c.p)
  | none => false

/-- Condition 2: no earlier uncompleted instruction conflicts, and no earlier seal is uncompleted. -/
def State.noConflict (s : State) (c : Ctx) : Bool :=
  let r := s.run c.b c.g.idx
  let rs := s.readsOf c.i c.rep c.n
  let ws := s.writesOf c.i c.rep c.n
  (List.range (c.p - r.oldest)).all fun k =>
    let q := r.oldest + k
    r.done q || match c.g.instr? q with
      | some j =>
        let rq := (c.g.locate q).2
        j.op != opSeal && !conflicts (s.readsOf j rq c.n) (s.writesOf j rq c.n) rs ws
      | none => true

/-- Condition 3: the unit is free; only a transfer stalled on a page stays in flight between steps (R135, R266). A SEAL LAYER that waits
for its verdict does not hold the issue unit against the seals of the block's other stages: the verdict comes only when every stage of the
layer has fired its own (DEDUCED, log 126). -/
def State.unitFree (s : State) (c : Ctx) : Bool :=
  match (s.blk c.b).xfer with
  | some x => c.i.unit != .transfer || (x.stage == c.g.idx && x.pos == c.p)
  | none => true

/-- An ageing measurement holds the block's issue (R466). -/
def State.ageHeld (s : State) (b : Nat) : Bool :=
  let x := s.blk b
  s.age.busy || (s.age.due && x.firstFire.isNone && 1 ≤ x.step && (x.step - 1) % 256 == 0 &&
    !s.gov.sealedSteps.contains (x.step - 1))

/-- A pause in progress keeps a stage that has fired no body instruction in its step from starting (R491). -/
def State.atStop (s : State) (c : Ctx) : Bool :=
  let r := s.run c.b c.g.idx
  s.stop.id.isSome && !r.replayPass && r.oldest == 0 && r.doneAt.isEmpty

/-- Whether the module issues instructions: RUNNING, or starting its job (R416, R418), with no stop of issue (R458) and no
squash under way (R235). -/
def State.issuing (s : State) : Bool :=
  (s.glb.mstate == .running || (s.glb.mstate == .ready && s.glb.jobStarting)) && !s.err.stopIssue && s.gov.squash.isNone &&
  s.pwr.state == 0

/-- The firings of a stage whose place in the program and whose unit are free (R134 conditions 1 to 3). -/
def State.poised (s : State) (b : Nat) (g : Stage) : List Ctx :=
  ((s.run b g.idx).window g).filterMap fun p =>
    match s.ctx? { blk := b, stage := g.idx, pos := p } with
    | some c => if s.noConflict c && s.unitFree c then some c else none
    | none => none

/-- The firings of a stage that conditions 1 to 4 of R134 allow. -/
def State.candidates (s : State) (b : Nat) (g : Stage) : List Ctx := (s.poised b g).filter fun c => (s.srcRefs c).all (s.srcReady c)

/-- The blocks that host stages and take part in the job. -/
def State.hosting (s : State) : List Nat := (s.job.stages.filter fun e => !e.2.isEmpty).map (·.1)

/-- What a block waits for that its records name (R482): a working copy, code 6, by layer and step, or a prefetch, code 8, by layer. -/
def State.sourceWaits (s : State) : List (Nat × Nat × Nat × Nat) :=
  s.hosting.flatMap fun b => ((s.stages b).flatMap fun g => (s.poised b g).flatMap fun c => (s.srcRefs c).filterMap fun x =>
    let l := (s.ten x.t).desc.layer
    if s.copyAbsent c x.t then some (6, b, 0xFF, l + c.n % 2 ^ 32 * 2 ^ 32)
    else if (s.ten x.t).desc.tier == 0 && s.unfetched c x.t then some (8, b, 0xFF, l)
    else none).eraseDups

/-- The firing is the stalled transfer of its block, which resumes and which a replay or skip verdict lets run on (R266, R267). -/
def State.stalledIs (s : State) (c : Ctx) : Bool :=
  match (s.blk c.b).xfer with
  | some x => x.stage == c.g.idx && x.pos == c.p
  | none => false

/-- Whether a firing may happen now (R134). -/
def State.mayFire (s : State) (c : Ctx) : Bool :=
  let r := s.run c.b c.g.idx
  if s.stalledIs c then s.inState [.ready, .running] && !s.err.stopIssue && s.pwr.state == 0 else
  s.issuing && !(s.gov.changes.any fun x => x.step ≤ c.n) && !(s.blk c.b).excluded && !s.ageHeld c.b && !s.atStop c && !r.atRest && (r.window c.g).contains c.p &&
  (s.blk c.b).pos0 ≤ (s.blk c.b).pos && (match s.liveLayer c.b with | some l => l == c.g.layer | none => true) &&
  !s.upd.refresh && s.noConflict c && s.unitFree c && (s.srcRefs c).all (s.srcReady c) &&
  (!c.i.isRecv || s.recvReady c) && (!c.i.isSend || s.sendReady c) && (c.i.op != opSeal || r.oldest == c.p)

/-! ## Upsets of the block store -/

/-- The words of the block store that SEC-DED corrects or finds uncorrectable in an access (R33): the first count, the second
poison the word and are reported. -/
def State.eccUpsets (s : State) (b : Nat) (ups : Upsets) : State :=
  let s := if ups.eccCorr.isEmpty then s else (s.count 4 b 1 ups.eccCorr.length).blkSticky b 1
  ups.eccUnc.foldl (fun s a =>
    let s := s.modBlk b fun x => { x with storePoison := insertN (a / 8) x.storePoison }
    let s := s.blkSticky b 2
    raise s (faultCode 1 ECC_UNCORR 0x01) (srcBlock b) (a * 2 ^ 32 + Config.bank a % 64 * 2 ^ 16 + b)) s

/-! ## Start and completion -/

/-- Trace capture cleared and armed in the regions of a mask, each with the event mask and depth of the body. The trigger is one for the
module: it takes the condition of the body armed last, and its time stays while a region armed before still shows it (R483, R484; log 156). -/
def State.armTrace (s : State) (b : TraceBody) : State :=
  let s := [0, 1, 2, 3].foldl (fun s r =>
    if bitAt b.regions r then s.modRgn r fun g => { g with trace := { armed := true, mask := b.mask, depth := b.depth }, trcDrop := 0 } else s) s
  let shown := [0, 1, 2, 3].any fun r => (s.rgn r).trace.triggered
  { s with trc := { s.trc with body := b, fired := false, trigTime := if shown then s.trc.trigTime else 0 } }

/-- JOB_START completes with the first instruction fired: the module runs, and a trace policy with flag [0] arms its regions
(R416, R418, R483). -/
def State.jobRuns (s : State) : State :=
  if !s.glb.jobStarting then s
  else
    let s := { s with glb := { s.glb with jobStarting := false } }
    let s := s.setMode .running
    let s := match s.job.trace with
      | some b => if bitAt b.flags 0 then s.armTrace b else s
      | none => s
    match s.outstanding 0x10 with
    | some h =>
      let s := { s with hci := { s.hci with jobHandle := h.handle } }
      s.finish h stDone (le 8 s.glb.resumeStep ++ le 4 s.drv.epoch)
    | none => s

/-- What every firing does at its start: the first fire of the step is timed, ISS_FIRED counts it unless it resumes a stalled
transfer, and a job that was starting runs (R150, R174, R418). -/
def State.startFire (s : State) (c : Ctx) : State :=
  let x := s.blk c.b
  let resumed := match x.xfer with
    | some t => t.stage == c.g.idx && t.pos == c.p
    | none => false
  let s := s.setBlk c.b { x with firstFire := some (x.firstFire.getD s.board.time) }
  (s.count 1 c.b 0 (b2n !resumed)).progress.jobRuns

/-- Bytes of the digest of a watched destination: each delivery unit's element bytes, then its scale byte (R265, R486). -/
def State.watchBytes (s : State) (v : View) : List Byte :=
  let els := (List.range v.count).map (s.rawElem v)
  let unit := if v.d.bs = 0 then v.count else v.d.bs
  (pieces unit els).flatMap fun u =>
    let bits := u.zipIdx.foldl (fun a (e, k) => a + e.1 * 2 ^ (k * v.d.w)) 0
    le (ceilDiv (u.length * v.d.w) 8) bits ++ (if v.d.bs = 0 then [] else le 1 ((u.head?.map (·.2.1)).getD 0))

/-- The watch pair of a completion, where its region captures with mask bit 13 (R486, R487). -/
def State.watchPair (s : State) (c : Ctx) (stat : TallyRec) : State :=
  let r := regionOf c.b
  if !(c.i.watch && c.i.dst.isT && (s.rgn r).trace.capturing && (s.rgn r).trace.wants 0x28) then s
  else
    let t := (s.tref c.i.dst c.rep c.n).t
    let v := s.destView t c.i.spec (s.tref c.i.dst c.rep c.n).rep
    let bytes := s.watchBytes v
    let dig := crc32c bytes
    let pois := (List.range v.count).any fun n => (s.rawElem v n).2.2
    let amax := stat.amax
    let a : TRec :=
      { kind := 0x28, flags := b2n c.i.spec + 2 * b2n pois + 4 * b2n (s.run c.b c.g.idx).replayPass,
        src := srcBlock c.b, stage := c.g.idx, awStage := 0, awSrc := c.idx, start := s.localTime (srcBlock c.b) 0x28, dur := t,
        awDev := dig % 65536, detail := dig / 65536, obj := c.n % 2 ^ 32 + c.rep * 2 ^ 32 }
    let z := Min.min max32 stat.zero
    let sa := Min.min max32 stat.sat
    let b : TRec :=
      { kind := 0x29, stage := amax % 256, awStage := amax / 256 % 256, awSrc := amax / 65536, start := stat.values,
        dur := z, awDev := sa % 65536, detail := sa / 65536,
        obj := Min.min max32 stat.rz + Min.min 65535 stat.nan * 2 ^ 32 + Min.min 65535 stat.inf * 2 ^ 48 }
    s.offer r [a, b]

/-- The queues a stage writes. -/
def Stage.writesQueues (g : Stage) : List Nat :=
  (g.prog.filterMap fun i => if i.isSend then some i.dst.queue else none).eraseDups

/-- A stage that stops for a pause closes the tails of the queues it writes (R491). -/
def State.stageStops (s : State) (g : Stage) : State := g.writesQueues.foldl State.closeTail s

/-- A destination holds data: the slice written is filled in this step, or, written under SPEC, noted with its stage, whose commit makes
it the tensor's (R134, R144, R160). -/
def State.noteDest (s : State) (c : Ctx) : State :=
  if c.i.dst.isT then
    let d := s.tref c.i.dst c.rep c.n
    let s := s.modTen d.t fun x => { x with holds := true, filled := if c.i.spec then x.filled else d.rep :: x.filled }
    if c.i.spec then s.modRun c.b c.g.idx fun r => { r with specWritten := insertN d.t r.specWritten } else s
  else s

/-- The stages of a block's layer close the tails of the queues they write: it has drained the layer (R147, R221). -/
def State.layerDrains (s : State) (b layer : Nat) : State := ((s.stages b).filter fun g => g.layer == layer).foldl State.stageStops s

/-- A stage that rests stops while a pause is in progress (R491); with the last stage of its layer to rest on the block, the layer's stages
have completed every instruction (R147, R221). -/
def State.restStops (s : State) (b : Nat) (g : Stage) : State :=
  if !(s.run b g.idx).atRest then s
  else if (s.stages b).all fun h => h.layer != g.layer || (s.run b h.idx).atRest then s.layerDrains b g.layer
  else if s.stop.id.isSome then s.stageStops g
  else s

/-- The completion of an instruction: its accesses that were promoted, the data its destination now holds, its watch pair, its place in the
program, and what its stage closes as it comes to rest (R27, R134, R144, R221, R486, R491). -/
def State.completeFire (s : State) (c : Ctx) (stat : TallyRec) : State :=
  (((((s.count 4 c.b 2 (Config.promoted s.fresh s.board.time c.b))).watchPair c stat).noteDest c).modRun c.b c.g.idx (·.complete c.g c.p)).restStops c.b c.g

/-- Whether an instruction's transfer checks its accesses unit by unit: VEC COPY, GATHER and SCATTER_ADD (R265). -/
def IWord.byUnits (i : IWord) : Bool := (i.op == opVec && i.var == 0) || i.op == opGather || i.op == opScatter

/-- The first tensor of which an instruction would access an element outside its allocation, or in a granule not owned, with the detail
(R253): its sources and its destination, with the plan entries of the latter, in the layout it takes. -/
def State.strays (s : State) (c : Ctx) : Option (Nat × Nat) :=
  if c.i.byUnits then none
  else
    let src := (s.srcRefs c).map s.refView
    let dst := if !c.i.dst.isT then [] else
      let x := s.tref c.i.dst c.rep c.n
      [(s.settle x.t c.n).destView x.t c.i.spec x.rep]
    (src.findSome? fun v => (s.strayIn v).map fun d => (v.t, d)).or (dst.findSome? fun v => (s.strayIn v true).map fun d => (v.t, d))

/-- A firing of an operation: what the upsets of its accesses leave, its effect, and its completion; an access outside an
allocation is a job fault before anything is done (R253). A command that names no
instruction of this operation ready to fire is no event and changes nothing (log 9). -/
def State.fire (s : State) (f : Fire) (isOp : IWord → Bool) (run : Ctx → State → Effect) : State :=
  match s.ctx? f with
  | none => s
  | some c =>
    if isOp c.i && s.mayFire c then
      let s := (s.startFire c).eccUpsets c.b f.ups
      match s.strays c with
      | some (t, d) => s.barFault f.ups 1 (srcBlock c.b) (.bounds t d)
      | none =>
        let e := run c s
        if e.done then e.s.completeFire c e.stat else e.s
    else s

/-! ## Results into a destination -/

/-- The stream's key on this device (R142). -/
def State.streamKey (s : State) (n : Nat) : Nat :=
  match s.job.streams[n]? with
  | some e => if e.perDevice then e.key ^^^ (s.drv.device * 2 ^ 48 % 2 ^ 64) else e.key
  | none => 0

/-- The rounding stream of a stage, drawn for one instruction (R141). -/
def State.roundStm (s : State) (c : Ctx) : Option Stm :=
  if c.g.stream = 0xFFFF then none else some { key := s.streamKey c.g.stream, step := c.n, f := c.idx }

/-- Direction of a stage as Tally files it (R152). -/
def Stage.dir (g : Stage) : Nat := if g.backward then dirBwd else dirFwd

/-- How the scales of a destination are chosen (R154, R161, R169): the scale from maximum without SCL; the plan in a first
execution and in a forward rerun; the REPLAY_SC of the discarded execution for a backward rerun. -/
def State.imposeFor (s : State) (c : Ctx) : Impose :=
  if !c.i.scl then .fromMax
  else if c.g.backward && !s.gov.first && c.n == s.gov.step then .replay
  else .plan

/-- Draws counted: halfwords drawn, and the generator blocks that hold them (R150). -/
def State.countDraws (s : State) (b : Nat) (draws : List Nat) : State :=
  if draws.isEmpty then s else (s.count 1 b 9 draws.length).count 1 b 8 (draws.map (· / 8)).eraseDups.length

/-- Statistics filed in the block under (layer, role, direction) (R152). A tensor without role is filed under its stage's
layer. -/
def State.fileTally (s : State) (c : Ctx) (d : Desc) (r : TallyRec) : State :=
  let layer := if d.role < 4 then d.layer else c.g.layer
  let s := s.modBlk c.b fun x => { x with tally := addRec (tallyKey layer d.role c.g.dir) r x.tally }
  if c.i.spec && !c.g.backward && d.role < 4 && has (layer * 4 + d.role) s.gov.ks then
    s.modRun c.b c.g.idx fun x => { x with specStat := x.specStat.merge r }
  else s

/-- Values written into a destination tensor: scales chosen, conversion, plan entries, statistics (R65, R125, R152, R154). `big` says
which of them come from a source clamped at the read (R130). -/
def State.writeDst (s : State) (c : Ctx) (vals : List Val) (big : List Bool := []) : Effect :=
  let x := s.tref c.i.dst c.rep c.n
  let s := s.settle x.t c.n
  let v := s.destView x.t c.i.spec x.rep
  let sto := fwRnd v.d.fmtw == 1
  let base := c.rep * v.count
  let w : WCtx := { impose := s.imposeFor c, stm := if sto then s.roundStm c else none, base := base, big := big }
  let (s, r) := s.writeView v w vals
  let s := if sto then s.countDraws c.b ((List.range v.count).map (base + ·)) else s
  ⟨s.fileTally c v.d r, true, r⟩

/-- The FP32 destination of an ACC instruction, cleared at repeat 0 of the step where it is declared so (R138). -/
def State.accBase (s : State) (c : Ctx) : State :=
  let x := s.tref c.i.dst c.rep c.n
  let t := s.ten x.t
  if t.desc.clr && t.cleared != c.n + 1 then
    let s := s.clearView (s.destView x.t c.i.spec)
    s.modTen x.t fun r => { r with cleared := c.n + 1 }
  else s

/-- Whether every repeat adds into the same element (R139). -/
def Ctx.shares (c : Ctx) : Bool := c.i.acc && !c.i.dst.rot && !c.i.dst.rep

/-- Terms an instruction sums per output element in the step: multiplied by Repeats when every repeat adds into the same
element (R139). -/
def Ctx.terms (c : Ctx) (k : Nat) : Nat := if c.shares then k * c.g.repeats else k

/-- Whether an instruction's additions round stochastically (R77, R139). -/
def Ctx.stoAcc (c : Ctx) (k : Nat) : Bool := 65536 < c.terms k

/-- The draw of the `j`-th addition of the step into accumulator element `o`: o × J + j, J being the term count of R139 (R143). -/
def Ctx.drawOf (c : Ctx) (k o j : Nat) : Nat := o * c.terms k + j

/-- The draw of the `j`-th addition of this firing into accumulator element `o`, where a firing makes `per` of them (R143, log 123). -/
def Ctx.drawAt (c : Ctx) (k per o j : Nat) : Nat := c.drawOf k o ((if c.shares then c.rep * per else 0) + j)

/-- The rounding of the `j`-th addition of the step into element `o`. -/
def State.drawRnd (s : State) (c : Ctx) (k o j : Nat) : Rnd :=
  if !c.stoAcc k then .rne
  else match s.roundStm c with
    | none => .rne
    | some m => .sto (m.half (c.drawOf k o j))

/-- The rounding of the `j`-th addition of this firing. -/
def State.accRnd (s : State) (c : Ctx) (k per o j : Nat) : Rnd := s.drawRnd c k o ((if c.shares then c.rep * per else 0) + j)

/-- The draws of a firing that makes `per` additions into each of `n` elements, counted where they are made (R150). -/
def State.countAdds (s : State) (c : Ctx) (k per n : Nat) : State :=
  if c.stoAcc k then s.countDraws c.b ((List.range n).flatMap fun o => (List.range per).map (c.drawAt k per o)) else s

/-- A sum added into an existing FP32 value (R138). -/
def addRnd (r : Rnd) (a b : Val) : Val := ⟨(a.num.add b.num).round32With r, a.pois || b.pois⟩

/-- The values of an instruction's destination as they stand, for ACC. -/
def State.dstVals (s : State) (c : Ctx) : List Val :=
  let x := s.tref c.i.dst c.rep c.n
  s.readView (s.destView x.t c.i.spec x.rep)

/-! ## Sources -/

/-- The copy of its destination tensor that a firing writes. -/
def State.dstView (s : State) (c : Ctx) : View :=
  let x := s.tref c.i.dst c.rep c.n
  s.destView x.t c.i.spec x.rep

/-- The view of a source operand. -/
def State.srcView (s : State) (c : Ctx) (o : OpRef) : View := s.refView (s.tref o c.rep c.n)

/-- Scalar slot `n` of the firing stage, as a value (R119): its FP32 bits, with its poison above them (R34). -/
def State.slotVal (s : State) (c : Ctx) (n : Nat) : Val :=
  let x := (s.run c.b c.g.idx).slots.getD n 0
  ⟨dec32 (x % 2 ^ 32), bitAt x 32⟩

/-- A scalar slot written. -/
def State.setSlot (s : State) (c : Ctx) (n : Nat) (v : Val) : State :=
  s.modRun c.b c.g.idx fun r => { r with slots := r.slots.set n (enc32 v.num + b2n v.pois * 2 ^ 32) }

/-- The exact values of an operand for a destination of `n` elements with extents `ext`: a tensor element by element, its zero
strides and extents 1 broadcasting, or a slot for all (R130). -/
def State.operandOf (s : State) (c : Ctx) (o : OpRef) (ext : List Nat) (n : Nat) : List Val :=
  if o.isS then List.replicate n (s.slotVal c o.slot)
  else
    let v := s.srcView c o
    let e := v.ext
    (List.range n).map fun k =>
      s.elem v (linear e (List.zipWith (fun i x => if x = 1 then 0 else i) (coords ext k) e))

/-- The values of an operand as the vector unit reads them (R130). -/
def State.operand (s : State) (c : Ctx) (o : OpRef) (ext : List Nat) (n : Nat) : List Val := (s.operandOf c o ext n).map Val.clamp

/-- The elements of a destination for which the read of some operand clamped a value (R130, log 91). -/
def State.operandBigs (s : State) (c : Ctx) (l : List OpRef) (ext : List Nat) (n : Nat) : List Bool :=
  l.foldl (fun b o => if o.isT then List.zipWith (· || ·) b ((s.operandOf c o ext n).map Val.big) else b) (List.replicate n false)

/-! ## A block begins a step -/

/-- A tensor's layout and plan as they stand: both copies, the live bit and the scales in force (R169). -/
def State.savePlan (s : State) (t : Nat) : PlanSave :=
  let x := s.ten t
  let d := x.desc
  let l := if d.planned then List.range (s.scales d) else []
  { tensor := t, desc := d, live := x.live, entries := l.map (s.planAt d (x.offset false)),
    staged := if d.stgoff = 0 then [] else l.map (s.planAt d (x.offset true)), force := x.force }

/-- A saved layout and plan put back; a change that was taken since waits again. -/
def State.restorePlan (s : State) (p : PlanSave) : State :=
  let s := s.modTen p.tensor fun x =>
    { x with desc := p.desc, later := if x.desc = p.desc then x.later else x.took, live := p.live, force := p.force, written := [] }
  let x := s.ten p.tensor
  let d := x.desc
  let s := s.setPlans d (x.offset false) p.entries
  if d.stgoff = 0 then s else s.setPlans d (x.offset true) p.staged

/-- The retained queues that the stages of a block read. -/
def State.readQueues (s : State) (b : Nat) : List Nat :=
  ((s.stages b).flatMap fun g => g.prog.filterMap fun i => if i.isRecv then some i.srcA.queue else none).eraseDups

/-- The stages of a block set to repeat 0 of step `n`, with their slots at +0 (R119, R120). A block that runs ahead of a verdict
first keeps its tensors' layouts and plans (R169), and its retained queues take their second mark (R233). -/
def State.beginStep (s : State) (b n : Nat) : State :=
  let ahead := n == s.gov.step + 1
  let saves := if ahead then (s.writtenBy b).map s.savePlan else []
  let runs : Map StageRun := (s.stages b).foldl (fun m g => put g.idx { atRest := false } m) []
  let len := (look {} b s.job.rblocks).seq.length
  let s := s.modBlk b fun x =>
    { x with step := n, pos0 := if 1 < len && x.step < n then x.pos0 + len else x.pos0, stages := runs, firstFire := none, sealWait := false, arrNow := [],
             saved := if ahead then some (n, saves) else none }
  let s := (s.writtenBy b).foldl (fun s t => s.modTen t fun x => { x with force := [], written := [], filled := [] }) s
  if ahead then (s.readQueues b).foldl State.consumerStarts s else s

end Sys2Proof.Machine
end

