-- ==== Sys2Proof/Machine/DroverOps.lean ====
section
/-! DEFINITION. Drover messages (R292-R303): lanes, routes, what every receiver checks, and what is sent. -/

namespace Sys2Proof.Machine

/-- Message types (R300). -/
def mHead : Nat := 0x01
def mGrant : Nat := 0x02
def mGrad : Nat := 0x03
def mParam : Nat := 0x04
def mRing : Nat := 0x05
def mRingFinal : Nat := 0x06
def mVote : Nat := 0x10
def mVerdict : Nat := 0x11
def mFault : Nat := 0x12
def mStop : Nat := 0x13
def mRestart : Nat := 0x14
def mRestartAck : Nat := 0x15
def mForm : Nat := 0x20
def mFormAck : Nat := 0x21
def mProbe : Nat := 0x22
def mProbeReply : Nat := 0x23
def mFormed : Nat := 0x24

/-- Whether a type is one of R300. -/
def msgListed (t : Nat) : Bool := (1 ≤ t && t ≤ 6) || (0x10 ≤ t && t ≤ 0x15) || (0x20 ≤ t && t ≤ 0x24)

/-- Whether a type belongs to a fold. -/
def msgOfFold (t : Nat) : Bool := 1 ≤ t && t ≤ 6

/-! ## Roles -/

/-- The verdict manager: the top manager, or the only manager (R319). -/
def State.isVerdictManager (s : State) : Bool := s.drv.role == 3 || (s.drv.role == 2 && s.job.flock.flocks ≤ 1)

/-- A manager of a tier-1 flock. -/
def State.isManager (s : State) : Bool := s.drv.role == 2 || s.drv.role == 3

/-- The manager of this module's tier-1 flock (R293). -/
def State.managerDev (s : State) : Nat := s.drv.device / 256 * 256

/-- The other members of the tier-1 flock. -/
def State.otherMembers (s : State) : List Nat := (s.job.flock.members.map (·.1)).filter (· != s.drv.device)

/-- The other managers of a tier-2 flock, as the top manager addresses them. -/
def State.otherManagers (s : State) : List Nat := (List.range (s.job.flock.flocks - 1)).map fun f => (f + 1) * 256

/-- A fold's members as this module reads them (R260, R295). -/
def State.foldMembers (s : State) (f : Fold) : List Nat :=
  f.members.map fun d => if s.job.flock.flocks > 1 then s.drv.device / 256 * 256 + d % 256 else d

/-- The fold of a number, if this module is a member. -/
def State.fold? (s : State) (n : Nat) : Option Fold :=
  s.job.folds.find? fun f => f.fold == n && (s.foldMembers f).contains s.drv.device

/-! ## Sending -/

/-- The port of the first hop to a device (R302). -/
def State.route (s : State) (dev : Nat) : Nat := ((s.job.flock.routes.find? fun r => r.1 == dev).map (·.2)).getD 0xFF

/-- A message completed with this module's number, its send time, the epoch and the payload CRC (R299). -/
def State.dmsg (s : State) (m : DMsg) : DMsg :=
  { m with src := s.drv.device, time := s.localTime (srcDrover 0) 0, epoch := s.drv.epoch,
           pcrc := if m.payload.isEmpty then 0 else crc32c m.payload }

/-- A message sent to its destination. -/
def State.post (s : State) (m : DMsg) : State := s.send (.drover (s.route m.dst) (laneOf m) (s.dmsg m))

/-- A message flooded into ports, all but the one it came from. -/
def State.flood (s : State) (ports : List Nat) (from' : Option Nat) (m : DMsg) : State :=
  s.sendAll ((ports.filter fun p => some p != from').map fun p => .drover p (laneOf m) m)

/-- Bytes of a message on a link. -/
def msgBytes (m : DMsg) : Nat := 64 + m.payload.length

/-! ## Receiving -/

/-- Whether a port delivers messages: the module is up in P0 and the link is up. -/
def State.portUp (s : State) (p : Nat) : Bool :=
  s.board.powerGood && s.glb.mstate != .off && s.pwr.state == 0 && !s.board.gated && (s.port p).st == 2

/-- Whether the flock's work goes on here: the job runs, or starts, and issue has not been stopped. -/
def State.flockActive (s : State) : Bool :=
  (s.glb.mstate == .running || (s.glb.mstate == .ready && s.glb.jobStarting)) && !s.err.stopIssue

/-- Entries of `n` bytes that stand in a payload from an offset on, as many as a count says. -/
def entriesAt (p : List Byte) (o n count : Nat) : List (List Byte) := pieces n ((p.drop o).take (n * count))

/-- Whether a reserved field of a VOTE payload is not 0 (R320). -/
def voteRsv (p : List Byte) : Bool :=
  let nr := leAt p 0x28 4
  leAt p 0 4 / 4 != 0 || leAt p 0x30 16 != 0 || (entriesAt p 64 24 nr).any (fun e => leAt e 0x14 4 != 0) ||
  (entriesAt p (64 + 24 * nr) 16 (leAt p 0x2C 4)).any fun e => leAt e 2 2 / 4 != 0

/-- Whether a reserved field of a VERDICT payload is not 0 (R323). -/
def verdictRsv (p : List Byte) : Bool :=
  let nd := leAt p 8 4
  leAt p 1 1 / 4 != 0 || leAt p 2 2 != 0 || (entriesAt p 16 8 nd).any (fun e => leAt e 5 3 != 0) ||
  (entriesAt p (16 + 8 * nd) 8 (leAt p 0xC 4)).any fun e => leAt e 3 1 != 0

/-- Whether a reserved field of a message is not 0: the header's flags, and those of the payload (R299, R320, R323). -/
def msgRsv (m : DMsg) : Bool :=
  m.rsv != 0 || (m.type == mVote && voteRsv m.payload) || (m.type == mVerdict && verdictRsv m.payload)

/-- Whether a message names a fold that it must not: a member's fold for a message of a fold, 0xFF for any other. A module that only
sends a message on need not be a member of its fold (R302, log 105). -/
def State.badFold (s : State) (m : DMsg) : Bool :=
  if msgOfFold m.type then (m.mcast || m.dst == s.drv.device) && (s.fold? m.fold).isNone else m.fold != 0xFF

/-- The three cases of R300 in which a message is discarded; of a message for another device only the header is read (R302). -/
def State.badMsg (s : State) (m : DMsg) : Bool :=
  !msgListed m.type || m.rsv != 0 || ((m.mcast || m.dst == s.drv.device) && msgRsv m) || s.badFold m

/-- A message discarded under R300: counted, and logged once for each source. -/
def State.dropBad (s : State) (port : Nat) (m : DMsg) : State :=
  let s := s.count 16 0 8 1
  if s.drv.badSrc.contains m.src then s
  else
    let s := { s with drv := { s.drv with badSrc := insertN m.src s.drv.badSrc } }
    raise s (faultCode 3 IMAGE_FORMAT 0x41) (srcDrover (port / 8)) m.src

/-- Whether a message goes down the control tree to the one member it is for: FORMED of this flock's manager (R296, log 49). -/
def State.treeBound (s : State) (m : DMsg) : Bool :=
  m.type == mFormed && m.src == s.managerDev && m.dst / 256 == s.drv.device / 256

/-- The ports by which a message for another device leaves: that of this module's routes, or the other edges of the control tree
(R296, R302). -/
def State.waysOn (s : State) (from' : Option Nat) (m : DMsg) : List Nat :=
  if s.treeBound m then s.job.flock.ctrlTree.filter fun p => some p != from' else [s.route m.dst]

/-- A message for another device goes on, on the same lane (R302). -/
def State.passOn (s : State) (from' : Option Nat) (m : DMsg) : State :=
  let l := s.waysOn from' m
  (s.sendAll (l.map fun p => .drover p (laneOf m) m)).count 16 0 7 (msgBytes m * l.length)

/-- The control tree and a fold's tree (R313, R323). -/
def State.treeOf (s : State) (m : DMsg) : List Nat :=
  if m.type = mParam then ((s.fold? m.fold).map (·.tree)).getD [] else s.job.flock.ctrlTree

/-- A message flooded on, out of every edge of its tree but the one it came in by (R313). -/
def State.floodOn (s : State) (port : Nat) (m : DMsg) : State :=
  (s.flood (s.treeOf m) (some port) m).count 16 0 7 (msgBytes m * ((s.treeOf m).filter (· != port)).length)

/-- Whether a message has gone on already, block by block as it came in (R302). -/
def State.gone (s : State) (port : Nat) (m : DMsg) : Bool := (s.port port).sentOn.contains (DMsgBytes m)

/-- A message of the verdict manager goes on: down the control tree where it has not gone already, from a manager to its tree (R323, R326,
R327). -/
def State.sendDown (s : State) (port : Nat) (m : DMsg) (gone : Bool) : State :=
  if !m.mcast then s.flood s.job.flock.ctrlTree none (s.dmsg { m with mcast := true, dst := 0 })
  else if gone then s
  else s.floodOn port m

/-- Whether the payload passes its CRC (R299, R303). -/
def payloadOk (m : DMsg) : Bool := m.pcrc == if m.payload.isEmpty then 0 else crc32c m.payload

/-- Whether a message has passed its epoch (R324). -/
def State.stale (s : State) (m : DMsg) : Bool := msgOfFold m.type && m.epoch < s.drv.epoch

/-- The row that a Drover message belongs to by its type (R300). -/
def droverInstr (port : Nat) (m : DMsg) : Instr :=
  match m.type with
  | 0x01 => .head port m
  | 0x02 => .grant port m
  | 0x03 => .grad port m
  | 0x04 => .param port ⟨m, {}⟩
  | 0x05 => .ring port m
  | 0x06 => .ringFinal port m
  | 0x10 => .vote port m
  | 0x11 => .verdict port m
  | 0x12 => .fault port m
  | 0x13 => .stop port m
  | 0x14 => .restart port ⟨m, {}⟩
  | 0x15 => .restartAck port m
  | 0x20 => .form port m
  | 0x21 => .formAck port m
  | 0x22 => .probe port m
  | 0x23 => .probeReply port m
  | 0x24 => .formed port m
  | _ => .badDroverMessage port m

/-- A message as every receiver treats it: held in P1 and P2, as the row `i` that it is (R430), discarded under R300, sent on under R302, checked under R303, dropped under R324,
or given to its meaning. A halted module discards it (R496). A command whose message is of another type, or whose port is not up, is no event (log 9). -/
def State.droverIn (s : State) (port : Nat) (m : DMsg) (type : Nat) (run : State → State) (i : Instr := droverInstr port m) : State :=
  if m.type = type && port < 32 && s.heldAt port then s.hold i
  else if m.type != type || !s.portUp port then s
  else
  let gone := s.gone port m
  let s := s.taken port (DMsgBytes m)
  if s.glb.halted then s
  else if s.badMsg m then s.dropBad port m
  else if !m.mcast && m.dst != s.drv.device then (if gone then s else s.passOn (some port) m)
  else if !payloadOk m then raise s (faultCode 3 CRC_EXHAUST 0x30) (srcDrover (port / 8)) m.src
  else if s.stale m then s.count 16 0 3 1
  else run s

/-- The ports by which a message leaves again whose first bytes came in by a port: by ROUTES where it is for another device, the other edges
of its tree where it is flooded; none for a message that stays, or that is discarded (R300, R302, R313, R324, R496). Only link control and the
management bulk lane carry anything but messages of Drover. -/
def State.onwardOf (s : State) (port lane : Nat) (first : List Byte) : Option (List Nat) :=
  let m := readDMsg first
  if 32 ≤ port || 65 ≤ lane || !headerOk first || s.glb.halted || !s.portUp port || !msgListed m.type || m.rsv != 0 || s.badFold m then none
  else if !m.mcast then (if m.dst = s.drv.device then none else some (s.waysOn (some port) m))
  else if s.stale m || !([mParam, mVerdict, mStop, mRestart].contains m.type) then none
  else some ((s.treeOf m).filter (· != port))

/-- Rounding of a value to FP32 bits, nearest even. -/
def toBits (x : Number) : Nat := enc32 x.r32

/-- Two FP32 bit patterns added. -/
def addBits (a b : Nat) : Nat := enc32 (fadd (dec32 a) (dec32 b))

/-- A wait record, written when the wait was of 100 ns or longer (R482); its start was stamped where the wait was (R38). -/
def State.waitRec (s : State) (region : Nat) (r : TRec) : State :=
  let d := s.board.time - r.start
  if d < 100 then s else s.trace region { r with start := r.start + Config.late r.start r.src r.kind % 5, dur := Min.min max32 d }

/-- The records of waits that have ended, as far as they have been dated: code, block, stage and what is awaited (R238, R482). -/
def State.endWaits (s : State) (ended : List (Nat × Nat × Nat × Nat)) (rec : Nat × Nat × Nat × Nat → TRec) : State :=
  ended.foldl (fun s x =>
    match (s.rgn 0).waits.find? fun y => y.1 == x.1 && y.2.1 == x.2.1 && y.2.2.1 == x.2.2.1 && y.2.2.2.1 == x.2.2.2 with
    | some y => s.waitRec (regionOf x.2.1) { rec x with src := srcBlock x.2.1, stage := x.2.2.1, start := y.2.2.2.2 }
    | none => s) s

/-- The home region of a layer (R155). -/
def State.home (s : State) (layer : Nat) : Nat := s.job.homes.getD layer 0

/-- Block cycles waited for working copies, as far as the waits have been dated, counted as they end (R283, R476). -/
def State.countCopyWaits (s : State) (ended : List (Nat × Nat × Nat × Nat)) : State :=
  ended.foldl (fun s x =>
    match (s.rgn 0).waits.find? fun y => y.1 == x.1 && y.2.1 == x.2.1 && y.2.2.1 == x.2.2.1 && y.2.2.2.1 == x.2.2.2 with
    | some y => s.count 4 x.2.1 3 (cyclesIn (s.blk x.2.1).mhz (s.board.time - y.2.2.2.2))
    | none => s) s

/-- The Drover slice of a module that takes part in a layer: the layer's home here, and one that nothing shows of another module (log 90). -/
def State.sliceOf (s : State) (dev layer : Nat) : Nat := srcDrover (if dev = s.drv.device then s.home layer else Config.slice dev layer % 4)

/-- The object of a wait record by queue or layer with a step (R482). -/
def waitObj (o step : Nat) : Nat := o + step % 2 ^ 32 * 2 ^ 32

/-- The record of a dated wait that a stop ends (flag [1]): the kind by what is awaited, a queue's by whether the stage reads it. -/
def State.stoppedWait (s : State) (x : Nat × Nat × Nat × Nat × Nat) : Option TRec :=
  let (d, b, st, o, since) := x
  let base : TRec := { kind := 0x01, flags := 2, src := srcBlock b, stage := st, start := since, obj := o }
  if d = 6 then some { base with kind := 0x06 }
  else if d = 8 then some { base with kind := 0x08 }
  else if 2 ≤ d && d ≤ 4 then some { base with kind := 0x02, detail := d, obj := waitObj o (s.blk b).step }
  else if d ≤ 1 then
    match s.queue? o with
    | some q =>
      if q.ent.consumer = some (.stage b st) then some { base with obj := waitObj o (s.blk b).step }
      else
        let bar := match q.reqs.head?.bind (s.grantBar q) with
          | some 2 => 0x03
          | some 3 => 0x04
          | _ => 0x02
        some { base with kind := 0x02, detail := bar, obj := waitObj o (s.blk b).step }
    | none => none
  else none

/-- The seals, stalled transfers, heads, reorder entries and votes that a stop finds waiting, each with the region of its record. -/
def State.stoppedSeals (s : State) : List (Nat × TRec) :=
  s.hosting.flatMap fun b =>
    ((s.stages b).filter fun g => (s.run b g.idx).sealFired).map (fun g =>
      (regionOf b, { kind := 0x03, flags := 2, src := srcBlock b, stage := g.idx, start := (s.run b g.idx).sealAt,
                     obj := waitObj g.layer (s.blk b).step })) ++
    ((s.blk b).xfer.map fun x => (regionOf b, { kind := 0x07, flags := 2, src := srcBlock b, stage := x.stage, start := x.since, obj := x.page })).toList

def State.stoppedDrover (s : State) : List (Nat × TRec) :=
  let one (layer chunk step since detail : Nat) : Nat × TRec :=
    (s.home layer, { kind := 0x05, flags := 2, src := srcDrover (s.home layer), start := since, detail := detail,
                     obj := chunk + layer * 2 ^ 16 + step % 2 ^ 32 * 2 ^ 32 })
  ((s.drv.reorder.filter fun e => !e.tier1).map fun e => one e.layer e.chunk e.step e.since 0x01) ++
  ((s.drv.outHeads.filter fun h => h.sent).map fun h => one h.layer h.chunk h.step h.since 0x02) ++
  (s.drv.voteFrom.map fun t => (0, { kind := 0x04, flags := 2, start := t, detail := 0x01, obj := s.gov.step })).toList ++
  (if s.upd.awaiting then [(0, { kind := 0x04, flags := 2, start := s.gov.voteTime, detail := 0x02, obj := s.gov.step })] else [])

/-- Every wait of 100 ns or longer that a stop ends gets its record, with flag [1] and nobody awaited (R481, R482; log 90). -/
def State.stopWaits (s : State) : State :=
  let s := s.countCopyWaits (((s.rgn 0).waits.filter fun y => y.1 == 6).map fun y => (y.1, y.2.1, y.2.2.1, y.2.2.2.1))
  let l := ((s.rgn 0).waits.filterMap fun x => (s.stoppedWait x).map fun r => (regionOf x.2.1, r)) ++ s.stoppedSeals ++ s.stoppedDrover
  (l.foldl (fun s x => s.waitRec x.1 x.2) s).modRgn 0 fun g => { g with waits := [] }

/-- The waits for sources of a code that were there in an earlier state and are over. -/
def State.sourcesCame (s old : State) (code : Nat) : List (Nat × Nat × Nat × Nat) :=
  let now := s.sourceWaits
  old.sourceWaits.filter fun x => x.1 == code && !now.contains x

/-- The records of the blocks whose working copies have become whole since an earlier state, and their cycles; the message that filled them
came from a device and over a port, if it was one (R283, R476, R482). -/
def State.endCopyWaits (s old : State) (from' : Option (Nat × Nat)) : State :=
  (s.countCopyWaits (s.sourcesCame old 6)).endWaits (s.sourcesCame old 6) fun x =>
    match from' with
    | some (dev, port) => { kind := 0x06, flags := 4, awSrc := srcDrover (port / 8 % 4), awDev := dev, obj := x.2.2.2 }
    | none => { kind := 0x06, obj := x.2.2.2 }

/-- The records of the blocks whose late prefetches have come since an earlier state (R149, R482). -/
def State.endPrefetchWaits (s old : State) : State := s.endWaits (s.sourcesCame old 8) fun x => { kind := 0x08, obj := x.2.2.2 }

end Sys2Proof.Machine
end

