-- ==== Sys2Proof/Machine/Masters.lean ====
section
/-! DEFINITION. The tensors of the training step: masters and their layers (R270, R304), what belongs to a master (R271, R274, R282),
owned elements (R260), governed pairs and their formats (R151, R157), and footprints (R174, R252, R534). -/

namespace Sys2Proof.Machine

/-- Two numbers kept as one key. -/
def govKey (layer role : Nat) : Nat := layer * 4 + role

/-- The policy entry of a (layer, role) (R157). -/
def State.policy (s : State) (layer role : Nat) : Option PrecEntry := s.job.govs.find? fun e => e.layer == layer && e.role == role

/-- Whether a layer is marked privileged (R178). -/
def State.privileged (s : State) (layer : Nat) : Bool :=
  match s.policy layer 0 with
  | some e => e.privileged
  | none => false

/-- The update profile of a layer (R275). -/
def State.profile (s : State) (layer : Nat) : Option Profile := s.job.flock.profiles.find? fun p => p.layer == layer

/-- A tensor's TENSOR_TABLE descriptor. -/
def State.desc (s : State) (t : Nat) : Desc := (look ({} : TEntry) t s.job.tensors).desc

/-- The layers bound to folds this module belongs to (R270, R295). -/
def State.boundLayers (s : State) : List (Fold × FoldLayer) :=
  (s.job.folds.filter fun f => (s.foldMembers f).contains s.drv.device).flatMap fun f => f.layers.map fun l => (f, l)

/-- The master tensors of a layer, in the order of R304. -/
def State.mastersOf (s : State) (layer : Nat) : List Nat :=
  (s.boundLayers.filter fun x => x.2.layer == layer).flatMap fun x => x.2.tensors

/-- Every master tensor of this module's folds with its layer. -/
def State.masters (s : State) : List (Nat × Nat) := s.boundLayers.flatMap fun x => x.2.tensors.map fun t => (x.2.layer, t)

/-- Elements of a tensor as it would be dense (R181). -/
def Desc.denseCount (d : Desc) : Nat := if d.sparse = 1 then 2 * d.count else if d.sparse = 2 then 4 * d.count else d.count

/-- Optimiser-state tensors of an optimiser (R274). -/
def stateCount (opt : Nat) : Nat := if opt = 0 then 1 else 2

/-- The masters of the same layer and element count, ascending. -/
def State.peers (s : State) (layer t : Nat) : List Nat :=
  ((s.mastersOf layer).filter fun u => (s.desc u).count == (s.desc t).count).foldl (fun l u => insertN u l) []

/-- Whether a tensor of a role may belong to a master: optimiser state has its shape (R177); a working copy, which may be compressed or
transposed, its element count (R181, R271). -/
def State.suits (s : State) (t role : Nat) (d : Desc) : Bool :=
  if role = 3 then d.ext == (s.desc t).ext else d.denseCount == (s.desc t).count

/-- The `per` pair heads of a role that belong to a master: of equal layer and shape, dealt to the masters in ascending
order (the manual names no other bond; DEDUCED, log 22). -/
def State.belonging (s : State) (layer t role per : Nat) : List Nat :=
  let all := (s.job.tensors.filter fun e => e.2.pairHead && e.2.desc.role == role && e.2.desc.layer == layer &&
    s.suits t role e.2.desc && !(s.mastersOf layer).contains e.1).map (·.1)
  let k := (((s.peers layer t).filter fun u => role != 3 || (s.desc u).ext == (s.desc t).ext).findIdx (· == t))
  (all.drop (k * per)).take per

/-- The optimiser-state tensors of a master, first and second (R274, R285). -/
def State.stateTensors (s : State) (layer t : Nat) : List Nat :=
  match s.profile layer with
  | some p => (s.belonging layer t 3 (stateCount p.opt + b2n !(s.privileged layer))).take (stateCount p.opt)
  | none => []

/-- The remainder tensor of a master (R177). -/
def State.remainderOf (s : State) (layer t : Nat) : Option Nat :=
  match s.profile layer with
  | some p => if s.privileged layer then none else (s.belonging layer t 3 (stateCount p.opt + 1))[stateCount p.opt]?
  | none => none

/-- The working copies of a master, the forward one first (R271). -/
def State.copiesOf (s : State) (layer t : Nat) : List Nat :=
  let all := (s.job.tensors.filter fun e => e.2.pairHead && e.2.desc.role == 0 && e.2.desc.layer == layer &&
    e.2.desc.denseCount == (s.desc t).count && !(s.mastersOf layer).contains e.1).length
  s.belonging layer t 0 (all / Nat.max 1 (s.peers layer t).length)

/-- The master and the layer that a working copy serves, with its place among the copies. -/
def State.copyOf (s : State) (t : Nat) : Option (Nat × Nat × Nat) :=
  s.masters.findSome? fun (l, m) =>
    let c := s.copiesOf l m
    if c.contains t then some (l, m, c.findIdx (· == t)) else none

/-- Every remainder tensor of the job: exempt from width decisions (R177). -/
def State.remainders (s : State) : List Nat := s.masters.filterMap fun (l, m) => s.remainderOf l m

/-- The buffer entry of a pair's head. -/
def bufOf (head l : Nat) : Nat := head + l


/-! ## Governed tensors and formats -/

/-- The format word of a policy entry at a class code. -/
def PrecEntry.fmtAt (e : PrecEntry) (cls : Nat) : Nat := match cls with | 0 => e.fmt4 | 1 => e.fmt8 | _ => e.fmt16

/-- A format word with RND = 1 where the entry has gradients round stochastically (R77, R157). -/
def PrecEntry.rnd (e : PrecEntry) (w : Nat) : Nat := if e.role == 2 && e.stochastic && fwRnd w == 0 then w + 256 else w

/-- The format word at a class with a scale-block size (R172). -/
def PrecEntry.word (e : PrecEntry) (cls size : Nat) : Nat :=
  let w := e.rnd (e.fmtAt cls)
  if fwBsz w = 0 then w else fwWith w (fwFmt w) size

/-- The tensors of a governed (layer, role), remainders apart (R151, R177). -/
def State.governedTensors (s : State) (layer role : Nat) : List Nat :=
  (s.job.tensors.filter fun e => e.2.desc.role == role && e.2.desc.layer == layer &&
    !s.remainders.contains (e.1 - b2n e.2.pairTail)).map (·.1)

/-- Whether a scale-block size is allowed for a (layer, role): in the mask and dividing EXT0 of every tensor (R172). -/
def State.sizeAllowed (s : State) (e : PrecEntry) (code : Nat) : Bool :=
  1 ≤ code && code ≤ 4 && bitAt e.sizes (code - 1) &&
  (s.governedTensors e.layer e.role).all fun t => (s.desc t).e 0 % bszElems code == 0

/-- The next allowed size below or above (R172). -/
def State.nextSize (s : State) (e : PrecEntry) (code : Nat) (up : Bool) : Option Nat :=
  (if up then [1, 2, 3, 4].filter (code < ·) else [4, 3, 2, 1].filter (· < code)).find? (s.sizeAllowed e)

/-! ## Footprints -/

/-- Ranges of a descriptor's footprint: (start, length) (R252). -/
def Desc.ranges (d : Desc) : List (Nat × Nat) :=
  let r := [(d.base, d.dataLen)] ++ (if d.bs = 0 then [] else [(d.sbase, d.nScale)]) ++
    (if d.planned then [(d.pbase, 2 * d.nScale)] else [])
  if d.stgoff = 0 then r else r ++ r.map fun x => (x.1 + d.stgoff, x.2)

/-- Bytes that a set of ranges covers, counted once: the ranges ascending by start, `from'` the end of what is counted. -/
def coverage : Nat → List (Nat × Nat) → Nat
  | _, [] => 0
  | from', (a, n) :: r =>
    let lo := Nat.max from' a
    (a + n - lo) + coverage (Nat.max from' (a + n)) r

/-- A range put in order by start. -/
def insertRange (x : Nat × Nat) : List (Nat × Nat) → List (Nat × Nat)
  | [] => [x]
  | y :: r => if x.1 ≤ y.1 then x :: y :: r else y :: insertRange x r

/-- Bytes of a block store (R24). -/
def storeBytes : Nat := 5 * 2 ^ 20

/-- The free margin of a block: store bytes that no tensor's footprint occupies at its load-time format (R174). -/
def State.freeMargin (s : State) (b : Nat) : Nat :=
  let l := (s.job.tensors.filter fun e => e.2.desc.tier == 0 && e.2.desc.block == b).flatMap fun e => e.2.desc.ranges
  storeBytes - coverage 0 (l.foldr insertRange [])

/-- Bytes of a block-store tensor at a format word, staging and plans included (R174). -/
def bytesAt (d : Desc) (fw : Nat) (planned : Bool) : Nat :=
  let n := d.count
  let data := ceilDiv (n * fwWidth fw) 8
  let sc := if fwBlock fw = 0 then 0 else n / fwBlock fw
  (if d.stgoff = 0 then 1 else 2) * (data + sc + (if planned then 2 * sc else 0))

/-- A value rounded up to a multiple of 64. -/
def up64 (n : Nat) : Nat := ceilDiv n 64 * 64

/-- The strides of the dense layout of R534 for dimensions 2 to 5. -/
def denseStrides : Nat → List Nat → List Nat
  | _, [] => []
  | s, e :: r => s :: denseStrides (s * e) r

/-- A descriptor in the layout that R534 gives it at a format word. -/
def Desc.relaid (d : Desc) (fw : Nat) : Desc :=
  let s1 := up64 (ceilDiv (d.e 0 * fwWidth fw) 8)
  let str := 0 :: denseStrides s1 [d.e 1, d.e 2, d.e 3, d.e 4, d.e 5]
  let d1 := { d with fmtw := fw, str := str, gw := if d.gw = 0 then d.w else d.gw }
  if fwBlock fw = 0 then { d1 with sbase := 0, pbase := 0 }
  else
    let sb := d.base + up64 d1.dataLen
    let d2 := { d1 with sbase := sb }
    { d2 with pbase := sb + up64 d2.nScale }

/-- Bytes from the first to the last that a module's owned granules take: each stands at its rank position (R260, R534). -/
def State.ownedBytes (s : State) (d : Desc) : Nat :=
  match (s.ownedRanges d).reverse with
  | [] => 0
  | x :: r => r.length * d.granuleStep + ceilDiv (x.2 * d.w) 8

/-- A tensor's descriptor in the layout that R534 gives it at a format word: a distributed one keeps dense strides, and its scales and
plans follow what this module backs. -/
def State.relaid (s : State) (d : Desc) (fw : Nat) : Desc :=
  if d.owner = none20 then d.relaid fw
  else
    let str := 0 :: denseStrides (d.e 0 * fwWidth fw / 8) [d.e 1, d.e 2, d.e 3, d.e 4, d.e 5]
    let d1 := { d with fmtw := fw, str := str, gw := if d.gw = 0 then d.w else d.gw }
    if fwBlock fw = 0 then { d1 with sbase := 0, pbase := 0 }
    else
      let sb := d.base + up64 (s.ownedBytes d1)
      { d1 with sbase := sb, pbase := sb + up64 (s.scales d1) }

end Sys2Proof.Machine
end

