-- ==== Sys2Proof/Machine/Seals.lean ====
section
/-! DEFINITION. SEAL LAYER and the layer verdict (R144, R155, R160-R165), SEAL STEP (R146), and the layer switch of a time-shared
block with its prefetch (R147-R149). -/

namespace Sys2Proof.Machine

/-- A key of Tally taken apart (R152). -/
def keyLayer (k : Nat) : Nat := k / 32
def keyRole (k : Nat) : Nat := k / 4 % 8
def keyDir (k : Nat) : Nat := k % 4

/-- Whether a key belongs to a layer and a direction. -/
def keyOf (layer dir k : Nat) : Bool := keyLayer k == layer && keyDir k == dir

/-! ## SEAL LAYER -/

/-- Records moved from one table to another. -/
def moveRecs (p : Nat → Bool) (from' dest : Map TallyRec) : Map TallyRec × Map TallyRec :=
  (from'.filter fun e => !p e.1, (from'.filter fun e => p e.1).foldl (fun m e => addRec e.1 e.2 m) dest)

/-- SEAL LAYER fires: the records of the stage's keys go to the region aggregator, and the stage waits for the verdict (R144,
R155). -/
def sealLayerFire (c : Ctx) (s : State) : State :=
  let s := s.startFire c
  let r := regionOf c.b
  let x := s.blk c.b
  let g := s.rgn r
  let (mine, theirs) := moveRecs (keyOf c.g.layer c.g.dir) x.tally g.tally
  let s := (s.setBlk c.b { x with tally := mine }).setRgn r { g with tally := theirs }
  s.modRun c.b c.g.idx fun y => { y with sealFired := true, sealAt := s.board.time }

def execSealLayer (f : Fire) (s : State) : Host.Outcome State Fault Refusal :=
  match s.ctx? f with
  | some c =>
    if c.i.isSealLayer && s.mayFire c && !(s.run c.b c.g.idx).sealFired then .next (sealLayerFire c (s.eccUpsets c.b f.ups))
    else .next s
  | none => .next s

/-! ## Records on their way to the home region -/

/-- A region's inbox merged into its own records for a layer. -/
def Region.mergeInbox (g : Region) (layer : Nat) : Region :=
  { g with tally := (g.inbox.filter fun e => keyLayer e.2.1 == layer).foldl (fun m e => addRec e.2.1 e.2.2 m) g.tally,
           inbox := g.inbox.filter fun e => keyLayer e.2.1 != layer }

/-- An aggregator merges what it has received for a layer, and forwards its merged records to the layer's home region (R155). -/
def execTallyRecords (region layer : Nat) (s : State) : Host.Outcome State Fault Refusal :=
  let s := s.modRgn region (·.mergeInbox layer)
  let h := s.home layer
  if h = region then .next s
  else
    let recs := (s.rgn region).tally.filter fun e => keyLayer e.1 == layer
    let s := s.modRgn region fun g => { g with tally := g.tally.filter fun e => keyLayer e.1 != layer }
    .next (s.modRgn h fun g => { g with inbox := g.inbox ++ recs.map fun e => (region, e.1, e.2) })

/-! ## The layer verdict -/

/-- The stages of a layer in one direction, with their blocks. -/
def State.layerStages (s : State) (layer : Nat) (back : Bool) : List (Nat × Stage) :=
  s.hosting.flatMap fun b => ((s.stages b).filter fun g => g.layer == layer && g.backward == back).map fun g => (b, g)

/-- Whether every record of a layer and direction has reached the home aggregator. -/
def State.recordsHome (s : State) (layer dir : Nat) : Bool :=
  let h := s.home layer
  [0, 1, 2, 3].all fun r =>
    (r == h || !(s.rgn r).tally.any fun e => keyOf layer dir e.1) && !(s.rgn r).inbox.any fun e => keyOf layer dir e.2.1

/-- Whether a layer awaits its verdict in a direction: its last stage has fired SEAL LAYER (R163). -/
def State.layerReady (s : State) (layer : Nat) (back : Bool) : Bool :=
  let l := s.layerStages layer back
  !l.isEmpty && (l.all fun x => (s.run x.1 x.2.idx).sealFired) && s.recordsHome layer (if back then dirBwd else dirFwd)

/-- Whether n / d is at least a rate held as FP32; a rate with denominator 0 is 0 (R156, R162). -/
def rateGe (n d bits : Nat) : Bool :=
  let n := if d = 0 then 0 else n
  let d := if d = 0 then 1 else d
  match dec32 bits with
  | .fin neg m e => neg || cmpMag n 0 (m * d) e != .lt
  | _ => false

/-- The verdict of R162. -/
def layerVerdict (p : PrecParams) (bad live replays : Nat) : Bool :=
  rateGe bad live p.lreplayRate && replays < p.lreplayMax

/-- Blocks that saturated, ordinarily or fully. -/
def TallyRec.over (r : TallyRec) : Nat := r.satBlk + r.fullBlk

/-- The tensors that the body of a stage names as destinations, both slots of a rotating one. -/
def Stage.bodyDests (g : Stage) : List Nat :=
  ((g.prog.take g.body).flatMap fun i => if i.isRecv then [] else i.dests).eraseDups

/-- The accumulators that the body of a stage adds into. -/
def Stage.bodyAccs (g : Stage) : List Nat :=
  ((g.prog.take g.body).flatMap fun i => if i.acc then i.dst.slots else []).eraseDups

/-- A pass of a tensor commits (R160). A staged tensor's plan entries of unwritten blocks are carried into the copy that becomes
live; an unstaged one's unwritten blocks keep their plan values. -/
def State.commitTensor (s : State) (t : Nat) (staged : Bool) : State :=
  let x := s.ten t
  let d := x.desc
  let s := if staged then
      if !d.planned then s
      else (List.range (s.scales d)).foldl (fun s b =>
        if x.written.contains b then s else s.setPlan d (x.offset true) b (s.planAt d (x.offset false) b)) s
    else x.force.foldl (fun s (b, _, old) =>
      if x.written.contains b then s else s.setPlan d (x.offset false) b ((s.planAt d (x.offset false) b).1, old)) s
  s.modTen t fun y =>
    { y with live := if staged then !y.live else y.live, force := [], written := [], filled := if staged then [none] else y.filled }

/-- Poisoned elements of a tensor's staging copy. -/
def State.stagedPoison (s : State) (t : Nat) : Nat :=
  let v := s.destView t true
  ((List.range v.count).filter fun n => (s.rawElem v n).2.2).length

/-- Poisoned elements of a tensor's live copy. -/
def State.livePoison (s : State) (t : Nat) : Nat :=
  let v := s.destView t false
  ((List.range v.count).filter fun n => (s.rawElem v n).2.2).length

/-- A pass of a tensor is discarded: the scale blocks it wrote take their REPLAY_SC when they are written again (R161). -/
def State.replayTensor (s : State) (t : Nat) (staged : Bool) : State :=
  let x := s.ten t
  let force := x.force.map fun (b, p, old) =>
    if x.written.contains b then (b, (s.planAt x.desc (x.offset staged) b).1, old) else (b, p, old)
  s.modTen t fun y => { y with force := force, written := [] }

/-- The positions of the RECV instructions of a body, which a replay does not execute again (R144). -/
def Stage.recvPositions (g : Stage) : List Nat :=
  (List.range g.sealPos).filter fun p => match g.instr? p with
    | some i => i.isRecv
    | none => false

/-- A stage returned to repeat 0 of its body (R144): staging discarded, poison in it counted (R34), slots and accumulators at +0
again (DEDUCED, log 20). -/
def State.replayStage (s : State) (b : Nat) (g : Stage) : State :=
  let r := s.run b g.idx
  let pois := (r.specWritten.map s.stagedPoison).sum
  let s := s.discard b pois
  let s := g.bodyDests.foldl (fun s t => s.replayTensor t (r.specWritten.contains t)) s
  let s := g.bodyAccs.foldl (fun s t => s.modTen t fun y => { y with cleared := 0 }) s
  let d := g.recvPositions
  let o := settleOldest d d.length 0
  s.setRun b g.idx { oldest := o, doneAt := d.filter fun p => o ≤ p, atRest := false, replayPass := true }

/-- A stage whose layer commits: its destinations commit, SEAL LAYER completes and the tail runs (R144). -/
def State.commitStage (s : State) (b : Nat) (g : Stage) : State :=
  let r := s.run b g.idx
  let s := g.bodyDests.foldl (fun s t => s.commitTensor t (r.specWritten.contains t)) s
  let s := s.setRun b g.idx { (r.complete g r.oldest) with sealFired := false, replayPass := false, specWritten := [], specStat := {} }
  s.restStops b g

/-- The wait of a stage at its seal, counted and recorded (R150, R163, R482). -/
def State.sealWaited (s : State) (b : Nat) (g : Stage) (n detail last : Nat) : State :=
  let r := s.run b g.idx
  let s := s.progress.count 1 b 5 (cyclesIn (s.blk b).mhz (s.board.time - r.sealAt))
  s.waitRec (regionOf b)
    { kind := 0x03, flags := 4, src := srcBlock b, stage := g.idx, start := r.sealAt, awSrc := srcBlock last, awDev := s.drv.device,
      detail := detail, obj := g.layer + n % 2 ^ 32 * 2 ^ 32 }

/-- Records of a pass filed with the governor under their step (R167, R170). -/
def fileRecs (step : Nat) (recs dest : Map TallyRec) : Map TallyRec :=
  recs.foldl (fun m e => addRec (step * 2 ^ 21 + e.1) e.2 m) dest

/-- Whether an execution of step `n` is its first (R170): only the rerun of the oldest step without a verdict is not. -/
def State.firstRun (s : State) (n : Nat) : Bool := n != s.gov.step || s.gov.first

/-- The verdict of a layer in one direction, applied to every stage of the layer on the module (R162-R164). -/
def State.layerVerdictFor (s : State) (layer : Nat) (back : Bool) : State :=
  let stages := s.layerStages layer back
  let n := (stages.head?.map fun x => (s.blk x.1).step).getD 0
  let h := s.home layer
  let dir := if back then dirBwd else dirFwd
  let key := n * 65536 + layer
  let replays := look 0 key s.gov.lreplays
  let stat := stages.foldl (fun a x => a.merge (s.run x.1 x.2.idx).specStat) ({} : TallyRec)
  let again := !back && layerVerdict s.job.prec stat.over stat.liveBlk replays
  let recs := (s.rgn h).tally.filter fun e => keyOf layer dir e.1
  let s := s.modRgn h fun g => { g with tally := g.tally.filter fun e => !keyOf layer dir e.1 }
  let firsts := if s.firstRun n && (back || replays = 0) then fileRecs n recs s.gov.firsts else s.gov.firsts
  let stats := if again then s.gov.stats else fileRecs n recs s.gov.stats
  let s := { s with gov := { s.gov with firsts := firsts, stats := stats } }
  -- whose records came last over the mesh nothing shows (log 90)
  let (v, s) := takeFree s
  let last := ((stages[v % stages.length]?).map (·.1)).getD 0
  let s := s.trace h { kind := 0x12, src := srcRegion h, start := s.localTime (srcRegion h) 0x12, detail := b2n again,
                       obj := layer + n % 2 ^ 32 * 2 ^ 32 }
  let s := stages.foldl (fun s x => s.sealWaited x.1 x.2 n (b2n again) last) s
  if again then
    let s := { s with gov := { s.gov with lreplays := put key (replays + 1) s.gov.lreplays } }
    let s := (s.modRgn h fun g => { g with lreplay := satAdd max32 g.lreplay 1 }).rgnSticky h 2
    stages.foldl (fun s x => s.replayStage x.1 x.2) s
  else stages.foldl (fun s x => s.commitStage x.1 x.2) s

/-- LAYER_VERDICT: the home governor's verdict for a layer whose last stage has sealed and whose records have arrived. -/
def execLayerVerdict (layer : Nat) (s : State) : Host.Outcome State Fault Refusal :=
  if !s.issuing then .next s
  else if s.layerReady layer false then .next (s.layerVerdictFor layer false)
  else if s.layerReady layer true then .next (s.layerVerdictFor layer true)
  else .next s

/-! ## SEAL STEP -/

/-- A block completes SEAL STEP: its step time and array cycles are kept for the verdict, the layer of its last stage is drained, and it
goes on to the next step (R146, R147, R174). -/
def State.sealStepDone (s : State) (b : Nat) : State :=
  let x := s.blk b
  let cyc := match x.firstFire with
    | some t => cyclesIn x.mhz (s.board.time - t)
    | none => 0
  let s := s.progress.setBlk b { x with arrSeal := x.arrNow, sealCyc := cyc }
  let s := match (s.stages b).getLast? with
    | some g => s.layerDrains b g.layer
    | none => s
  s.beginStep b (x.step + 1)

/-- Whether every stage of a block but one rests. -/
def State.othersRest (s : State) (b i : Nat) : Bool := (s.stages b).all fun g => g.idx == i || (s.run b g.idx).atRest

/-- SEAL STEP fires once the block's other stages have ended the step, which the manual does not ask in so many words (DESIGN CHOICE,
log 135): it completes at once, or waits for the verdict of the step before (R146). -/
def execSealStep (f : Fire) (s : State) : Host.Outcome State Fault Refusal :=
  match s.ctx? f with
  | some c =>
    if c.i.isSealStep && s.mayFire c && !(s.blk c.b).sealWait && s.othersRest c.b c.g.idx then
      let s := (s.startFire c).eccUpsets c.b f.ups
      if c.n ≤ s.gov.step then .next (s.sealStepDone c.b)
      else
        -- while a pause is in progress the block's stages have reached their stop points (R491)
        let s := s.modBlk c.b fun x => { x with sealWait := true }
        .next (if s.stop.id.isSome then (s.stages c.b).foldl State.stageStops s else s)
    else .next s
  | none => .next s

/-! ## Layer switching -/

/-- Whether a block has drained its live layer (R147) with the layer's seals committed: its stages rest, what they sent is visible
and what they take has been taken. -/
def State.drained (s : State) (b layer : Nat) : Bool :=
  let mine := (s.stages b).filter fun g => g.layer == layer
  let before := (s.blk b).pos < (s.blk b).pos0
  (before || mine.all fun g => (s.run b g.idx).atRest) && (s.blk b).xfer.isNone &&
  (mine.all fun g => g.writesQueues.all fun q =>
    match s.queue? q with
    | some x => !x.units.any fun u => match u.who with
        | .stage b' st _ => b' == b && st == g.idx
        | _ => false
    | none => true)

/-- The sequence of layers of a block (R148). -/
def State.seqOf (s : State) (b : Nat) : List Nat := (look {} b s.job.rblocks).seq

/-- LAYER_SWITCH: position p + 1 becomes live, and what the half of layer p held is no longer there (R148). -/
def execLayerSwitch (blk : Nat) (s : State) : Host.Outcome State Fault Refusal :=
  let q := s.seqOf blk
  match s.liveLayer blk with
  | some l =>
    let x := s.blk blk
    if 1 < q.length && s.issuing && x.pos + 1 < x.pos0 + q.length && s.drained blk l then
      let half := look {} blk s.job.rblocks
      let lo := half.h0 + x.pos % 2 * half.half
      let gone := x.fetched.filter fun t =>
        let d := (s.ten t).desc
        lo ≤ d.base && d.base < lo + half.half
      .next (s.setBlk blk { x with pos := x.pos + 1, fetched := x.fetched.filter fun t => !gone.contains t })
    else .next s
  | none => .next s

/-- The memory copy that the prefetch of a block-store weight tensor reads: a weight tensor of the layer outside the block
stores, of equal extents (the manual names no source; DESIGN CHOICE, log 21). -/
def State.prefetchSource (s : State) (t n : Nat) : Option Nat :=
  let d := (look {} t s.job.tensors).desc
  let l := s.job.tensors.filter fun e => e.1 != t && e.2.desc.role == 0 && e.2.desc.tier != 0 && e.2.desc.layer == d.layer &&
    e.2.desc.ext == d.ext && !e.2.pairTail
  (l.head?.map (·.1)).map fun u => if s.isPair u then u + s.bufFor n else u

/-- Bytes of a tensor's data range that its contents cover: those of the owned granules of a distributed tensor (R387). -/
def State.imageData (s : State) (d : Desc) : Nat :=
  if d.owner = none20 then d.dataLen else s.ownedCount d * d.w / 8

/-- Clean bytes stored from an address in one write. -/
def State.storeBytes (s : State) (d : Desc) (a : Nat) (l : List Byte) : State :=
  s.writePieces d (l.zipIdx.map fun (b, k) => ⟨a + k, 0, 8, b.toNat, false⟩)

/-- A byte image written into a tensor's live copy: the data range, then the scale range (R387). -/
def State.writeImage (s : State) (t : Nat) (bytes : List Byte) : State :=
  let d := (s.ten t).desc
  let n := s.imageData d
  let s := s.storeBytes d d.base (bytes.take n)
  if d.bs = 0 then s else s.storeBytes d d.sbase (bytes.drop n)

/-- The step of the position that a weight tensor is fetched for, and whether that position is the present or the next one and its half
the one that the tensor lies in (R148). -/
def State.prefetchAim (s : State) (blk tensor : Nat) : Nat × Bool :=
  let q := s.seqOf blk
  let x := s.blk blk
  let d := (s.ten tensor).desc
  let h := look {} blk s.job.rblocks
  let half := if 0 < h.half then (d.base - h.h0) / h.half else 0
  let isNear := some d.layer == q[x.pos % q.length]? && half == x.pos % 2
  let isFar := some d.layer == q[(x.pos + 1) % q.length]? && half == (x.pos + 1) % 2
  (x.step + ((if isNear then x.pos else x.pos + 1) - x.pos0) / q.length, isNear || isFar)

/-- Whether the prefetch of a weight tensor of a block is due and has its source whole (R148, R149, R283). -/
def State.prefetchDue (s : State) (blk tensor : Nat) : Bool :=
  let aim := s.prefetchAim blk tensor
  1 < (s.seqOf blk).length && s.inHalves blk tensor && (s.ten tensor).desc.role == 0 && aim.2 &&
  !(s.blk blk).fetched.contains tensor && s.issuing &&
  match s.prefetchSource tensor aim.1 with
  | some u => (s.ten u).asOf == s.copyNeed aim.1 + 1 || !(look {} u s.job.tensors).pairHead && !(look {} u s.job.tensors).pairTail
  | none => true

/-- What the prefetch of a weight tensor reads and writes (R148). -/
def State.prefetchUnit (s : State) (blk tensor : Nat) : XUnit :=
  let w := s.liveView tensor
  let u := s.joinUnit {} w (List.range w.count) true
  match s.prefetchSource tensor (s.prefetchAim blk tensor).1 with
  | some t => let v := s.liveView t; s.joinUnit u v (List.range v.count) false
  | none => u

/-- The instructions of a block that may fire. -/
def State.mayFireNow (s : State) (b : Nat) : List (Nat × Nat) :=
  (s.stages b).flatMap fun g => ((s.run b g.idx).window g).filterMap fun p =>
    match s.ctx? { blk := b, stage := g.idx, pos := p } with
    | some c => if s.mayFire c then some (g.idx, p) else none
    | none => none

/-- A prefetch was late where an instruction that could not fire can fire now: LATE (R149). -/
def State.noteLate (s old : State) (b : Nat) : State :=
  if (s.mayFireNow b).all fun x => (old.mayFireNow b).contains x then s else s.blkSticky b 5

/-- The weights of a tensor stand in their half, and the bytes read from memory count (R148, R269). -/
def State.prefetch (s : State) (ups : Upsets) (blk tensor : Nat) (u : XUnit) : State :=
  let s := (s.useUnit ups u).count 3 blk 1 (u.reads.eraseDups.length + u.writes.eraseDups.length)
  let s := match s.prefetchSource tensor (s.prefetchAim blk tensor).1 with
    | some t =>
      let v := s.liveView t
      s.writeRaw (s.liveView tensor) 0 ((List.range v.count).map (s.rawEl v))
    | none => match (look ({} : TEntry) tensor s.job.tensors).contents with
      | some l => s.writeImage tensor l
      | none => s
  let s := s.modTen tensor fun y => { y with holds := true }
  ((s.modBlk blk fun y => { y with fetched := insertN tensor y.fetched }).noteLate s blk).endPrefetchWaits s

/-- PREFETCH_COMPLETE: the weights of the tensor stand in their half (R148, R149, R283). While a page of their source is not resident the
prefetch is not complete: the page is asked for (R261, R266). -/
def execPrefetchComplete (blk : Nat) (tensor : Met Nat) (s : State) : Host.Outcome State Fault Refusal :=
  if s.prefetchDue blk tensor.it then
    let u := s.prefetchUnit blk tensor.it
    match s.barOf tensor.ups u with
    | none => .next (s.prefetch tensor.ups blk tensor.it u)
    | some (.page p) => .next (s.requestPage p (regionOf blk))
    | some b => .next (s.barFault tensor.ups 1 (srcBlock blk) b)
  else .next s

end Sys2Proof.Machine
end

