-- ==== Sys2Proof/Machine/Governor.lean ====
section
/-! DEFINITION. The precision governor at the module's step seal (R166, R170-R172, R174, R175, R178), the change of formats
(R173, R176, R534), and the restart of work after a replay or skip verdict (R235). -/

namespace Sys2Proof.Machine

/-! ## Windows and rates -/

/-- The records of a governed pair's window merged (R170). -/
def GovK.total (k : GovK) : TallyRec := k.window.foldl TallyRec.merge {}

/-- Whether n / d lies below a rate. -/
def rateLt (n d bits : Nat) : Bool := !rateGe n d bits

/-- Reach of an element format, in bins (R171). -/
def reachOf : Nat → Nat
  | 10 => 1 | 9 => 2 | 6 => 5 | 7 => 4 | 8 => 7 | 4 => 16 | 5 => 30 | _ => 31

/-- narrow_fits (R171). -/
def narrowFits (p : PrecParams) (e : PrecEntry) (k : GovK) (r : TallyRec) : Bool :=
  if k.cls ≤ e.lowest then false
  else rateLt (r.hist.drop (reachOf (fwFmt (e.fmtAt (k.cls - 1))) + 1)).sum r.hist.sum p.colNarrow

/-- The number of a class code (R157). -/
def classNo (c : Nat) : Nat := if c = 0 then 4 else if c = 1 then 8 else 16

/-- The class code of a width class. -/
def classCode (w : Nat) : Nat := if w ≤ 4 then 0 else if w ≤ 8 then 1 else 2

/-! ## Costs and headroom (R174, R175) -/

/-- Array time factor of a pairing: activation class, weight class (R174). -/
def pairFactor (a w : Nat) : Nat :=
  match a, w with
  | 0, 0 => 1 | 0, 1 => 2 | 0, _ => 4
  | 1, 0 => 4 | 1, 1 => 4 | 1, _ => 8
  | _, _ => 16

/-- The class code of an operand: its pair's class where governed, else that of its format (R157). -/
def State.operandClass (s : State) (t : Nat) : Nat :=
  let d := s.desc t
  match find? (govKey d.layer d.role) s.gov.ks with
  | some k => if d.role < 4 then k.cls else classCode (widthClass (fwFmt d.fmtw))
  | none => classCode (widthClass (fwFmt d.fmtw))

/-- Whether a tensor belongs to a (layer, role). -/
def State.isOf (s : State) (layer role t : Nat) : Bool :=
  let d := s.desc t
  d.role == role && d.layer == layer

/-- Extra array cycles on a block if a (layer, role) takes a class (R174). -/
def State.arrayCost (s : State) (layer role cls b : Nat) : Nat :=
  ((s.stages b).flatMap fun g =>
    if g.layer != layer then []
    else g.prog.zipIdx.map fun (i, x) =>
      if i.unit != .array then 0
      else
        let ta := i.srcA.tensor
        let tw := i.srcB.tensor
        let ca := s.operandClass ta
        let cw := s.operandClass tw
        let na := if s.isOf layer role ta then cls else ca
        let nw := if s.isOf layer role tw then cls else cw
        let cyc := (((s.blk b).arrLast.find? fun e => e.1 == g.idx && e.2.1 == x).map (·.2.2)).getD 0
        cyc * pairFactor na nw / pairFactor ca cw - cyc).sum

/-- Extra store bytes on a block if a (layer, role) takes a format word (R174). -/
def State.sramCost (s : State) (layer role old new b : Nat) : Nat :=
  ((s.governedTensors layer role).map fun t =>
    let d := s.desc t
    if d.tier != 0 || d.block != b then 0 else bytesAt d new true - bytesAt d old true).sum

/-- The array and SRAM limits of a block, each over its hundred parts (R174). -/
def State.limits (s : State) (b : Nat) : Nat × Nat :=
  (s.job.prec.arrayBudget * (s.blk b).tbase, s.job.prec.sramBudget * s.freeMargin b)

/-- A cost as a fraction of a limit in units of 2^-16, rounded up (R175); the limit in hundredths. The manual gives no fraction of a limit
of 0: no cost is 0 of it, any other the largest value (DESIGN CHOICE, log 132). -/
def shareUp (cost limit : Nat) : Nat :=
  if cost = 0 then 0 else if limit = 0 then max32 else Min.min max32 (ceilDiv (cost * 6553600) limit)

/-- What is left of a limit, rounded down; nothing of a limit of 0 (DESIGN CHOICE, log 132). -/
def shareLeft (used limit : Nat) : Nat := if limit = 0 then 0 else (limit - 100 * used) * 65536 / limit

/-- The module's headroom: the least over its blocks (R175). -/
def State.headroom (s : State) : Nat × Nat :=
  s.hosting.foldl (fun (a, m) b =>
    let (la, lm) := s.limits b
    (Min.min a (shareLeft (s.blk b).ledgerA la), Min.min m (shareLeft (s.blk b).ledgerS lm))) (65536, 65536)

/-! ## Decisions at a first execution's step seal -/

/-- The decision of R170. -/
inductive Width where
  | none | widen | narrow | ceiling
  deriving DecidableEq, Repr

/-- decide_width (R170): the pair after it, and the decision. -/
def decideWidth (p : PrecParams) (e : PrecEntry) (baseline : Bool) (k : GovK) : GovK × Width :=
  if k.changedAgo < p.window then (k, .none)
  else
    let r := k.total
    if rateGe r.over r.liveBlk p.satWiden || rateGe r.colBlk r.liveBlk p.colWiden then
      ({ k with calm := 0 }, if k.cls < e.highest then .widen else .ceiling)
    else if rateLt r.over r.liveBlk p.satNarrow && rateLt r.colBlk r.liveBlk p.colNarrow && narrowFits p e k r then
      let calm := k.calm + 1
      if p.calmSteps ≤ calm && Nat.max e.lowest (b2n baseline) < k.cls then ({ k with calm := 0 }, .narrow)
      else ({ k with calm := calm }, .none)
    else ({ k with calm := 0 }, .none)

/-- The size rule of R172: the pair after it, and the kind of request, 3 halve or 4 double. -/
def State.decideSize (s : State) (e : PrecEntry) (k : GovK) : GovK × Option Nat :=
  let p := s.job.prec
  if k.changedAgo < p.window || fwBsz (e.fmtAt k.cls) = 0 then (k, none)
  else
    let r := k.total
    let d := r.values - r.zero
    if rateGe r.rz d p.rzSplit then
      ({ k with sizeCalm := 0 }, if (s.nextSize e k.size false).isSome then some 3 else none)
    else if rateLt r.rz d p.rzMerge then
      let c := k.sizeCalm + 1
      if p.calmSteps ≤ c && (s.nextSize e k.size true).isSome then ({ k with sizeCalm := 0 }, some 4)
      else ({ k with sizeCalm := c }, none)
    else ({ k with sizeCalm := 0 }, none)

/-- The λ rule of R178 for a privileged layer's weights: 5 raise, 6 lower. Where no element was updated in the window the manual gives no
rate: it counts as 0 (DESIGN CHOICE, log 133). -/
def decideLambda (p : PrecParams) (e : PrecEntry) (k : GovK) : GovK × Option Nat :=
  if !e.privileged then (k, none)
  else
    let lost := k.total.lost
    let n := k.updated.sum
    if rateGe lost n p.lostUp && k.lambda < p.lambdaMax then ({ k with lambdaCalm := 0 }, some 5)
    else if rateLt lost n p.lostDown && 0 < k.lambda then
      let c := k.lambdaCalm + 1
      if p.calmSteps ≤ c then ({ k with lambdaCalm := 0 }, some 6) else ({ k with lambdaCalm := c }, none)
    else ({ k with lambdaCalm := 0 }, none)

/-- Density of a request: the sum of the overflow and collapse rates, in FP32 (R170). -/
def density (r : TallyRec) : Nat :=
  if r.liveBlk = 0 then 0 else toBits ((Number.ofNat (r.over + r.colBlk)).div (.ofNat r.liveBlk))

/-- The costs of a widen request on every block, and its request entry (R174, R175). -/
def State.widenRequest (s : State) (e : PrecEntry) (k : GovK) : Map (Nat × Nat) × Request :=
  let cost := s.hosting.map fun b =>
    (b, s.arrayCost e.layer e.role (k.cls + 1) b,
      s.sramCost e.layer e.role (e.word k.cls k.size) (e.word (k.cls + 1) k.size) b)
  let a := cost.foldl (fun x (b, ca, _) => Nat.max x (shareUp ca (s.limits b).1)) 0
  let m := cost.foldl (fun x (b, _, cm) => Nat.max x (shareUp cm (s.limits b).2)) 0
  (cost, { layer := e.layer, role := e.role, kind := 1, density := density k.total, a := a, m := m })

/-- The scale bytes that a halving adds at the block where they weigh most, as a fraction of its limit (R172, R174, R175). -/
def State.halveShare (s : State) (e : PrecEntry) (k : GovK) : Nat :=
  match s.nextSize e k.size false with
  | none => 0
  | some z => s.hosting.foldl (fun x b =>
      Nat.max x (shareUp (s.sramCost e.layer e.role (e.word k.cls k.size) (e.word k.cls z) b) (s.limits b).2)) 0

/-- A request of another kind: a halving costs the scale bytes it adds, the others cost nothing. -/
def State.plainRequest (s : State) (e : PrecEntry) (k : GovK) (kind : Nat) : Request :=
  { layer := e.layer, role := e.role, kind := kind, density := density k.total, m := if kind = 3 then s.halveShare e k else 0 }

/-- The decisions for one governed pair. What a widening would cost here is kept whether or not this module asks for it: the grant may
follow another module's request (R174). -/
def State.decide (s : State) (e : PrecEntry) : State :=
  let key := govKey e.layer e.role
  match find? key s.gov.ks with
  | none => s
  | some k =>
    let (k, w) := decideWidth s.job.prec e s.gov.baseline k
    let (k, z) := s.decideSize e k
    let (k, l) := decideLambda s.job.prec e k
    let (cost, req) := s.widenRequest e k
    let k := { k with asked := if k.cls < e.highest then cost else [] }
    let rw := match w with
      | .widen => [req]
      | .narrow => [s.plainRequest e k 2]
      | _ => []
    let more := (z.toList ++ l.toList).map (s.plainRequest e k)
    let s := { s with gov := { s.gov with ks := put key k s.gov.ks, requests := s.gov.requests ++ rw ++ more } }
    if w = .ceiling then s.modRgn (s.home e.layer) fun g => { g with ceiling := satAdd 255 g.ceiling 1 } else s

/-- Every block hosting stages has completed SEAL STEP of the step. -/
def State.blocksSealed (s : State) (n : Nat) : Bool := s.hosting.all fun b => n < (s.blk b).step

/-- MODULE_STEP_SEAL: the energy accumulators are latched (R442), a due ageing measurement starts at a step that is a multiple of
256 (R466), a trigger of kind 4 is tested (R484), and at a first execution the decisions are formed (R170). -/
def execModuleStepSeal (s : State) : Host.Outcome State Fault Refusal :=
  let n := s.gov.step
  if !(s.glb.mstate == .running && !s.err.stopIssue && s.gov.squash.isNone) || s.gov.sealedSteps.contains n || !s.blocksSealed n then .next s
  else
    let e := s.eng
    let s := { s with eng := { e with seals := (e.seals.filter fun (x : Nat × Nat × List Nat × Nat) => x.1 != n) ++ [(n, s.board.time, e.acc, e.gapTotal)] } }
    let s := { s with gov := { s.gov with sealedSteps := insertN n s.gov.sealedSteps } }
    let s := if s.age.due && n % 256 == 0 && !s.age.busy then { s with age := { s.age with due := false, busy := true } } else s
    let s := if s.trc.body.kind = 4 && s.trc.body.arg ≤ n then s.fireTrigger else s
    if !s.gov.first then .next s
    else .next (s.job.govs.foldl State.decide { s with gov := { s.gov with requests := [] } })

/-! ## The vote (R166, R167, R320) -/

/-- The records of a step for a role set, merged by (layer, role). -/
def State.gradStats (s : State) (n : Nat) : Map TallyRec :=
  (s.gov.stats.filter fun e => e.1 / 2 ^ 21 == n).foldl (fun m e =>
    let k := e.1 % 2 ^ 21
    if (keyRole k == 2 || keyRole k == 3) && has (govKey (keyLayer k) (keyRole k)) s.gov.ks then
      addRec (govKey (keyLayer k) (keyRole k)) e.2 m
    else m) []

/-- Whether a record makes the module vote replay (R167). -/
def votesReplay (p : PrecParams) (r : TallyRec) : Bool :=
  rateGe r.over r.liveBlk p.sreplayRate || (p.nanReplay == 1 && 0 < r.nan + r.inf)

/-- The layer entries of a vote: TRUST sums and, in a tier-2 flock, ring maxima (R320). -/
def State.voteLayers (s : State) : List VoteLayer :=
  let seen : List (Nat × Nat) := s.drv.ringSeen.filter fun e => e.1 / 65536 == s.gov.step
  let ring (l : Nat) : Option Nat := find? (s.gov.step * 65536 + l) seen
  let both : List Nat := s.upd.sums.map (·.1) ++ (seen.map fun e => e.1 % 65536)
  let ls := both.foldl (fun a l => insertN l a) []
  ls.map fun l =>
    let t := s.upd.sums.find? fun x => x.1 == l
    { layer := l, flags := b2n t.isSome + 2 * b2n (ring l).isSome, w2 := (t.map (·.2.1)).getD 0, u2 := (t.map (·.2.2)).getD 0,
      ring := (ring l).getD 0 }

/-- The module's vote for step `n` (R166). -/
def State.makeVote (s : State) (n : Nat) : Vote :=
  let st := s.gradStats n
  let all := st.foldl (fun a e => a.merge e.2) ({} : TallyRec)
  let (ha, hs) := s.headroom
  { step := n, device := s.drv.device,
    flags := b2n (st.any fun e => votesReplay s.job.prec e.2) + 2 * b2n !s.gov.notices.isEmpty,
    ha := ha, hs := hs, live := all.liveBlk, satFull := all.over, nanInf := all.nan + all.inf,
    requests := (if s.gov.first then s.gov.requests else []) ++ s.gov.notices, layers := s.voteLayers }

/-- Whether every shard the module processes for the step has completed (R166). -/
def State.shardsDone (s : State) : Bool :=
  s.masters.all fun (_, t) => s.ownedCount (s.desc t) ≤ ((look [] t s.upd.done).map (·.2)).sum

/-! ## Changes of format and size -/

/-- The descriptor a tensor will have: that of a relayout that waits, else the present one. -/
def TensorRt.next (x : TensorRt) : Desc := match x.later with
  | some r => r.desc
  | none => x.desc

/-- A tensor of a changed pair: its new layout waits for its next write from the step on (R173, R534). -/
def State.relayTensor (s : State) (step fw initSc t : Nat) : State :=
  let x := s.ten t
  let before := match x.later with
    | some r => r.words
    | none => []
  s.setTen t { x with later := some { step := step, desc := s.relaid x.next fw, words := before ++ [fw], initSc := initSc } }

/-- A governed pair takes a class and a size: every tensor's layout, and the pair's counts start again (R170, R173). Records of the step
already filed, which a rerun repeats in the new format, do not enter the emptied window. -/
def State.takeFormat (s : State) (step : Nat) (e : PrecEntry) (cls size : Nat) : State :=
  match find? (govKey e.layer e.role) s.gov.ks with
  | none => s
  | some k =>
    let fw := e.word cls size
    let s := (s.governedTensors e.layer e.role).foldl (fun s t => s.relayTensor step fw e.initSc t) s
    let k := { k with cls := cls, size := size, window := [], updated := [], changedAgo := 0, calm := 0, sizeCalm := 0, granted := false,
                      since := step }
    let firsts := s.gov.firsts.filter fun x => !(x.1 / 2 ^ 21 == step && keyLayer (x.1 % 2 ^ 21) == e.layer && keyRole (x.1 % 2 ^ 21) == e.role)
    { s with gov := { s.gov with ks := put (govKey e.layer e.role) k s.gov.ks, firsts := firsts } }

/-- A change of λ, logged in the lifetime records with its layer, step and new value (R178). -/
def State.takeLambda (s : State) (step : Nat) (e : PrecEntry) (v : Nat) : State :=
  match find? (govKey e.layer e.role) s.gov.ks with
  | none => s
  | some k =>
    let k := { k with lambda := v, lambdaOld := k.lambda, lambdaFrom := step, granted := false }
    let s := { s with gov := { s.gov with ks := put (govKey e.layer e.role) k s.gov.ks } }
    addLife s 0x0008 (le 2 e.layer ++ le 8 step ++ le 1 v)

/-- One change taking effect (R173, R176, R179). Kind 9 is the model's name for the raise of the baseline. -/
def State.takeChange (s : State) (c : Change) : State :=
  let d := c.d
  match s.policy d.layer d.role, find? (govKey d.layer d.role) s.gov.ks with
  | some e, some k =>
    let h := s.home d.layer
    match d.kind with
    | 1 => s.takeFormat c.step e (classCode d.value) k.size
    | 2 => (s.modRgn h fun g => { g with narrowed := satAdd 255 g.narrowed 1 }).takeFormat c.step e (classCode d.value) k.size
    | 3 | 4 => (s.modRgn h fun g => { g with size := satAdd 255 g.size 1 }).takeFormat c.step e k.cls d.value
    | 5 => s.takeLambda c.step e d.value
    | _ => if k.cls < 1 && 1 ≤ e.highest then s.takeFormat c.step e 1 k.size else s
  | _, _ => s

/-- FORMAT_CHANGE_EFFECT: the changes whose step has begun on some block take effect (R173, R534); none while a squash waits, since the
forward that it holds back has not begun. -/
def execFormatChangeEffect (s : State) : Host.Outcome State Fault Refusal :=
  let top := s.hosting.foldl (fun a b => Nat.max a (s.blk b).step) s.gov.step
  let due := s.gov.changes.filter fun c => c.step ≤ top
  if s.gov.squash.isSome then .next s
  else .next (due.foldl State.takeChange { s with gov := { s.gov with changes := s.gov.changes.filter fun c => !(c.step ≤ top) } })

/-! ## After a replay or skip verdict (R235) -/

/-- A block's run-ahead work undone, the poison of its staged and written values counted as discarded (R34), and the block set to start step `n`: the plans as they stood before the run-ahead step
(R169); a time-shared block returns to the position at which that step starts and prefetches again (DESIGN CHOICE, log 23). -/
def State.restartBlock (s : State) (n b : Nat) : State :=
  let x := s.blk b
  let pois := ((x.stages.flatMap fun e => e.2.specWritten).map s.stagedPoison).sum
  let run := (s.writtenBy b).filter fun t => !(s.ten t).filled.isEmpty
  let s := s.discard b (pois + (run.map s.livePoison).sum)
  let s := match x.saved with
    | some (_, l) => l.foldl State.restorePlan s
    | none => s
  let len := (s.seqOf b).length
  let back := if 1 < len then (x.step - n) * len else 0
  let p := x.pos0 - back
  let s := s.modBlk b fun y => { y with tally := [], arrNow := [], arrSeal := [], saved := none, pos := p, pos0 := p,
                                        fetched := if 1 < len then [] else y.fetched, step := n }
  let s := (s.writtenBy b).foldl (fun s t => s.modTen t fun y => { y with cleared := 0 }) s
  s.beginStep b n

/-- QUEUE_SQUASH: once no block has a fired instruction left, the queues are cleared or rewound, and every block starts the step
again, or the next one (R235). -/
def execQueueSquash (s : State) : Host.Outcome State Fault Refusal :=
  match s.gov.squash with
  | none => .next s
  | some (n, verdict) =>
    if s.hosting.any fun b => (s.blk b).xfer.isSome then .next s
    else
      let skip := verdict == 2
      let next := if skip then n + 1 else n
      let s := s.queues.foldl (fun a e => a.squashQueue e.1 n next skip) s
      let s := [0, 1, 2, 3].foldl (fun a r => a.modRgn r fun g => { g with tally := [], inbox := [] }) s
      let s := s.hosting.foldl (fun a b => a.restartBlock next b) s
      .next { s with gov := { s.gov with squash := none } }

/-! ## What a snapshot keeps (R285) -/

/-- Numbers in rising order. -/
def sortN (l : List Nat) : List Nat := l.foldl (fun a n => insertN n a) []

/-- The sections of a snapshot: type and pair head, by type and then by TENSOR_TABLE index (the order is the model's, log 32). -/
def State.snapList (s : State) : List (Nat × Nat) :=
  let ms := s.masters
  let of' (f : Nat × Nat → List Nat) : List Nat := sortN (ms.flatMap f)
  let st (k : Nat) := of' fun (l, m) => ((s.stateTensors l m)[k]?).toList
  let plans := of' fun (l, m) => s.stateTensors l m ++ s.copiesOf l m
  (of' fun x => [x.2]).map (fun t => (0x01, t)) ++ (st 0).map (fun t => (0x02, t)) ++ (st 1).map (fun t => (0x03, t)) ++
  (of' fun (l, m) => (s.remainderOf l m).toList).map (fun t => (0x04, t)) ++
  (plans.filter fun t => (s.desc t).planned).map fun t => (0x05, t)

/-- TENSOR_TABLE index that the section of governor state carries (log 32). -/
def noIndex : Nat := 0xFFFFFFFF

/-- The pair heads that a snapshot touches. -/
def State.snapHeads (s : State) : List Nat := sortN (s.snapList.map (·.2))

/-- The governor state: class and size of every governed pair with λ, the TRUST ratio of every layer, and the format word each
tensor's copy stands in, which may not yet be its pair's under R173 (layout log 32). -/
def State.govBody (s : State) : List Byte :=
  let hs := s.snapHeads
  le 4 s.gov.ks.length ++ le 4 s.gov.trust.length ++ le 4 hs.length ++ le 4 0 ++
  (s.gov.ks.flatMap fun (k, g) => le 2 (k / 4) ++ le 1 (k % 4) ++ le 1 g.cls ++ le 1 g.size ++ le 1 g.lambda ++ le 2 0) ++
  (s.gov.trust.flatMap fun (l, r) => le 2 l ++ le 2 0 ++ le 4 r) ++
  hs.flatMap fun h => le 4 h ++ le 4 (s.ten (bufOf h s.upd.live)).desc.fmtw

end Sys2Proof.Machine
end

