-- ==== Sys2Proof/Machine/Real.lean ====
section
/-! DEFINITION. The transcendental functions of R131, R143 and R277: the exact function evaluated far beyond FP32, rounded to the
nearest value, then moved by the free number of units the manual's bound allows (log 8). -/

namespace Sys2Proof.Machine

/-- Fraction bits of the fixed-point evaluation. -/
def fxBits : Nat := 256

/-- One, in fixed point. -/
def fxOne : Int := 2 ^ fxBits

/-- Product in fixed point. -/
def fxMul (a b : Int) : Int := a * b / fxOne

/-- A number in fixed point (truncated below). -/
def Number.toFx : Number → Int
  | .fin s m e =>
    let k := e + fxBits
    let v : Int := if 0 ≤ k then (m : Int) * 2 ^ k.toNat else (m : Int) / 2 ^ (-k).toNat
    if s then -v else v
  | _ => 0

/-- A fixed-point value times 2^k, as a number. -/
def ofFx (v : Int) (k : Int) : Number := .fin (v < 0) v.natAbs (k - fxBits)

/-- Σ x^i / i! from term i on. -/
def expSum (x : Int) : Nat → Nat → Int → Int
  | 0, _, _ => 0
  | n + 1, i, t => t + expSum x n (i + 1) (fxMul t x / (i + 1))

/-- Σ y^(2i+1) / (2i+1) from term i on; `t` is y^(2i+1). -/
def atanhSum (y2 : Int) : Nat → Nat → Int → Int
  | 0, _, _ => 0
  | n + 1, i, t => t / (2 * i + 1) + atanhSum y2 n (i + 1) (fxMul t y2)

/-- Σ (-1)^i y^(2i+1) / (2i+1). -/
def atanSum (y2 : Int) : Nat → Nat → Int → Int
  | 0, _, _ => 0
  | n + 1, i, t => t / (2 * i + 1) - atanSum y2 n (i + 1) (fxMul t y2)

/-- Σ (-1)^i x^(2i+s) / (2i+s)! from the term of order `i`: cosine from order 0, sine from order 1. -/
def trigSum (x2 : Int) : Nat → Nat → Int → Int
  | 0, _, _ => 0
  | n + 1, i, t => t - trigSum x2 n (i + 2) (fxMul t x2 / ((i + 1) * (i + 2)))

/-- ln 2. -/
def fxLn2 : Int := 2 * atanhSum (fxMul (fxOne / 3) (fxOne / 3)) 90 0 (fxOne / 3)

/-- π, by 16 atan(1/5) - 4 atan(1/239). -/
def fxPi : Int :=
  16 * atanSum (fxOne / 25) 60 0 (fxOne / 5) - 4 * atanSum (fxOne / 57121) 20 0 (fxOne / 239)

/-- e^x. Beyond ±3000 a value that no FP32 result distinguishes from the limit. -/
def Number.exp (x : Number) : Number :=
  match x with
  | .nan => .nan
  | .inf s => if s then .zero else .inf false
  | .fin s m e =>
    if cmpMag m e 3000 0 == .gt then (if s then .pow2 (-5000) else .pow2 5000)
    else
      let v := x.toFx
      let k := (2 * v + fxLn2) / (2 * fxLn2)
      ofFx (expSum (v - k * fxLn2) 70 0 fxOne) k

/-- ln x for x above 0. -/
def Number.ln (x : Number) : Number :=
  match x with
  | .fin false m e =>
    let k := (Nat.log2 m : Int) + e
    let y : Int := (m : Int) * 2 ^ fxBits / 2 ^ (Nat.log2 m)
    -- y in [1, 2): halve it above 4/3 so that the series is short
    let (y, k) := if 3 * y > 4 * fxOne then (y / 2, k + 1) else (y, k)
    let q := (y - fxOne) * fxOne / (y + fxOne)
    ofFx (k * fxLn2 + 2 * atanhSum (fxMul q q) 90 0 q) 0
  | _ => .nan

/-- 1 / (1 + e^-x) for a finite x, without cancellation at either end. -/
def Number.sigmoid (x : Number) : Number :=
  if x.sign then (let e := x.exp; e.div (Number.add (.ofNat 1) e)) else (Number.ofNat 1).div (Number.add (.ofNat 1) x.neg.exp)

/-- (e^2x - 1) / (e^2x + 1) for a finite x. -/
def Number.tanh (x : Number) : Number :=
  if x.isZero then x
  else
    let e := (x.abs.mul (.ofNat 2)).exp
    let t := (e.sub (.ofNat 1)).div (e.add (.ofNat 1))
    if x.sign then t.neg else t

/-- A decimal constant. -/
def decimal (n d : Nat) : Number := (Number.ofNat n).div (.ofNat d)

/-- Twice the inner argument of GELU: 2 × 0.7978845608 (x + 0.044715 x^3). -/
def geluArg (x : Number) : Number :=
  ((decimal 15957691216 10000000000).mul (x.add ((decimal 44715 1000000).mul (x.mul (x.mul x)))))

/-- GELU: 0.5 x (1 + tanh u) = x sigmoid(2u) (R129). -/
def Number.gelu (x : Number) : Number := x.mul (geluArg x).sigmoid

/-- d(GELU)/dx. -/
def Number.geluD (x : Number) : Number :=
  let u := geluArg x
  let s := u.sigmoid
  let du := (decimal 15957691216 10000000000).mul (Number.add (.ofNat 1) ((decimal 134145 1000000).mul (x.mul x)))
  s.add ((x.mul du).mul (s.mul u.neg.sigmoid))

/-- SILU: x sigmoid(x). -/
def Number.silu (x : Number) : Number := x.mul x.sigmoid

/-- d(SILU)/dx. -/
def Number.siluD (x : Number) : Number :=
  let s := x.sigmoid
  s.mul (Number.add (.ofNat 1) (x.mul x.neg.sigmoid))

/-- The leading 256 bits of a number. -/
def Number.lead : Number → Number
  | .fin s m e => let k := Nat.log2 m - 255; .fin s (m >>> k) (e + k)
  | x => x

/-- x^t by squaring, `fuel` bounding the bits of t, to 256 leading bits. -/
def Number.powAux : Nat → Number → Nat → Number
  | 0, _, _ => .ofNat 1
  | f + 1, x, t =>
    if t = 0 then .ofNat 1
    else
      let h := Number.powAux f (x.mul x).lead (t / 2)
      if t % 2 = 1 then (h.mul x).lead else h

/-- x^t. -/
def Number.pow (x : Number) (t : Nat) : Number := Number.powAux 64 x t

/-- cos 2πu (`sine` false) or sin 2πu, for u = n × 2^-24 below 1. -/
def turn (sine : Bool) (n : Nat) : Number :=
  -- sin 2πu = cos 2π(u - 1/4); the angle is brought to an eighth of a turn
  let n := if sine then (n + 3 * 2 ^ 22) % 2 ^ 24 else n % 2 ^ 24
  let h := if n ≤ 2 ^ 23 then n else 2 ^ 24 - n          -- cos is even: 0 to a half turn
  let (h, neg) := if h ≤ 2 ^ 22 then (h, false) else (2 ^ 23 - h, true)
  let angle (k : Nat) : Int := 2 * fxPi * k / 2 ^ 24
  let v : Int :=
    if h ≤ 2 ^ 21 then (let x := angle h; trigSum (fxMul x x) 60 0 fxOne)
    else (let x := angle (2 ^ 22 - h); trigSum (fxMul x x) 60 1 x)
  ofFx (if neg then -v else v) 0

/-! ## Results within a bound -/

/-- The FP32 number `off` units in the last place from a number, stepping over zero to the other sign (R131). -/
def ulpMove (x : Number) (off : Int) : Number :=
  match x.r32 with
  | .nan => .nan
  | y =>
    let p : Int := ((enc32 y % 2 ^ 31 : Nat) : Int)
    let v : Int := (if y.sign then -p else p) + off
    if v = 0 then .fin y.sign 0 0
    else
      let k := min v.natAbs 0x7F800000
      dec32 (k + (if v < 0 then 2 ^ 31 else 0))

/-- A result within `bound` units in the last place of the exact one: the free choice of an operation on its operands. -/
def within (bound op : Nat) (args : List Number) (exact : Number) : Number :=
  let off : Nat := Config.ulp op (args.map enc32) % (2 * bound + 1)
  ulpMove exact ((off : Int) - bound)

/-- EXP (R131). 88.7228 is 887228 / 10000. -/
def vExp (x : Number) : Number :=
  match x with
  | .nan => .nan
  | .inf s => if s then .zero else .inf false
  | .fin .. => if (decimal 887228 10000).lt x then .inf false else within 2 0x10 [x] x.exp

/-- LOG (R131). -/
def vLog (x : Number) : Number :=
  match x with
  | .nan => .nan
  | .inf s => if s then .nan else .inf false
  | .fin s m _ => if m = 0 then .inf true else if s then .nan else within 2 0x11 [x] x.ln

/-- RECIP (R131). -/
def vRecip (x : Number) : Number :=
  match x with
  | .nan => .nan
  | .inf s => .fin s 0 0
  | .fin s m _ => if m = 0 then .inf s else within 2 0x12 [x] ((Number.ofNat 1).div x)

/-- RSQRT (R131). -/
def vRsqrt (x : Number) : Number :=
  match x with
  | .nan => .nan
  | .inf s => if s then .nan else .zero
  | .fin s m _ => if m = 0 then .inf s else if s then .nan else within 2 0x13 [x] ((Number.ofNat 1).div x.sqrt)

/-- SQRT (R131). -/
def vSqrt (x : Number) : Number :=
  match x with
  | .nan => .nan
  | .inf s => if s then .nan else .inf false
  | .fin s m _ => if m = 0 then .fin s 0 0 else if s then .nan else within 2 0x14 [x] x.sqrt

/-- TANH (R131). -/
def vTanh (x : Number) : Number :=
  match x with
  | .nan => .nan
  | .inf s => .fin s 1 0
  | .fin .. => within 2 0x15 [x] x.tanh

/-- SIGMOID (R131). -/
def vSigmoid (x : Number) : Number :=
  match x with
  | .nan => .nan
  | .inf s => if s then .zero else .ofNat 1
  | .fin .. => within 2 0x16 [x] x.sigmoid

/-- GELU (R131). -/
def vGelu (x : Number) : Number :=
  match x with
  | .nan => .nan
  | .inf s => if s then .fin true 0 0 else .inf false
  | .fin .. => within 2 0x19 [x] x.gelu

/-- SILU (R131). -/
def vSilu (x : Number) : Number :=
  match x with
  | .nan => .nan
  | .inf s => if s then .fin true 0 0 else .inf false
  | .fin .. => within 2 0x1A [x] x.silu

/-- A × the derivative at B, with the limits of R131 at the infinities of B. -/
def vGrad (op : Nat) (d : Number → Number) (a b : Number) : Number :=
  match b with
  | .nan => .nan
  | .inf s => if s then fmul a .zero else fmul a (.ofNat 1)
  | .fin .. =>
    match a with
    | .fin .. => within 2 op [a, b] (a.mul (d b))
    | _ => a.mul (d b)

end Sys2Proof.Machine
end

