-- ==== Sys2Proof/Machine/Operands.lean ====
section
/-! DEFINITION. Operand forms that several operations share: index operands (R128, R203, R206), rows along dimension 0 (R132),
and sums whose order the manual leaves open (R16, R133). -/

namespace Sys2Proof.Machine

/-! ## Index operands -/

/-- An index element as read: poisoned, illegal with the INDEX detail, or a number from -1 on (R128, R206, R207). -/
inductive Index where
  | poisoned
  | bad (detail : Nat)
  | at (n : Int)
  deriving DecidableEq, Repr

/-- The integer a finite number is, if it is one. -/
def Number.toInt? : Number → Option Int
  | .fin s m e =>
    if m = 0 then some 0
    else if 0 ≤ e then some (if s then -((m : Int) * 2 ^ e.toNat) else (m : Int) * 2 ^ e.toNat)
    else
      let d := 2 ^ (-e).toNat
      if m % d = 0 then some (if s then -((m / d : Nat) : Int) else ((m / d : Nat) : Int)) else none
  | _ => none

/-- An index value checked against the extent it addresses (R128, R206). Of two details that one value meets the first of these arms is
raised (DESIGN CHOICE, log 159). -/
def checkIndex (extent : Nat) (v : Val) : Index :=
  if v.pois then .poisoned
  else match v.num.toInt? with
    | none => if v.num.isNan || v.num.isInf then .bad 0x04 else .bad 0x03
    | some n =>
      if n < -1 then .bad 0x01
      else if n > 2 ^ 24 - 1 then .bad 0x05
      else if (extent : Int) ≤ n then .bad 0x02
      else .at n

/-- The elements of an index tensor, checked in element order (R203). -/
def State.readIndex (s : State) (v : View) (extent : Nat) : List Index :=
  (List.range v.count).map fun k => checkIndex extent (s.elem v k)

/-- The first illegal element: its position and detail. -/
def firstBad (l : List Index) : Option (Nat × Nat) :=
  l.zipIdx.findSome? fun (x, k) =>
    match x with
    | .bad d => some (k, d)
    | _ => none

/-- INDEX raised for an element: the instruction stops as a job fault (R206, R457). The position counts within the slice that the repeat
names (DESIGN CHOICE, log 161). -/
def State.indexFault (s : State) (c : Ctx) (pos detail : Nat) : State :=
  raise (s.blkSticky c.b 7) (faultCode 1 INDEX detail) (srcBlock c.b) (pos * 2 ^ 32 + c.idx % 4096 * 2 ^ 20 + c.g.idx % 16 * 2 ^ 16 + c.b)

/-- Poisoned index elements, counted (R207, R208). -/
def countPoisoned (l : List Index) : Nat := (l.filter fun x => decide (x = .poisoned)).length

/-! ## Structured sparse storage -/

/-- The position within its quad of the kept value at an index vector of a sparse tensor, from the metadata byte at the same outer
indexes, and whether that byte is poisoned (R34, R183). -/
def State.keptPos (s : State) (w : View) (i : List Nat) : Nat × Bool :=
  let k := i.headD 0
  let x := s.rawAt (s.liveView w.d.mta) (k / 4 :: i.drop 1)
  (x.bits / 4 ^ (k % 4) % 4, x.pois)

/-- The dense index of kept value `k` under a storage code (R186). -/
def denseIdx (store k pos : Nat) : Nat := if store = 1 then k / 2 * 4 + pos else if store = 2 then k * 4 + pos else k

/-- Kept values of a quad under a storage code (R181). -/
def keepOf (store : Nat) : Nat := if store = 1 then 2 else if store = 2 then 1 else 4

/-- What a dense index vector finds in a sparse tensor: the kept element, or the first one of its quad and `false` where the position is
pruned; and whether a metadata byte it went by is poisoned (R34, R181, R183). -/
structure Kept where
  el : Nat
  kept : Bool
  pois : Bool
  deriving DecidableEq, Repr

/-- The element of a sparse view at a dense index vector within the view. -/
def State.keptAt (s : State) (v : View) (i : List Nat) : Kept :=
  let kc := v.ext.getD 0 1
  let row := linear (v.ext.drop 1) (i.drop 1)
  let n := keepOf v.d.sparse
  let ks := (List.range n).map (i.headD 0 / 4 * n + ·)
  let pos (k : Nat) : Nat × Bool := s.keptPos v (v.index (row * kc + k))
  let bad := ks.any fun k => (pos k).2
  match ks.find? fun k => (pos k).1 == i.headD 0 % 4 with
  | some k => ⟨row * kc + k, true, bad⟩
  | none => ⟨row * kc + ks.headD 0, false, bad⟩

/-! ## Sums in an order left open -/

/-- Two entries of a list combined, again and again, which two being free, until one is left. -/
def treeAny (f : Nat → Nat) (op : Number → Number → Number) : Nat → Nat → List Number → Number
  | 0, _, l => l.headD .zero
  | n + 1, i, l =>
    match l with
    | [] => .zero
    | [x] => x
    | _ =>
      let a := f i % l.length
      let x := l.getD a .zero
      let r := l.eraseIdx a
      let b := f (i + 1) % r.length
      treeAny f op n (i + 2) (op x (r.getD b .zero) :: r.eraseIdx b)

/-- Terms added in FP32 in an unspecified order (R16, R133), which `f` chooses: each goes, in a free order, into a free one of several
partials, which begin at a zero of a free sign, and the partials are added in a free order. `step` adds one term, fused where it is a
product (R133). -/
def sumBy (f : Nat → Nat) (step : Number → α → Number) (terms : List α) : Number :=
  let n := terms.length
  let order := pick f n terms
  let lanes := 1 + f n % (n + 1)
  let tagged := order.zipIdx.map fun (t, k) => (f (n + 1 + k) % lanes, t)
  let start : Number := .fin (f (2 * n + 1) % 2 == 1) 0 0
  let parts := (List.range lanes).filterMap fun l =>
    let mine := (tagged.filter fun x => x.1 == l).map (·.2)
    if mine.isEmpty then none else some (mine.foldl step start)
  if parts.isEmpty then .zero else treeAny (fun i => f (2 * n + 2 + i)) fadd parts.length 0 parts

/-- The seed of the order in which a firing combines the terms of its `row`-th sum: the same in every execution of the firing in one
epoch, so that a replay recomputes the same values (R161, log 1). -/
def State.seed (s : State) (c : Ctx) (row : Nat) : Nat :=
  ((((row * 2 ^ 32 + s.drv.epoch) * 2 ^ 64 + c.n) * 64 + c.b) * 16 + c.g.idx) * 2 ^ 24 + c.p

/-- The terms of one sum of a firing added in its order. -/
def sumAny (seed : Nat) (step : Number → α → Number) (terms : List α) : Number := sumBy (Config.order seed) step terms

/-- A plain sum. -/
def sumVals (seed : Nat) (l : List Number) : Number := sumAny seed fadd l

/-- Terms added one by one to a first value, in an order left open, the j-th addition stochastically rounded with its own draw, `j` from 0
(R77, R143, log 15). -/
def sumSto (seed : Nat) (rnd : Nat → Rnd) (add : Rnd → Number → α → Number) (first : Number) (terms : List α) : Number :=
  (pick (Config.order seed) terms.length terms).zipIdx.foldl (fun a (x, k) => add (rnd k) a x) first

/-- The state after an engine used `n` seeds of free values. -/
def State.seeds (s : State) (n : Nat) : State := { s with fresh := s.fresh + n }

/-! ## Rows -/

/-- The values of a view cut into rows along dimension 0. -/
def rowsOf (v : View) (vals : List Val) : List (List Val) := pieces (v.ext.getD 0 1) vals

/-- Whether any value is poisoned. -/
def anyPois (l : List Val) : Bool := l.any (·.pois)

/-- Poisoned values of a list. -/
def countPois (l : List Val) : Nat := (l.filter (·.pois)).length

def nums (l : List Val) : List Number := l.map (·.num)

/-- A product and a sum of which the manual does not say whether they are fused: one of the two, for all operands alike
(log 16). -/
def mulAdd (op : Nat) (a b c : Number) : Number := if Config.ulp op [] % 2 = 0 then ffma a b c else fadd (fmul a b) c

end Sys2Proof.Machine
end

