-- ==== Sys2Proof/Machine/Transfer.lean ====
section
/-! DEFINITION. The transfer engine: VEC COPY, GATHER and SCATTER_ADD with their cursors (R204, R205, R255, R257, R265-R268), and
SEND and RECV (R218, R220, R223, R228, R231). -/

namespace Sys2Proof.Machine

/-! ## Stretches of a transfer -/

/-- The first unit from `k` on that is barred; `whole` are the blocks that all of them together cover. -/
def State.firstBar (s : State) (ups : Upsets) (whole : List Nat) : List (Nat × XUnit) → Option (Nat × Bar)
  | [] => none
  | (k, u) :: r =>
    match s.barOf ups u (if u.adds then [] else whole) with
    | some b => some (k, b)
    | none => s.firstBar ups whole r

/-- The blocks that the writes of some units cover wholly (R336). -/
def State.covered (s : State) (l : List XUnit) : List Nat := s.wholeBlocks (l.flatMap (·.writes))

/-- The memory side of delivered units: pages used, evictions aborted by writes, blocks read, bytes counted (R262, R263, R269,
R351). -/
def State.payUnits (s : State) (c : Ctx) (ups : Upsets) (l : List XUnit) : State :=
  let s := s.useMemory ups (l.flatMap (·.reads)) (l.flatMap (·.writes)) (l.any (·.adds))
  let bytes := (l.map fun u => u.reads.eraseDups.length + u.writes.eraseDups.length).sum
  (s.count 3 c.b 0 (l.filter (·.counts)).length).count 3 c.b 1 bytes

/-- What a bar does to the transfer: a stall with a request for the page, or a job fault (R206, R253, R266, R341, R342). -/
def State.meetBar (s : State) (c : Ctx) (ups : Upsets) (k : Nat) (stat : TallyRec) (src : List (Nat × Val)) (big : List Nat) (b : Bar) : State :=
  match b with
  | .page p =>
    let x : Xfer := { stage := c.g.idx, pos := c.p, page := p, cursor := k, since := s.board.time, stat := stat, src := src, big := big }
    let s := s.modBlk c.b fun y => { y with xfer := some x }
    (s.count 3 c.b 2 1).requestPage p (regionOf c.b)
  | .index pos detail before => (s.count 2 c.b 5 before).indexFault c pos detail
  | b => s.barFault ups 1 (srcBlock c.b) b

/-- A transfer stalled on a page is taken up again; its wait counts (R266, R269). -/
def State.takeUp (s : State) (c : Ctx) : State :=
  match (s.blk c.b).xfer with
  | some x => (s.modBlk c.b fun y => { y with xfer := none }).count 3 c.b 3 (s.board.time - x.since)
  | none => s

/-- The write context of a transfer's conversion. -/
def State.wctx (s : State) (c : Ctx) (v : View) (imp : Impose) : WCtx :=
  { impose := imp, stm := if fwRnd v.d.fmtw == 1 then s.roundStm c else none, base := c.rep * v.count }

/-- The record of a write into an unscaled destination, whose elements are one conversion block, from all the values it converted (R65,
R152). -/
def State.wholeRec (s : State) (c : Ctx) (v : View) (src : List (Nat × Val)) (big : List Nat) : TallyRec :=
  let w := s.wctx c v .fromMax
  let vals := src.map (·.2)
  let els := src.map (·.1)
  recOf (convertBlock v.d.fmtw none (fun i => w.draw (els.getD i 0)) vals fun i => (els[i]?).any big.contains) vals

/-- What a stretch of a transfer delivered: the statistics of its scale blocks, or, into an unscaled destination, the values by element and
the elements that a value beyond FP32 range reached (R74). -/
structure Stretch where
  s : State
  stat : TallyRec := {}
  src : List (Nat × Val) := []
  big : List Nat := []

/-- Values by element, the later of an element in place of the earlier. -/
def mergeSrc (old new : List (Nat × Val)) : List (Nat × Val) := (old.filter fun e => !new.any fun x => x.1 == e.1) ++ new

/-- A transfer run from its cursor to its end or to the first bar (R265, R266). `deliver` writes the units from one number to another. The
record of an unscaled destination is filed when the transfer ends. -/
def State.transfer (s : State) (c : Ctx) (ups : Upsets) (units : List XUnit) (deliver : Nat → Nat → State → Stretch) : Effect :=
  let old := (s.blk c.b).xfer
  let from' := (old.map (·.cursor)).getD 0
  let s := s.takeUp c
  let todo := ((List.range units.length).zip units).drop from'
  let bar := s.firstBar ups (s.covered (todo.map (·.2))) todo
  let upto := (bar.map (·.1)).getD units.length
  let s := s.payUnits c ups ((todo.take (upto - from')).map (·.2))
  let x : Stretch := if from' < upto then deliver from' upto s else { s := s }
  let stat := (match old with | some y => y.stat | none => {}).merge x.stat
  let src := mergeSrc (match old with | some y => y.src | none => []) x.src
  let big := (match old with | some y => y.big | none => []) ++ x.big
  let v := x.s.dstView c
  let stalls := match bar with
    | some (_, .page _) => true
    | _ => false
  let whole := if src.isEmpty || stalls then {} else x.s.wholeRec c v src big
  let s := if src.isEmpty || stalls then x.s else x.s.fileTally c v.d whole
  match bar with
  | none => ⟨s, true, stat.merge whole⟩
  | some (k, b) => ⟨s.meetBar c ups k stat src big b, false, stat.merge whole⟩

/-- A transfer whose destination first takes the layout that waits for it: a page that the plan needs stalls it before its first unit
(R173, R266). -/
def State.settled (s : State) (c : Ctx) (ups : Upsets) (run : State → Effect) : Effect :=
  let t := (s.tref c.i.dst c.rep c.n).t
  match s.settleBar ups t c.n with
  | some b => ⟨(s.takeUp c).meetBar c ups 0 {} [] [] b, false, {}⟩
  | none => run (s.settleNow ups t c.n)

/-- Converted values delivered from element `off`, with the statistics of scale blocks filed. -/
def State.deliverVals (s : State) (c : Ctx) (v : View) (imp : Impose) (off : Nat) (vals : List Val) : Stretch :=
  let w := s.wctx c v imp
  let (s, r) := s.writeRun v w off vals
  let s := if fwRnd v.d.fmtw == 1 then s.countDraws c.b ((List.range vals.length).map (w.base + off + ·)) else s
  if v.d.bs = 0 then { s := s, src := (List.range vals.length).zip vals |>.map fun (k, x) => (off + k, x) }
  else { s := s.fileTally c v.d r, stat := r }

/-! ## VEC COPY -/

/-- The source index vector of a destination index vector (R255). -/
def permute (imm : Nat) (j : List Nat) : List Nat :=
  (List.range 6).map fun d =>
    match (List.range 6).find? fun k => imm / 8 ^ k % 8 == d with
    | some k => j.getD k 0
    | none => 0

/-- The source element of destination element `n`. -/
def copySource (imm : Nat) (src dst : View) (n : Nat) : Nat := linear src.ext (permute imm (coords dst.ext n))

/-- Whether a VEC COPY expands sparse storage (R191). -/
def expands (src dst : View) : Bool := src.d.sparse != 0 && dst.d.sparse == 0

/-- The source element of a destination element of VEC COPY, and whether it holds its value: a pruned position of a sparse source
expands to +0 under the scale of its quad (R191). -/
def State.copyFrom (s : State) (imm : Nat) (src dst : View) (n : Nat) : Kept :=
  if expands src dst then s.keptAt src (permute imm (coords dst.ext n)) else ⟨copySource imm src dst n, true, false⟩

/-- Whether a VEC COPY copies bits, scales included: equal format words and dimension 0 in its place (R255), or an expansion between equal
element formats and block sizes (R191). -/
def copiesBits (imm : Nat) (src dst : View) : Bool :=
  imm % 8 == 0 &&
  (src.d.fmtw == dst.d.fmtw || (expands src dst && fwFmt src.d.fmtw == fwFmt dst.d.fmtw && src.d.bs == dst.d.bs))

/-- The elements of delivery units `a` to `b` of a destination. -/
def unitEls (u a b : Nat) : List Nat := (List.range ((b - a) * u)).map (a * u + ·)

/-- The delivery units of a VEC COPY: what each reads and writes, metadata and plan entries included (R265, R266). -/
def State.copyUnits (s : State) (c : Ctx) : List XUnit :=
  let dst := s.dstView c
  let u := unitSize dst.d
  let plans := c.i.scl && dst.d.planned
  if c.i.srcA.isS then (List.range (dst.count / u)).map fun k => s.joinUnit {} dst (unitEls u k (k + 1)) true
  else
    let src := s.srcView c c.i.srcA
    let plans := plans && !copiesBits c.i.imm src dst
    (List.range (dst.count / u)).map fun k =>
      let ns := unitEls u k (k + 1)
      let x := s.joinUnit (s.joinUnit {} src (ns.map fun n => (s.copyFrom c.i.imm src dst n).el) false) dst ns true
      let x := if expands src dst then
          let mv := s.liveView src.d.mta
          s.joinUnit x mv ((ns.map fun n => let i := src.index (s.copyFrom c.i.imm src dst n).el
            linear mv.d.ext (i.headD 0 / 4 :: i.drop 1)).eraseDups) false
        else x
      if plans then s.joinPlans x dst [k * u] true true else x

/-- The effect of VEC COPY on a destination in its layout. A scalar slot is copied into every element (R126, R130). -/
def copyInto (ups : Upsets) (c : Ctx) (s : State) : Effect :=
  let dst := s.dstView c
  let u := unitSize dst.d
  if c.i.srcA.isS then
    s.transfer c ups (s.copyUnits c) fun a b s =>
      s.deliverVals c dst (s.imposeFor c) (a * u) (List.replicate ((b - a) * u) (s.slotVal c c.i.srcA.slot))
  else
    let src := s.srcView c c.i.srcA
    let at' := s.copyFrom c.i.imm src dst
    let inPlace := src.d == dst.d && c.i.imm % 8 == 1 && c.i.imm / 8 % 8 == 0
    let e := s.transfer c ups (s.copyUnits c) fun a b s =>
      if copiesBits c.i.imm src dst then
        { s := s.writeRaw dst (a * u) ((unitEls u a b).map fun n =>
            let k := at' n
            let x := s.rawEl src k.el
            if k.kept then { x with pois := x.pois || k.pois } else { bits := 0, scale := x.scale, pois := k.pois, scalePois := x.scalePois }) }
      else
        s.deliverVals c dst (s.imposeFor c) (a * u) ((unitEls u a b).map fun n =>
          let k := at' n
          let x := if k.kept then s.elem src k.el else Val.zero
          { x with pois := x.pois || k.pois })
    if e.done && inPlace then { e with s := e.s.count 3 c.b 4 1 } else e

/-- The effect of VEC COPY. -/
def copyRun (ups : Upsets) (c : Ctx) (s : State) : Effect := s.settled c ups (copyInto ups c)

def execVecCopy (f : Fire) (s : State) : Host.Outcome State Fault Refusal :=
  .next (s.fire f (fun i => i.op == opVec && i.var == 0) (copyRun f.ups))

/-! ## GATHER -/

/-- The index elements whose rows delivery units `a` to `b` begin (R203): `row` elements a row, `u` a unit. -/
def indexesIn (row u a b n : Nat) : List Nat := (List.range n).filter fun i => a * u ≤ i * row && i * row < b * u

/-- The delivery units of a GATHER (R203, R265, R268). A unit may hold several rows, where a row is shorter than a scale block. -/
def State.gatherUnits (s : State) (c : Ctx) : List XUnit :=
  let src := s.srcView c c.i.srcA
  let iv := s.srcView c c.i.srcB
  let dst := s.dstView c
  let row := src.rowSize
  let u := unitSize dst.d
  let ix := s.readIndex iv src.rows
  (List.range (ix.length * row / u)).map fun k =>
    let ns := unitEls u k (k + 1)
    let x := (ns.map (· / row)).eraseDups.foldl (fun x i =>
      let x := s.joinUnit x iv [i] false
      match ix.getD i .poisoned with
      | .bad d => { x with bar := x.bar <|> some (.index i d (countPoisoned (((indexesIn row u k (k + 1) ix.length).filter (· < i)).map fun j =>
          ix.getD j .poisoned))) }
      | .poisoned => x
      | .at n => if n < 0 then x else s.joinUnit x src ((ns.filter (· / row == i)).map fun m => n.toNat * row + m % row) false) ({} : XUnit)
    s.joinUnit x dst ns true

/-- The effect of GATHER on a destination in its layout. -/
def gatherInto (ups : Upsets) (c : Ctx) (s : State) : Effect :=
  let src := s.srcView c c.i.srcA
  let iv := s.srcView c c.i.srcB
  let dst := s.dstView c
  let row := src.rowSize
  let u := unitSize dst.d
  let ix := s.readIndex iv src.rows
  s.transfer c ups (s.gatherUnits c) fun a b s =>
    let mine := (indexesIn row u a b ix.length).map fun i => ix.getD i .poisoned
    let s := (s.count 2 c.b 3 (mine.filter (· == .at (-1))).length).count 2 c.b 5 (countPoisoned mine)
    let els := unitEls u a b
    if src.d.fmtw == dst.d.fmtw then
      { s := s.writeRaw dst (a * u) (els.map fun m =>
          match ix.getD (m / row) .poisoned with
          | .at n => if n < 0 then {} else s.rawEl src (n.toNat * row + m % row)
          | _ => { pois := true }) }
    else
      s.deliverVals c dst .fromMax (a * u) (els.map fun m =>
        match ix.getD (m / row) .poisoned with
        | .at n => if n < 0 then Val.zero else s.elem src (n.toNat * row + m % row)
        | _ => ⟨.zero, true⟩)

/-- The effect of GATHER. -/
def gatherRun (ups : Upsets) (c : Ctx) (s : State) : Effect := s.settled c ups (gatherInto ups c)

def execGather (f : Fire) (s : State) : Host.Outcome State Fault Refusal :=
  .next (s.fire f (·.op == opGather) (gatherRun f.ups))

/-! ## SCATTER_ADD -/

/-- FP32 values written to chosen elements of an unscaled destination, in one write, or as atomic adds (R336). -/
def State.writeElems (s : State) (v : View) (l : List (Nat × Val)) (adds : Bool := false) : State :=
  let conv := convertBlock v.d.fmtw none (fun _ => 0) (l.map (·.2))
  s.writePieces v.d ((l.zip conv.elems).filterMap fun ((n, _), (bits, q)) =>
    (s.spot v n).map fun p => (⟨p.byte, p.bit, v.d.w, bits, q⟩ : Piece)) adds

/-- What a delivery unit of a SCATTER_ADD does: clears an element of its destination (R138), adds element `k` of the rows into element `o`,
poisons an element (R207), or nothing. -/
inductive ScOp where
  | clear (o : Nat)
  | add (o k : Nat)
  | poison (o : Nat)
  | none
  deriving DecidableEq, Repr

/-- The units of a SCATTER_ADD in their order, each with the index element it reads: the clear of an accumulator's first use in the step,
then for each index the elements of its row, or, where the index is poisoned, every element of the destination. -/
def scatterOps (clear : Bool) (count row : Nat) (ix : List Index) : List (Option Nat × ScOp) :=
  let pre := if clear then (List.range count).map fun o => (none, ScOp.clear o) else []
  let rows := ix.zipIdx.flatMap fun (x, i) =>
    match x with
    | .poisoned => (List.range count).map fun o => (some i, ScOp.poison o)
    | .at n => (List.range row).map fun e =>
        if n < 0 then (some i, ScOp.none)
        else (some i, ScOp.add (n.toNat * row + e) (i * row + e))
    | .bad _ => [(some i, ScOp.none)]
  pre ++ rows

/-- The units of a firing of SCATTER_ADD. -/
def State.scatterOpsOf (s : State) (c : Ctx) : List (Option Nat × ScOp) :=
  let x := s.tref c.i.dst c.rep c.n
  let t := s.ten x.t
  let dst := s.dstView c
  scatterOps (t.desc.clr && t.cleared != c.n + 1) dst.count dst.rowSize (s.readIndex (s.srcView c c.i.srcB) dst.rows)

/-- The delivery units of a SCATTER_ADD (R205, R207, R265). -/
def State.scatterUnits (s : State) (c : Ctx) : List XUnit :=
  let src := s.srcView c c.i.srcA
  let iv := s.srcView c c.i.srcB
  let dst := s.dstView c
  let ix := s.readIndex iv dst.rows
  (s.scatterOpsOf c).map fun (i, op) =>
    let x : XUnit := match i with
      | some i =>
        let x := s.joinUnit {} iv [i] false
        match ix.getD i .poisoned with
        | .bad d => { x with bar := x.bar <|> some (.index i d 0) }
        | _ => x
      | none => {}
    match op with
    | .clear o => { s.joinUnit x dst [o] true with counts := false }
    | .add o k => { s.joinUnit (s.joinUnit x src [k] false) dst [o] true with adds := true }
    | .poison o => { s.joinUnit x dst [o] true with counts := false }
    | .none => { x with counts := false }

/-- The value of a row element as SCATTER_ADD decodes it: beyond FP32 range it saturates, or becomes infinity under OVF = 1 (R74, R205). -/
def scatterVal (dst : Desc) (x : Val) : Val := if fwOvf dst.fmtw && x.big then { x with num := .inf x.num.sign } else x.clamp

/-- The additions of a stretch of a SCATTER_ADD into its destination: each element takes its terms in an order left open, the j-th addition
made there in the step with draw j (R16, R143, R205). -/
def State.addRows (s : State) (c : Ctx) (dst src : View) (per from' : Nat) (made : Map Nat) (adds : List (Nat × Nat)) : List (Nat × Val) :=
  (adds.map (·.1)).eraseDups.map fun o =>
    let mine := adds.filter fun x => x.1 == o
    let mine := pick (Config.order (s.seed c (from' * dst.count + o))) mine.length mine
    (o, mine.zipIdx.foldl (fun a ((_, k), j) => addRnd (s.drawRnd c per o (look 0 o made + j)) a (scatterVal dst.d (s.elem src k))) (s.elem dst o))

/-- One stretch of a SCATTER_ADD: rows skipped, lost and poisoned counted, then elements cleared, added to and poisoned (R138, R204, R205,
R207, R208). -/
def State.scatterInto (s : State) (c : Ctx) (dst src : View) (ix : List Index) (from' : Nat) (all ops : List (Option Nat × ScOp)) : Stretch :=
  let row := dst.rowSize
  let begun := (all.take from').filterMap (·.1)
  let rows := ((ops.filterMap (·.1)).eraseDups).filter fun i => !begun.contains i
  let skips := (rows.filter fun i => ix.getD i .poisoned == .at (-1)).length
  let bad := (rows.filter fun i => ix.getD i .poisoned == .poisoned).length
  let lost := ((rows.filter fun i => ix.getD i .poisoned == .at (-1)).flatMap fun i =>
    (List.range row).filter fun e => (s.elem src (i * row + e)).pois).length
  let s := ((s.count 2 c.b 4 skips).count 2 c.b 5 bad).discard c.b lost
  let s := s.writeElems dst (ops.filterMap fun x => match x.2 with
    | .clear o => some (o, Val.zero)
    | _ => none)
  let adds := ops.filterMap fun x => match x.2 with
    | .add o k => some (o, k)
    | _ => none
  -- each repeat counts on where all add into one destination (R139)
  let made := if from' = 0 && (c.rep = 0 || !c.shares) then [] else (s.ten dst.t).made
  let done := s.addRows c dst src ix.length from' made adds
  let n (o : Nat) : Nat := (adds.filter fun x => x.1 == o).length
  let s := if c.stoAcc ix.length then
      (s.countDraws c.b ((done.map (·.1)).flatMap fun o => (List.range (n o)).map fun j => c.drawOf ix.length o (look 0 o made + j))).modTen dst.t
        fun x => { x with made := (done.map (·.1)).foldl (fun m o => adjust 0 o (· + n o) m) made }
    else s
  let big := (adds.filter fun x => (s.elem src x.2).big).map (·.1)
  let s := s.writeElems dst done true
  let s := s.writeElems dst (ops.filterMap fun x => match x.2 with
    | .poison o => some (o, { s.elem dst o with pois := true })
    | _ => none)
  { s := s, src := done, big := big }

/-- The effect of SCATTER_ADD. -/
def scatterRun (ups : Upsets) (c : Ctx) (s : State) : Effect :=
  let dst := s.dstView c
  let src := s.srcView c c.i.srcA
  let ix := s.readIndex (s.srcView c c.i.srcB) dst.rows
  let ops := s.scatterOpsOf c
  let e := s.transfer c ups (s.scatterUnits c) fun a b s => s.scatterInto c dst src ix a ops ((ops.take b).drop a)
  if e.done then { e with s := e.s.modTen (s.tref c.i.dst c.rep c.n).t fun r => { r with cleared := if r.desc.clr then c.n + 1 else r.cleared } } else e

def execScatterAdd (f : Fire) (s : State) : Host.Outcome State Fault Refusal :=
  .next (s.fire f (·.op == opScatter) (scatterRun f.ups))

/-! ## SEND -/

/-- Bits packed into bytes, the first lowest (R62). -/
def packBits (w : Nat) (l : List Nat) : List Byte :=
  le (ceilDiv (l.length * w) 8) (l.zipIdx.foldl (fun a (x, k) => a + x % 2 ^ w * 2 ^ (k * w)) 0)

/-- The payload of a tensor: its element stream, then its scale bytes, and which bytes are poisoned (R218). -/
def State.payload (s : State) (v : View) : List Byte × List Bool :=
  let els := (List.range v.count).map fun n =>
    match s.spot v n with
    | some p => (s.tBits v.d p.byte p.bit v.d.w, s.tBitsPois v.d p.byte p.bit v.d.w)
    | none => (0, true)
  let scs := if v.d.bs = 0 then [] else (List.range (v.count / v.d.bs)).map fun k =>
    match s.spot v (k * v.d.bs) with
    | some p => (s.tByte v.d p.scale, s.tPois v.d p.scale)
    | none => (0, true)
  let bytes := packBits v.d.w (els.map (·.1))
  let pois := (List.range bytes.length).map fun b =>
    els.zipIdx.any fun (e, n) => e.2 && n * v.d.w < 8 * b + 8 && 8 * b < (n + 1) * v.d.w
  (bytes ++ scs.map (·.1), pois ++ scs.map (·.2))

/-- Poison of each 64-bit word from that of its bytes. -/
def wordPois (l : List Bool) : List Bool := (pieces 8 l).map fun p => p.any id

/-- The effect of SEND: the granted transfer is written; a structural error breaks the queue (R220, R231). -/
def sendRun (ups : Upsets) (c : Ctx) (s : State) : Effect :=
  let q := c.i.dst.queue
  let s := (structural ups).foldl (fun s d => s.breakQueue q d) s
  let (bytes, pois) := if c.i.srcA.isS then
      let v := s.slotVal c c.i.srcA.slot
      (le 4 (enc32 v.num), List.replicate 4 v.pois)
    else s.payload (s.srcView c c.i.srcA)
  ⟨s.writeTransfer q (.stage c.b c.g.idx c.p) c.n bytes (wordPois pois), true, {}⟩

def execSend (f : Fire) (s : State) : Host.Outcome State Fault Refusal :=
  .next (s.fire f (·.isSend) (sendRun f.ups))

/-! ## RECV -/

/-- The payload of a packet or of items stored into a destination as far as it goes: elements, the last of which may come only in part,
and scale bytes (R218, R223); the blocks that got an element are marked as written since load (R173). Answers the state and the scale blocks
touched. -/
def State.storePayload (s : State) (v : View) (bytes : List Byte) (pois : List Bool) : State × List Nat :=
  let nb := bytes.length
  let w := v.d.w
  let dataBytes := ceilDiv (v.count * w) 8
  let word := ofLe (bytes.take dataBytes)
  let bad (lo hi : Nat) : Bool := ((List.range (hi / 64 + 1 - lo / 64)).any fun k => pois.getD (lo / 64 + k) false)
  let els := (List.range v.count).filterMap fun n =>
    let k := Min.min w (8 * nb - n * w)
    if k = 0 then none
    else (s.spot v n).map fun p =>
      ((⟨p.byte, p.bit, k, word >>> (n * w) % 2 ^ k, bad (n * w) (n * w + k - 1)⟩ : Piece), n)
  let scs := if v.d.bs = 0 then [] else (List.range (v.count / v.d.bs)).filterMap fun k =>
    let o := dataBytes + k
    if nb ≤ o then none
    else (s.spot v (k * v.d.bs)).map fun p => ((⟨p.scale, 0, 8, (bytes.getD o 0).toNat, bad (8 * o) (8 * o + 7)⟩ : Piece), k * v.d.bs)
  let s := s.writePieces v.d ((els ++ scs).map (·.1))
  let s := (s.blocksIn v 0 els.length).foldl (fun s b => s.markWritten v.t b) s
  (s, if v.d.bs = 0 then [] else (((els ++ scs).map fun x => x.2 / v.d.bs).eraseDups))

/-- The acceptance check of one scale block of a view, as stored (R58); its rounded-to-zero count. -/
def State.acceptAt (s : State) (v : View) (k : Nat) : State × Nat :=
  let ns := (List.range v.d.bs).map (k * v.d.bs + ·)
  match s.spot v (k * v.d.bs) with
  | none => (s, 0)
  | some p0 =>
    let x := (s.tByte v.d p0.scale).toNat
    let els := ns.map fun n => (s.rawElem v n).1
    let (x', els', rz) := acceptBlock (fwFmt v.d.fmtw) x els
    if x' = x then (s, 0)
    else
      let pois (n : Nat) : Bool := match s.spot v n with
        | some p => s.tBitsPois v.d p.byte p.bit v.d.w
        | none => false
      let ps := (ns.zip els').filterMap fun (n, b) => (s.spot v n).map fun p => (⟨p.byte, p.bit, v.d.w, b, pois n⟩ : Piece)
      (s.writePieces v.d (⟨p0.scale, 0, 8, x', s.tPois v.d p0.scale⟩ :: ps), rz)

/-- Whether a queue takes data from outside the module. -/
def fromIngress (e : QEntry) : Bool := e.producers.any fun p => p == some Endpoint.ingress

/-- The effect of RECV (R223, R228, R231). -/
def recvRun (ups : Upsets) (c : Ctx) (s : State) : Effect :=
  let qid := c.i.srcA.queue
  let s := s.settle (s.tref c.i.dst c.rep c.n).t c.n
  let s := (structural ups).foldl (fun s d => s.breakQueue qid d) s
  let v := s.dstView c
  let size := v.bytes
  match s.queue? qid with
  | none => ⟨s, false, {}⟩
  | some q =>
    if q.broken then
      ⟨(s.storePayload v (List.replicate size 0) (List.replicate (ceilDiv size 8) true)).1, true, {}⟩
    else
      let units := q.ready.take (s.recvUnits c q.ent)
      let got := units.map (s.readUnit qid q.ent)
      let bytes := got.flatMap (·.1)
      if q.ent.mode = 1 && size < bytes.length then
            ⟨raise s (faultCode 1 DESC_BOUNDS 0x01) (srcBlock c.b) v.t, false, {}⟩
      else
        let hits := payloadHits ups
        let pois := hitWords hits (got.flatMap (·.2))
        let s := hits.foldl (fun s _ => s.payloadParity qid) s
        let s := s.count 8 (qRegion qid) 9 (pois.filter id).length
        let short := bytes.length < size
        let s := s.count 8 (qRegion qid) 5 (b2n (q.ent.mode = 1 && short))
        let (s, l) := s.storePayload v (bytes.take size) pois
        let check := v.d.bs != 0 && fromIngress q.ent
        let (s, rz) := if check then
            l.foldl (fun (s, n) k => let (s, m) := s.acceptAt v k; (s, n + m)) (s, 0)
          else (s, 0)
        let s := if rz = 0 then s else s.fileTally c v.d { rz := rz }
        ⟨s.takeUnits qid units.length c.n, true, {}⟩

def execRecv (f : Fire) (s : State) : Host.Outcome State Fault Refusal :=
  .next (s.fire f (·.isRecv) (recvRun f.ups))

/-! ## Resuming -/

/-- A stalled transfer goes on from its cursor when its page has come (R266). -/
def State.resume (s : State) (ups : Upsets) (b : Nat) : State :=
  match (s.blk b).xfer with
  | none => s
  | some x =>
    let f : Fire := { blk := b, stage := x.stage, pos := x.pos, ups := ups }
    match s.ctx? f with
    | none => s
    | some c =>
      if c.i.op = opGather then s.fire f (·.op == opGather) (gatherRun ups)
      else if c.i.op = opScatter then s.fire f (·.op == opScatter) (scatterRun ups)
      else s.fire f (fun i => i.op == opVec && i.var == 0) (copyRun ups)

end Sys2Proof.Machine
end

