-- ==== Sys2Proof/Machine/Optim.lean ====
section
/-! DEFINITION. The arithmetic of the update engines: learning rates (R276), the update delta (R277) and its application (R177, R178,
R280). -/

namespace Sys2Proof.Machine

/-- The value of a schedule at a step: linear between the breakpoints that bracket it, constant beyond the last; formed exactly and
rounded once (R276; DEDUCED, log 26). -/
def schedule : List (Nat × Nat) → Nat → Number
  | [], _ => .zero
  | [(_, v)], _ => dec32 v
  | (s0, v0) :: (s1, v1) :: r, n =>
    if s1 ≤ n then schedule ((s1, v1) :: r) n
    else
      let a := (dec32 v0).mul (.ofNat (s1 - n))
      let b := (dec32 v1).mul (.ofNat (n - s0))
      ((a.add b).div (.ofNat (s1 - s0))).r32

/-- λ of a privileged layer in the update of step `n` (R178): a change holds from its own step on. -/
def State.lambdaFor (s : State) (layer n : Nat) : Nat :=
  match find? (govKey layer 0) s.gov.ks with
  | some k => if n < k.lambdaFrom then k.lambdaOld else k.lambda
  | none => 0

/-- The learning rate of a layer at a step (R276). -/
def State.eta (s : State) (p : Profile) (n : Nat) : Number :=
  let base := fmul (schedule (s.job.flock.schedules.getD p.sched []) n) (dec32 p.lrMult)
  if s.privileged p.layer then (base.mul (Number.pow2 (s.lambdaFor p.layer n))).r32 else base

/-- a × b + c × d, one product fused with the sum; which one is left open (R277, log 8). -/
def fma2 (op : Nat) (a b c d : Number) : Number :=
  if Config.ulp op [enc32 a, enc32 b, enc32 c, enc32 d] % 2 = 0 then ffma a b (fmul c d) else ffma c d (fmul a b)

/-- One element as the update engine reads it. -/
structure UpIn where
  w : Number
  g : Number
  st : List Number
  rem : Number
  deriving Repr

/-- One element as the update engine leaves it; `u` is the pre-ratio u of TRUST. -/
structure UpOut where
  w : Number
  st : List Number
  rem : Number
  lost : Bool := false
  nonfin : Bool := false
  u : Number := .zero
  deriving Repr

def Number.finite (x : Number) : Bool := !x.isNan && !x.isInf

/-- g after GSCALE and GCLIP. -/
def clipGrad (p : Profile) (g : Number) : Number :=
  let c := dec32 p.gclip
  if c.isZero then g else (g.max c.neg).min c

/-- The update delta of one element: delta, the new state values, and the pre-ratio u (R277). -/
def delta (p : Profile) (eta ratio : Number) (t : Nat) (w g : Number) (st : List Number) : Number × List Number × Number :=
  let one := Number.ofNat 1
  let wd := dec32 p.wd
  if p.opt = 0 then
    let mu := dec32 p.mu
    let b := ffma mu (st.getD 0 .zero) g
    let d := if p.nesterov then ffma mu b g else b
    (fmul eta.neg (ffma wd w d), [b], .zero)
  else
    let b1 := dec32 p.beta1
    let b2 := dec32 p.beta2
    let m := fma2 0x30 b1 (st.getD 0 .zero) (fsub one b1) g
    let s0 := st.getD 1 .zero
    let s := fsqrt (fma2 0x31 (fmul b2 s0) s0 (fmul (fsub one b2) g) g)
    let pow (op : Nat) (b : Number) : Number := within 1 op [b, .ofNat t] (b.pow t)
    let mh := if p.biasCorr then fdiv m (fsub one (pow 0x32 b1)) else m
    let sh := if p.biasCorr then fdiv s (fsqrt (fsub one (pow 0x33 b2))) else s
    let u := ffma wd w (fdiv mh (fadd sh (dec32 p.eps)))
    let v := if p.opt = 2 then fmul u ratio else u
    (fmul eta.neg v, [m, s], u)

/-- apply (R177): the new master, the new remainder, and whether the update was lost. A remainder beyond a master that overflowed is a
free value. -/
def applyDelta (w d rem : Number) : Number × Number × Bool :=
  let t := fadd d rem
  let w' := fadd w t
  let r := if w'.finite then ((w.add t).sub w').r32 else dec32 (Config.ulp 0x34 [enc32 w, enc32 t] % 2 ^ 32)
  (w', r, !t.isZero && w'.eqv w)

/-- One element updated, or left unchanged where something is not finite (R280). `keeps` says whether the layer keeps remainders. -/
def updateElem (p : Profile) (eta ratio : Number) (t : Nat) (keeps : Bool) (x : UpIn) : UpOut :=
  let same : UpOut := { w := x.w, st := x.st, rem := x.rem, nonfin := true }
  let g := fmul x.g (dec32 p.gscale)
  if !g.finite then same
  else
    let (d, st, u) := delta p eta ratio t x.w (clipGrad p g) x.st
    if !d.finite || !st.all Number.finite then { same with u := u }
    else
      let (w, r, lost) := applyDelta x.w d (if keeps then x.rem else .zero)
      { w := w, st := st, rem := r, lost := lost, u := u }

end Sys2Proof.Machine
end

