-- ==== Sys2Proof/Machine/QueueCmd.lean ====
section
/-! DEFINITION. The commands of the queue manager (R224-R240): requests, grants, visibility, the read timeout, egress forwarding and
the no-progress watchdog; and input streams as their queues see them (R239, R240, R420). -/

namespace Sys2Proof.Machine

/-! ## Requests -/

/-- The transfer of a stage that asks for cells: its SEND meets conditions 1 to 5 of R134 and has not asked before (R227). -/
def State.sendAsks (s : State) (qid b st pos : Nat) : Option Ctx :=
  match s.ctx? { blk := b, stage := st, pos := pos } with
  | none => none
  | some c =>
    let r := s.run b st
    if c.i.isSend && c.i.dst.queue == qid && s.issuing && !(s.blk b).excluded && !s.atStop c && !r.atRest &&
       (r.window c.g).contains pos && s.noConflict c && s.unitFree c && (s.srcRefs c).all (s.srcReady c)
    then some c else none

/-- Whether a requester of a queue has a request waiting or a grant held. -/
def Queue.asked (q : Queue) (who : Requester) : Bool := (q.reqs.any fun x => x.who == who) || q.grants.contains who

/-- The input stream bound to an ingress queue. -/
def State.streamOf (s : State) (qid : Nat) : Option (Nat × Stream) := s.hci.streams.find? fun e => e.2.queue == qid

/-- A request placed behind the earlier ones (R224, R225). -/
def State.request (s : State) (qid : Nat) (who : Requester) (step amount : Nat) : State :=
  match s.queue? qid with
  | some q => s.setQueue qid { q with reqs := q.reqs ++ [{ who := who, step := step, amount := amount, since := s.board.time }] }
  | none => s

/-- Requests of one requester that wait in a queue. -/
def Queue.waits (q : Queue) (who : Requester) : Nat := (q.reqs.filter fun x => x.who == who).length

/-- CELL_REQUEST: a stage's SEND, the control port for the next message that waits, or a Drover slice for its next packet asks the
queue for cells (R224, R227). -/
def execCellRequest (queue : Nat) (who : Requester) (amount : Nat) (s : State) : Host.Outcome State Fault Refusal :=
  match s.queue? queue with
  | none => .next s
  | some q =>
    match who with
    | .stage b st pos =>
      match s.sendAsks queue b st pos with
      | some c => if q.asked who then .next s else .next (s.request queue who c.n (s.requestBytes queue who amount))
      | none => .next s
    | .ingress =>
      match s.streamOf queue with
      | some (_, x) =>
        match x.waiting[q.waits who]? with
        | some m => .next (s.request queue who 0 m.length)
        | none => .next s
      | none => .next s
    | .drover _ =>
      match (s.drv.packets.filter fun x => x.1 == queue)[q.waits who]? with
      | some (_, n, m) => .next (s.request queue who n m.length)
      | none => .next s

/-! ## Grants -/

/-- The lane of an input stream at the control port, in the numbering of R363 (R369). -/
def streamLane (k : Nat) : Nat := 2 * (k + 2)

/-- The credits withheld from a stream are returned once no message of it waits for cells (R420). -/
def State.endPressure (s : State) (k : Nat) : State :=
  match find? k s.hci.streams with
  | some x =>
    if !x.waiting.isEmpty || x.withheld = 0 then s
    else ({ s with hci := { s.hci with streams := put k { x with withheld := 0 } s.hci.streams } } : State).repay 32 (streamLane k) x.withheld
  | none => s

/-- What a grant to the control port or to a Drover slice writes at once: the message or packet that waited (R220, R314). -/
def State.writeWaiting (s : State) (qid : Nat) (who : Requester) : State :=
  match who with
  | .stage .. => s
  | .ingress =>
    match s.streamOf qid with
    | some (k, x) =>
      match x.waiting with
      | m :: rest =>
        let s := { s with hci := { s.hci with streams := put k { x with waiting := rest } s.hci.streams } }
        (s.endPressure k).writeTransfer qid who 0 m []
      | [] => s
    | none => s
  | .drover _ =>
    match s.drv.packets.find? fun x => x.1 == qid with
    | some p =>
      let s := { s with drv := { s.drv with packets := s.drv.packets.erase p } }
      s.writeTransfer qid who p.2.1 p.2.2 []
    | none => s

/-- What the request of a stage last waited for, as far as its wait has been dated: the DEADLOCK detail (R238, R482). -/
def State.lastBar (s : State) (queue b st : Nat) : Option Nat :=
  ((s.rgn 0).waits.find? fun y => 2 ≤ y.1 && y.1 ≤ 4 && y.2.1 == b && y.2.2.1 == st && y.2.2.2.1 == queue).map (·.1)

/-- The record of a SEND that waited for its grant. The gate waited for the producer whose transfer completed last; the reason of a wait that
was not dated is a free choice (R482, log 90). -/
def State.grantWait (s : State) (q : Queue) (x : QReq) (reason : Nat) : State :=
  match x.who with
  | .stage b st _ =>
    let r := qRegion q.ent.qid
    let bar := (s.lastBar q.ent.qid b st).getD (2 + reason % 3)
    let awaited := if bar = 0x04 then q.lastSend.map (fun p => Endpoint.stage p.1 p.2) else q.ent.consumer
    let (aw, st') : Nat × Nat := if bar = 0x03 then (srcRegion r, 0xFF) else match awaited with
      | some (.stage cb cs) => (srcBlock cb, cs)
      | some (.drover d) => (srcDrover d, 0xFF)
      | some _ => (srcPort 32, 0xFF)
      | none => (srcRegion r, 0xFF)
    s.waitRec (regionOf b) { kind := 0x02, flags := 4, src := srcBlock b, stage := st, start := x.since, awStage := st', awSrc := aw,
                             awDev := s.drv.device, detail := bar, obj := q.ent.qid + x.step % 2 ^ 32 * 2 ^ 32 }
  | _ => s

/-- DEADLOCK detail of a bar on a grant (R238). -/
def barDetail (bar : Nat) : Nat := match bar with | 1 => 0x02 | 2 => 0x03 | _ => 0x04

/-- A requester's place in the round of a region's pool allocator: the region's blocks, then its Drover slice; others take no turns (R31). -/
def turnAt (r : Nat) : Requester → Option Nat
  | .stage b _ _ => if regionOf b = r then some (b % 64) else none
  | .drover _ => some 64
  | _ => none

/-- The places of the requesters whose first request on some queue of a region nothing bars. -/
def State.turnsIn (s : State) (r : Nat) : List Nat :=
  s.queues.filterMap fun (qid, q) =>
    if qRegion qid != r then none
    else match q.reqs with
      | x :: _ => if (s.grantBar q x).isNone then turnAt r x.who else none
      | [] => none

/-- Whether a requester is served now: none that could be stands before it in the round (R31; the round starts at the region's first block:
DESIGN CHOICE, log 30). -/
def State.hasTurn (s : State) (r : Nat) (who : Requester) : Bool :=
  let at' (k : Nat) := (k + 65 - (s.rgn r).turn % 65) % 65
  match turnAt r who with
  | some k => (s.turnsIn r).all fun j => at' k ≤ at' j
  | none => true

/-- The round goes on behind a requester that was served. -/
def State.tookTurn (s : State) (r : Nat) (who : Requester) : State :=
  match turnAt r who with
  | some k => s.modRgn r fun g => { g with turn := (k + 1) % 65 }
  | none => s

/-- The step gate opens where it admits the first request, and the request is granted where nothing bars it and its requester's turn has
come, and what waited for it written. In a faulted or halted module nothing is (R31, R36, R225, R496). -/
def State.grantNow (s : State) (qid : Nat) : State :=
  if s.glb.halted || !s.inState [.ready, .running, .paused] then s
  else
  let s := s.gateOpens qid
  match s.queue? qid with
  | none => s
  | some q =>
    match q.reqs with
    | [] => s
    | x :: _ =>
      if (s.grantBar q x).isSome || !s.hasTurn (qRegion qid) x.who then s
      else
        let s := s.tookTurn (qRegion qid) x.who
        let free := Config.free s.fresh
        let s := if x.since + 100 ≤ s.board.time then ({ s with fresh := s.fresh + 1 } : State).grantWait q x (free 0) else s
        (s.grantFirst qid).writeWaiting qid x.who

/-- CELL_GRANT (R225, R226). -/
def execCellGrant (queue : Nat) (s : State) : Host.Outcome State Fault Refusal := .next (s.grantNow queue)

/-! ## Streams -/

/-- A stream that closes completes once every message accepted before is visible (R420): its status and both counts. -/
def State.streamSettles (s : State) (k : Nat) : State :=
  match find? k s.hci.streams with
  | none => s
  | some x =>
    let left := match s.queue? x.queue with
      | some q => q.units.any fun u => u.who == .ingress
      | none => false
    if !x.closing || !x.waiting.isEmpty || left then s
    else
      let s := { s with hci := { s.hci with streams := drop k s.hci.streams } }
      let status := if x.rejected != 0 then stBad else if x.missed != 0 then stMissed else stDone
      match s.hci.handles.find? fun h => h.opcode == 0x71 && h.arg == k with
      | some h => s.finish h status (le 8 x.accepted ++ le 4 x.rejected ++ le 4 x.missed)
      | none => s.count 18 32 10 1

/-- One packet of an ingress queue has become visible: a paced one that misses its deadline counts, and is recorded (R239, R240). -/
def State.paced (s : State) (qid : Nat) (e : QEntry) : State :=
  match s.streamOf qid with
  | none => s
  | some (k, x) =>
    let j := x.index
    let late := e.paced && x.topen + e.slack + j * e.period < s.board.time
    let s := { s with hci := { s.hci with streams := put k { x with index := j + 1, missed := x.missed + b2n late } s.hci.streams } }
    if !late then s
    else
      let r := qRegion qid
      let s := (s.modRgn r fun g => { g with deadline := satAdd max32 g.deadline 1 }).rgnSticky r 6
      s.trace 0 { kind := 0x11, src := srcPort 32, start := s.localTime (srcPort 32) 0x11, detail := k, obj := qid + j % 2 ^ 32 * 2 ^ 32 }

/-! ## Waits (R238, R482) -/

/-- Whether a queue has a Drover endpoint. -/
def QEntry.atDrover (e : QEntry) : Bool :=
  (e.producers.any fun p => match p with | some (.drover _) => true | _ => false) ||
  match e.consumer with
  | some (.drover _) => true
  | _ => false

/-- What a firing waits for (R238): a detail code and a queue. An external wait is code 0. -/
def State.waitOf (s : State) (c : Ctx) : Option (Nat × Nat) :=
  if c.i.isRecv && !s.recvReady c then
    match s.queue? c.i.srcA.queue with
    | some q => some (if q.ent.cls = 1 || q.ent.atDrover then 0 else 0x01, q.ent.qid)
    | none => none
  else if c.i.isSend && !s.sendReady c then
    match s.queue? c.i.dst.queue with
    | some q =>
      if q.ent.cls = 2 || q.ent.atDrover then some (0, q.ent.qid)
      else (q.reqs.head?.bind (s.grantBar q)).map fun b => (barDetail b, q.ent.qid)
    | none => none
  else none

/-- The stages that wait on conditions 0x01 to 0x05: detail, block, stage, queue. -/
def State.stuck (s : State) : List (Nat × Nat × Nat × Nat) :=
  s.hosting.flatMap fun b =>
    let waits := (s.stages b).flatMap fun g => (s.candidates b g).filterMap fun c =>
      (s.waitOf c).map fun (d, q) => (d, b, g.idx, q)
    let drain := match s.liveLayer b with
      | some l => ((s.stages b).filter fun g => g.layer == l && (s.run b g.idx).atRest).take 1 |>.map fun g => (0x05, b, g.idx, 0)
      | none => []
    waits ++ drain

/-- The producer of a unit as a trace record names it: source and stage. -/
def producerSrc : Requester → Nat × Nat
  | .stage b st _ => (srcBlock b, st)
  | .drover r => (srcDrover r, 0xFF)
  | .ingress => (srcPort 32, 0xFF)

/-- The records of the RECVs of a queue whose waits have ended since an earlier state: the last unit they needed ended them (R228, R482). -/
def State.endRecvWaits (s old : State) (queue : Nat) (e : QEntry) (seen : List QUnit) : State :=
  let (aw, st) := ((seen.getLast?).map fun u => producerSrc u.who).getD (0, 0xFF)
  let ended := old.stuck.filter fun x => x.1 ≤ 1 && x.2.2.2 == queue && e.consumer == some (.stage x.2.1 x.2.2.1) && !s.stuck.contains x
  s.endWaits ended fun x =>
    { kind := 0x01, flags := 4, awStage := st, awSrc := aw, awDev := s.drv.device,
      obj := queue + (s.blk x.2.1).step % 2 ^ 32 * 2 ^ 32 }

/-- DATA_VISIBLE: every unit written, in closed cells, and behind none that is not, can now be read (R222, R227). -/
def execDataVisible (queue : Nat) (s : State) : Host.Outcome State Fault Refusal :=
  match s.queue? queue with
  | none => .next s
  | some q =>
    let seen := s.visibleNow queue q
    if seen.isEmpty then .next s
    else
      let old := s
      let rest := q.units.drop seen.length
      let ready := q.ready ++ seen
      let s := s.setQueue queue { q with units := rest, ready := ready, vis := q.nextPos rest,
                                         vcnt := Min.min 65535 ready.length }
      let s := (seen.filter fun u => u.who == .ingress).foldl (fun s _ => s.paced queue q.ent) s
      let s := s.endRecvWaits old queue q.ent seen
      match s.streamOf queue with
      | some (k, _) => .next (s.streamSettles k)
      | none => .next s

/-! ## Read timeout -/

/-- The consumer of a queue as a trace record names it: source and stage. -/
def consumerSrc (e : QEntry) : Nat × Nat :=
  match e.consumer with
  | some (.stage b st) => (srcBlock b, st)
  | some .egress => (srcPort 32, 0xFF)
  | some (.drover r) => (srcDrover r, 0xFF)
  | _ => (0, 0xFF)

/-- Whether a queue is waiting: it holds unread data, or its tail cell is open and holds words (R229). -/
def State.queueWaits (s : State) (qid : Nat) (q : Queue) : Bool :=
  q.head != q.tail || match q.chain.getLast? with
    | some c => let x := s.ctl (qRegion qid) c; !x.closed && 0 < x.fill
    | none => false

/-- QUEUE_READ_TIMEOUT: a waiting queue that has not raised its notice since it was last read raises it, and its tail closes
(R221, R229, R230). -/
def execQueueReadTimeout (queue : Nat) (s : State) : Host.Outcome State Fault Refusal :=
  match s.queue? queue with
  | none => .next s
  | some q =>
    if q.toFlag || !s.queueWaits queue q then .next s
    else
      let r := qRegion queue
      let s := s.setQueue queue { q with toFlag := true }
      let s := s.modRgn r fun g => { g with toCnt := satAdd max32 g.toCnt 1, toValid := true, toQueue := qLocal queue }
      let (aw, st) := consumerSrc q.ent
      let s := (s.rgnSticky r 4).trace r { kind := 0x10, flags := 4, src := srcRegion r, start := s.localTime (srcRegion r) 0x10, awStage := st,
                                           awSrc := aw, awDev := s.drv.device, obj := queue }
      .next (s.closeTail queue)

/-! ## Egress -/

/-- Units sent until one holds a poisoned word: how many, the state, and whether one did (R231). -/
def State.sendUnits (s : State) (qid : Nat) (e : QEntry) (hits : List Nat) : Nat → List QUnit → Nat × State × Bool
  | _, [] => (0, s, false)
  | at', u :: r =>
    let (bytes, pois) := s.readUnit qid e u
    let pois := pois.zipIdx.map fun (p, k) => p || hits.contains (at' + k)
    if pois.any id then (0, s.count 8 (qRegion qid) 9 (pois.filter id).length, true)
    else
      let (n, s, b) := (s.send (.egress e.stream qid bytes)).sendUnits qid e hits (at' + pois.length) r
      (n + 1, s, b)

/-- EGRESS_FORWARD: the control port sends what stands before MARK0, and stops at a poisoned unit with POISON_COMMIT (R231,
R234); where issue has stopped, it stands there already. A broken queue forwards nothing. -/
def execEgressForward (queue : Nat) (ups : Upsets) (s : State) : Host.Outcome State Fault Refusal :=
  match s.queue? queue with
  | none => .next s
  | some q =>
    let upto := q.ready.takeWhile fun u => u.first != q.mark0
    if q.ent.cls != 2 || q.broken || upto.isEmpty || (s.port 32).st != 2 then .next s
    else
      let s := (structural ups).foldl (fun s d => s.breakQueue queue d) s
      if !(structural ups).isEmpty then .next s
      else
        let hits := payloadHits ups
        let s := hits.foldl (fun s _ => s.payloadParity queue) s
        let old := s
        let (n, s, bad) := s.sendUnits queue q.ent hits 0 upto
        if bad && n = 0 && old.err.stopIssue then .next old else
        let s := if n = 0 then s else s.takeUnits queue n 0
        if bad then .next (raise s (faultCode 2 POISON_COMMIT 0x04) (srcPort 32) queue) else .next s

/-! ## The no-progress watchdog -/

/-- Whether some stage waits for an external reason (R238): a queue of that kind, a seal awaiting its verdict, a page, a
working copy (R283), or a pause. -/
def State.externalWait (s : State) : Bool :=
  s.stop.id.isSome || (s.sourceWaits.any fun x => x.1 == 6) || s.hosting.any fun b =>
    (s.blk b).sealWait || (s.blk b).xfer.isSome || (s.stages b).any fun g =>
      (s.run b g.idx).sealFired || (s.candidates b g).any fun c => (s.waitOf c).any fun w => w.1 == 0

/-- What is kept from one nanosecond to the next: since when each stage and block waits, and a count that starts again while an external
wait lasts (R238, R482). -/
def State.watch (s : State) : State :=
  let t := s.board.time
  let now := if s.glb.mstate == .running then s.stuck ++ s.sourceWaits else []
  s.modRgn 0 fun g =>
    { g with wdogFrom := if s.externalWait then t + 1 else g.wdogFrom,
             waits := now.map fun (d, b, st, q) =>
               (d, b, st, q, ((g.waits.find? fun x => x.1 == d && x.2.1 == b && x.2.2.1 == st && x.2.2.2.1 == q).map (·.2.2.2.2)).getD t) }

/-- Since when a waiting stage waits. -/
def State.waitsSince (s : State) (x : Nat × Nat × Nat × Nat) : Nat :=
  (((s.rgn 0).waits.find? fun y => y.1 == x.1 && y.2.1 == x.2.1 && y.2.2.1 == x.2.2.1 && y.2.2.2.1 == x.2.2.2).map (·.2.2.2.2)).getD s.board.time

/-- The stages that have waited longest. -/
def State.longest (s : State) : List (Nat × Nat × Nat × Nat) :=
  let l := s.stuck
  l.filter fun x => l.all fun y => s.waitsSince x ≤ s.waitsSince y

/-- DEADLOCK: the count has reached its limit with no external wait; the stage named is the one that has waited longest (R238). Which of
several that began to wait together is free (log 24). -/
def execDeadlock (s : State) : Host.Outcome State Fault Refusal :=
  if !(s.glb.mstate == .running && !s.err.stopIssue) || s.externalWait then .next s
  else
    let l := s.longest
    let s' := { s with fresh := s.fresh + 1 }
    match l[Config.free s.fresh 0 % l.length]? with
    | some (d, b, st, q) => .next (raise s' (faultCode 3 DEADLOCK d) (srcRegion 0) (q * 2 ^ 20 + st % 16 * 2 ^ 16 + b))
    | none => .next (raise s' (faultCode 3 DEADLOCK 0x06) (srcRegion 0) 0)

/-- The watchdog's count in region cycles of 1.5 GHz (R238, R241). -/
def State.wdogCount (s : State) : Nat :=
  if s.glb.mstate != .running || s.externalWait then 0 else Min.min (2 ^ 20) ((s.board.time - (s.rgn 0).wdogFrom) * 3 / 2)

end Sys2Proof.Machine
end

