-- ==== Sys2Proof/Machine/Params.lean ====
section
/-! DEFINITION. Working copies on their way (R271, R281, R283, R289, R313, R314): conversion from the masters, multicast, receipt, and the
parameter-ready packet. -/

namespace Sys2Proof.Machine

/-- A run of elements of a tensor: the first and how many. -/
abbrev Span := Nat × Nat

/-- Neighbouring elements of a rising list joined into spans. -/
def spansOf : List Nat → List Span
  | [] => []
  | a :: r =>
    match spansOf r with
    | (b, n) :: l => if a + 1 = b then (a, n + 1) :: l else (a, 1) :: (b, n) :: l
    | [] => [(a, 1)]

/-- A span cut at multiples of `n` elements. -/
def cutSpan (n : Nat) : Nat → Span → List Span
  | 0, x => [x]
  | f + 1, (a, k) =>
    let m := n - a % n
    if k ≤ m then [(a, k)] else (a, m) :: cutSpan n f (a + m, k - m)

/-! ## Filling a copy -/

/-- A tensor's layer's parameter-ready queues: packet queues that a Drover slice feeds to a stage of the layer (R314; the layer of
a queue is that of its consumer: DEDUCED, log 27). -/
def State.readyQueues (s : State) (layer : Nat) : List (Nat × Nat) :=
  s.queues.filterMap fun (qid, q) =>
    let r := q.ent.producers.findSome? fun p => match p with | some (.drover r) => some r | _ => none
    match r, q.ent.consumer with
    | some r, some (.stage b st) =>
      match s.stage? b st with
      | some g => if q.ent.mode = 1 && g.layer == layer then some (qid, r) else none
      | none => none
    | _, _ => none

/-- The parameter-ready packet of a layer (R314). -/
def readyPacket (step layer : Nat) : List Byte := le 8 step ++ le 2 layer ++ le 6 0

/-- Every working copy of a layer in one buffer is whole for the step it will serve. -/
def State.layerWhole (s : State) (layer buf serves : Nat) : Bool :=
  (s.mastersOf layer).all fun m => (s.copiesOf layer m).all fun c => (s.ten (bufOf c buf)).asOf == serves + 1

/-- A layer's copies are whole: its packet waits for cells, the wait on them ends, and a refresh may be over (R283, R289, R314). -/
def State.copiesWhole (s : State) (layer buf step serves : Nat) : State :=
  if !s.layerWhole layer buf serves then s
  else
    let s := { s with drv := { s.drv with packets := s.drv.packets ++ (s.readyQueues layer).map fun (q, _) => (q, step, readyPacket step layer),
                                          paramFrom := s.drv.paramFrom.filter fun x => !(x.1 == layer && x.2.1 == step) } }
    if s.upd.refresh && (s.masters.all fun (l, _) => s.layerWhole l s.upd.live s.upd.liveOf) then
      { s with upd := { s.upd with refresh := false } }
    else s

/-- Elements of one buffer of a working copy have arrived from a device: `serves` is the step whose reads the copy will serve (R283, R325). -/
def State.fillCopy (s : State) (dev layer t buf step serves count : Nat) : State :=
  let x := s.ten t
  let x := if x.fillStep = step then x else { x with fillStep := step, fillCount := 0, fillFrom := [], asOf := 0 }
  let n := x.fillCount + count
  let whole := x.desc.count ≤ n
  let s := s.setTen t { x with fillCount := n, fillFrom := adjust 0 dev (· + count) x.fillFrom, holds := x.holds || whole, asOf := if whole then serves + 1 else x.asOf }
  if whole then s.copiesWhole layer buf step serves else s

/-! ## The conversion of results -/

/-- Statistics of the update engine filed under their step, direction update (R152, R167, R170, R281). -/
def State.fileUpd (s : State) (step layer role : Nat) (r : TallyRec) : State :=
  let add (m : Map TallyRec) := addRec (step * 2 ^ 21 + tallyKey layer role dirUpd) r m
  { s with gov := { s.gov with stats := add s.gov.stats, firsts := if s.firstRun step then add s.gov.firsts else s.gov.firsts } }

/-- Whether the plan is imposed on an update-engine destination: it has one, its pair is governed, and it is no remainder (R281). -/
def State.imposes (s : State) (t : Nat) : Bool :=
  let d := (s.ten t).desc
  d.planned && has (govKey d.layer d.role) s.gov.ks && !s.remainders.contains (t - b2n (look {} t s.job.tensors).pairTail)

/-- The committed plan of a buffer in the layout that its pair takes next: the buffer itself waits for its own next write (R173). -/
def State.planAhead (s : State) (t : Nat) : List Nat :=
  let x := s.ten t
  match x.later with
  | some r => (r.words.foldl (s.planStep t r.initSc) (x.desc.fmtw, s.planValues t (·.2))).2
  | none => s.planValues t (·.2)

/-- The scales an update write imposes on some blocks of a buffer: the plan as committed, which is that of the buffer read, led to the
layout written where that one is new; in a rerun the REPLAY_SC of the discarded execution (R159, R169, R173, R281). -/
def State.presetForce (s : State) (t other : Nat) (rerun : Bool) (blks : List Nat) : State :=
  let x := s.ten t
  let y := s.ten other
  if !s.imposes t then s
  else
    let ahead := if y.desc.fmtw == x.desc.fmtw then [] else s.planAhead other
    let force := blks.foldl (fun (m : Map (Nat × Nat)) b =>
      let own := s.planAt x.desc (x.offset false) b
      if rerun then put b own m
      else
        let nx := if y.desc.fmtw == x.desc.fmtw then (s.planAt y.desc (y.offset false) b).2 else ahead.getD b own.2
        put b (nx, nx) m) []
    s.setTen t { x with force := force, written := [] }

/-- The pass of an update write is over. -/
def State.endUpdate (s : State) (t : Nat) : State := s.modTen t fun x => { x with force := [], written := [], holds := true }

/-- The scale blocks of a run of elements. -/
def State.blocksAt (s : State) (v : View) (span : Span) : List Nat :=
  if v.d.bs = 0 then []
  else (List.range (ceilDiv span.2 v.d.bs)).filterMap fun k => (s.spot v (span.1 + k * v.d.bs)).map (·.block)

/-- Values written by the update engine into a run of a buffer, with their statistics: whole scale blocks, or `part` of one; the elements
of `skip` are not written (R274). -/
def State.putRun (s : State) (t other step : Nat) (rerun : Bool) (first : Nat) (vals : List Val) (part : Bool := false) (skip : List Nat := []) :
    State × TallyRec :=
  let s := s.settle t step
  let v := s.liveView t
  let s := s.presetForce t other rerun (s.blocksAt v (first, vals.length))
  let w : WCtx := { impose := if s.imposes t then .plan else .fromMax, seed := s.fresh, part := part, skip := skip }
  let (s, r) := ({ s with fresh := s.fresh + 1 } : State).writeRun v w first vals
  (s.endUpdate t, r)

/-! ## Places of an element in its copies -/

/-- A list of six with its entries 0 and `k` exchanged. -/
def exchange (k d : Nat) (l : List Nat) : List Nat := (l.set 0 (l.getD k d)).set k (l.getD 0 d)

/-- The element of the master's dense order that stands at a place of a copy laid out with dimensions 0 and `k` exchanged (R271). -/
def masterPlace (m : Desc) (k j : Nat) : Nat := linear m.ext (exchange k 0 (coords (exchange k 1 m.ext) j))

/-- Whether a CONV instruction names a tensor as its filter. -/
def State.isFilter (s : State) (t : Nat) : Bool :=
  s.job.stages.any fun e => e.2.any fun g => g.prog.any fun i => i.op == opConv && i.srcB.slots.contains t

/-- The dimension that copy `k` of a master has exchanged with dimension 0: none in the forward copy; in the backward copy the output
dimension, which is dimension 1 of an MMA's weights and dimension 3 of a filter (R106, R271, log 99). -/
def State.copyDim (s : State) (layer m k : Nat) : Nat :=
  if k != 1 then 0 else if (s.copiesOf layer m).any s.isFilter then 3 else 1

/-- The dense place of element `n` of a copy, and none where a kept value has no place there: a sparse copy keeps some (R183). -/
def State.densePlace (s : State) (v : View) (n : Nat) : Nat :=
  if v.d.sparse = 0 then n
  else
    let kc := v.d.e 0
    let k := n % kc
    let per := keepOf v.d.sparse
    let pos := (s.keptPos v (v.index n)).1
    n / kc * (kc / per * 4) + k / per * 4 + pos

/-- Whether the place of element `n` of a copy is poisoned: it follows from a metadata byte that is (R34). -/
def State.placePois (s : State) (v : View) (n : Nat) : Bool := v.d.sparse != 0 && (s.keptPos v (v.index n)).2

/-- Element `n` of a copy as its master has it (R271, R273); poisoned where the place is. -/
def State.masterVal (s : State) (t : Nat) (m : Desc) (k : Nat) (v : View) (n : Nat) : Val :=
  let x := s.elem (s.liveView t) (masterPlace m k (s.densePlace v n))
  { x with pois := x.pois || s.placePois v n }

/-- Whether an element of a master is pruned: a sparse forward copy keeps no value at its place (R191). -/
def State.pruned (s : State) (layer m i : Nat) : Bool :=
  match (s.copiesOf layer m).head? with
  | some c =>
    let v := s.liveView c
    v.d.sparse != 0 &&
      (let k := 4 * (v.d.e 0 / keepOf v.d.sparse)
       !(s.keptAt v (i % k :: coords (v.d.ext.drop 1) (i / k))).kept)
  | none => false

/-- The copy elements that some master elements give, ascending. -/
def State.copyElems (s : State) (v : View) (m : Desc) (k : Nat) (has' : Nat → Bool) : List Nat :=
  (List.range v.count).filter fun n => has' (masterPlace m k (s.densePlace v n))

/-! ## Multicast -/

/-- The payload of a PARAM: elements, scale bytes, plan entries of a span of a copy (R314). -/
def State.paramPayload (s : State) (v : View) (span : Span) : List Byte :=
  let els := (List.range span.2).map fun k => (s.rawElem v (span.1 + k)).1
  if v.d.bs = 0 then packBits v.d.w els
  else
    let b0 := span.1 / v.d.bs
    let nb := (span.1 + span.2 - 1) / v.d.bs + 1 - b0
    let scs := (List.range nb).map fun k => match s.spot v ((b0 + k) * v.d.bs) with
      | some p => s.tByte v.d p.scale
      | none => 0
    let plans := if !v.d.planned then [] else (List.range nb).flatMap fun k => match s.spot v ((b0 + k) * v.d.bs) with
      | some p => let e := s.planAt v.d v.off p.block; le 1 e.2 ++ le 1 e.1
      | none => []
    packBits v.d.w els ++ scs ++ plans

/-- Whether anything that a PARAM would carry is poisoned: an element, a scale byte, a plan entry (R35, R533). -/
def State.paramPoison (s : State) (v : View) (span : Span) : Bool :=
  (List.range span.2).any fun k =>
    let n := span.1 + k
    (s.rawElem v n).2.2 || (v.d.planned && match s.spot v n with
      | some p => let e := s.planAt v.d v.off p.block; planPois e.1 || planPois e.2
      | none => false)

/-- Elements of a segment (R304). -/
def segElems : Nat := 262144

/-- A span of copy `k` of a master, tensor `t`, multicast along the fold's tree, one PARAM for each segment (R313). The header names the
master and where in its dense order the first element stands (R299); the hop field, which no PARAM uses, numbers the copy (DESIGN CHOICE,
log 28). A span that holds poison is an output that may not leave: POISON_COMMIT in its place (R35). -/
def State.multicast (s : State) (fold : Fold) (layer : Nat) (chunk : Nat → Nat) (master k t step : Nat) (span : Span) : State :=
  (cutSpan segElems (span.2 / segElems + 1) span).foldl (fun s x =>
    let v := s.liveView t
    if s.paramPoison v x then raise s (faultCode 2 POISON_COMMIT 0x01) (srcDrover (s.home layer)) (layer * 2 ^ 32 + t)
    else
      let m : DMsg := { type := mParam, fold := fold.fold, fmt := v.d.fmtw, step := step, layer := layer, chunk := chunk x.1, tensor := master,
                        count := x.2, first := masterPlace (s.desc master) (s.copyDim layer master k) (s.densePlace v x.1), hop := k, mcast := true,
                        payload := s.paramPayload v x }
      s.flood fold.tree none (s.dmsg m)) s

/-! ## Masters converted into their copies -/

/-- Elements of one copy converted from the new masters and multicast. Whole scale blocks are written in one run; a block of a backward
copy that other owners share is converted for the elements owned here, under the same imposed scale (log 29). -/
def State.convertCopy (s : State) (fold : Fold) (layer : Nat) (chunk : Nat → Nat) (master k head t other step serves : Nat) (rerun : Bool)
    (els : List Nat) (val : State → Nat → Val) (stat : Bool) : State :=
  let s := s.settle t step
  let v := s.liveView t
  (spansOf els).foldl (fun s span =>
    let b := v.d.bs
    let whole := b = 0 || (span.1 % b = 0 && span.2 % b = 0)
    let runs := if whole then [span] else cutSpan b (span.2 / b + 1) span
    let s := runs.foldl (fun s run =>
      let (s, r) := s.putRun t other step rerun run.1 ((List.range run.2).map fun k => val s (run.1 + k)) (b != 0 && run.2 % b != 0)
      if stat then s.fileUpd step layer 0 r else s) s
    let s := s.multicast fold layer chunk master k t step span
    (s.fillCopy s.drv.device layer t (t - head) step serves span.2).endCopyWaits s none) s

end Sys2Proof.Machine
end

