-- ==== Sys2Proof/Machine/Reduce.lean ====
section
/-! DEFINITION. Buckets, the reorder table, the ring between tier-1 flocks, and the entry of reduced gradients into the update work
queues (R272, R304-R318). -/

namespace Sys2Proof.Machine

/-! ## The update work queue -/

/-- Entries of a region's work queue (R272). -/
def workSlots : Nat := 4096

/-- The region that queues an element of a master: that of the device holding the page of its granule (R272). -/
def State.shardRegion (s : State) (m : Desc) (first : Nat) : Nat :=
  match s.spotAt m 0 (coords m.ext first) with
  | some p =>
    let c := (s.page (p.byte / 2 ^ 21)).ctl
    if isHbm c then c / 4 else (c - 16) / 2
  | none => 0

/-- The owned segments of a bucket by the region that queues them: a shard that spans regions is split at granule boundaries
(R272). -/
def State.shardParts (s : State) (m : Desc) (segs : List Span) : List (Nat × List Span) :=
  [0, 1, 2, 3].filterMap fun r =>
    let l := segs.filter fun x => s.shardRegion m x.1 == r
    if l.isEmpty then none else some (r, l)

/-- Whether the work queues have room for every part. -/
def State.workRoom (s : State) (parts : List (Nat × List Span)) : Bool :=
  parts.all fun x => (s.rgn x.1).work.length < workSlots

/-- Elements of some spans. -/
def spanEls (l : List Span) : List Nat := l.flatMap fun (a, n) => (List.range n).map (a + ·)

/-! ## Buckets and segments (R304) -/

/-- Elements of a bucket. -/
def State.bucketElems (s : State) : Nat := s.job.flock.bucketMib * 2 ^ 18

/-- Buckets of a master. -/
def State.bucketsOf (s : State) (t : Nat) : Nat := ceilDiv (s.desc t).count s.bucketElems

/-- The buckets of a layer in chunk order: master, first element, count. -/
def State.buckets (s : State) (layer : Nat) : List (Nat × Nat × Nat) :=
  (s.mastersOf layer).flatMap fun t =>
    let n := (s.desc t).count
    (List.range (s.bucketsOf t)).map fun i => (t, i * s.bucketElems, Min.min s.bucketElems (n - i * s.bucketElems))

/-- The chunk number of an element of a master. -/
def State.chunkOf (s : State) (layer t i : Nat) : Nat :=
  (((s.mastersOf layer).takeWhile (· != t)).map s.bucketsOf).sum + i / s.bucketElems

/-- The fold that a layer is bound to, where this module belongs to it. -/
def State.foldOfLayer (s : State) (layer : Nat) : Option Fold := (s.boundLayers.find? fun x => x.2.layer == layer).map (·.1)

/-- The segments of a bucket: its range cut at granule boundaries. -/
def State.segments (s : State) (t first count : Nat) : List Span :=
  let g := (s.desc t).granuleElems
  cutSpan g (count / g + 1) (first, count)

/-- The device that owns an element of a master, the module itself where the master is not distributed (R260, R304). -/
def State.ownerOf (s : State) (t i : Nat) : Nat :=
  let d := s.desc t
  if d.owner = none20 then s.drv.device else s.granuleOwner d.owner (i / d.granuleElems)

/-- The segments of a bucket that a device owns. -/
def State.segmentsOf (s : State) (t first count dev : Nat) : List Span :=
  (s.segments t first count).filter fun x => s.ownerOf t x.1 == dev

/-! ## The reorder table (R308) -/

/-- Entries of a fold's reorder table. -/
def reorderSlots : Nat := 512

/-- Whether an entry has a bucket identifier. -/
def Reorder.is (e : Reorder) (step epoch layer chunk : Nat) : Bool :=
  e.step == step && e.epoch == epoch && e.layer == layer && e.chunk == chunk

def State.entry? (s : State) (step epoch layer chunk : Nat) : Option Reorder := s.drv.reorder.find? (·.is step epoch layer chunk)

def State.setEntry (s : State) (e : Reorder) : State :=
  { s with drv := { s.drv with reorder := s.drv.reorder.map fun x => if x.is e.step e.epoch e.layer e.chunk then e else x } }

/-- Entries of a fold in use. -/
def State.entriesOf (s : State) (fold : Nat) : Nat := (s.drv.reorder.filter fun e => e.fold == fold).length

/-- A member joins the entry of an identifier, or a free entry is taken for it; none when the table is full. -/
def State.joinEntry (s : State) (fold step epoch layer chunk member : Nat) : Option State :=
  match s.entry? step epoch layer chunk with
  | some e => some (s.setEntry { e with contrib := insertN member e.contrib })
  | none =>
    match (s.buckets layer)[chunk]? with
    | none => none
    | some (t, first, count) =>
      if reorderSlots ≤ s.entriesOf fold then none
      else
        let e : Reorder := { step := step, epoch := epoch, layer := layer, chunk := chunk, fold := fold, tensor := t, first := first,
                             count := count, contrib := [member], acc := List.replicate count (0, false), since := s.board.time }
        let n := s.entriesOf fold + 1
        some { s with drv := { s.drv with reorder := s.drv.reorder ++ [e],
                                          peak := adjust 0 fold (Nat.max n) s.drv.peak } }

/-- The owned elements of an entry's range, in order. -/
def State.ownedOf (s : State) (e : Reorder) : List Nat :=
  spanEls (s.segmentsOf e.tensor e.first e.count s.drv.device)

/-- The value of an element in the reduction slot. -/
def Reorder.at (e : Reorder) (i : Nat) : Nat × Bool := e.acc.getD (i - e.first) (0, false)

/-- Values put into the reduction slot. -/
def Reorder.putAll (e : Reorder) (l : List (Nat × Nat × Bool)) : Reorder :=
  { e with acc := l.foldl (fun a (i, v) => a.set (i - e.first) v) e.acc }

/-- One member's segment added: the first contribution writes an element, each later one adds to it in FP32 (R310). -/
def Reorder.addSegment (e : Reorder) (member first : Nat) (vals : List Val) : Reorder :=
  let later := e.seen.any fun x => x.1 == first
  let l := vals.zipIdx.map fun (v, k) =>
    let old := e.at (first + k)
    (first + k, if later then (enc32 (fadd (dec32 old.1) v.num), old.2 || v.pois) else (enc32 v.num, v.pois))
  { e.putAll l with seen := e.seen ++ [(first, member)] }

/-- Whether every member of the fold has contributed to a segment. -/
def State.segReduced (s : State) (f : Fold) (e : Reorder) (first : Nat) : Bool :=
  (s.foldMembers f).all fun d => e.seen.contains (first, d)

/-! ## The ring (R315-R318) -/

/-- Elements of a ring block. -/
def ringBlock : Nat := 32

/-- This module's tier-1 flock, and the number of flocks. -/
def State.flockIdx (s : State) : Nat := s.drv.device / 256
def State.flocksN (s : State) : Nat := s.job.flock.flocks

/-- The owned blocks of an entry, each a run of elements. -/
def State.ringBlocks (s : State) (e : Reorder) : List (List Nat) := pieces ringBlock (s.ownedOf e)

/-- The blocks of ring chunk `c` (R315). -/
def State.ringChunk (s : State) (e : Reorder) (c : Nat) : List (List Nat) :=
  let l := s.ringBlocks e
  let n := l.length
  let lo := c * n / s.flocksN
  (l.drop lo).take ((c + 1) * n / s.flocksN - lo)

/-- The ring chunks that hold blocks; an empty one needs no message. -/
def State.ringChunks (s : State) (e : Reorder) : List Nat := (List.range s.flocksN).filter fun c => !(s.ringChunk e c).isEmpty

/-- The chunk whose first element is named (R299: the message names the range, not the chunk). -/
def State.ringChunkAt (s : State) (e : Reorder) (first : Nat) : Option Nat :=
  (s.ringChunks e).find? fun c => (s.ringChunk e c).head?.bind List.head? == some first

/-- A ring block on the wire: whether it has escaped, and its element bits. -/
abbrev RBlk := Bool × List Nat

/-- GRAD_FMT without rounding or overflow choices: nearest even, as R317 has it. -/
def State.ringFmt (s : State) : Nat := s.job.flock.gradFmt % 128

/-- The exact value of a ring block's element. -/
def ringValue (fw scale : Nat) (escaped : Bool) (bits : Nat) : Number :=
  if escaped then decodeElem BF16 false bits else decodeScaled (fwFmt fw) scale bits

/-- `ring_hop` (R317): the block as it goes on, and whether it escapes at this hop. -/
def ringHop (fw scale : Nat) (incoming : Option RBlk) (loc : List Number) (escaped0 : Bool) : RBlk × Bool :=
  let esc := match incoming with
    | some b => b.1
    | none => escaped0
  let v := match incoming with
    | none => loc
    | some b => (b.2.zip loc).map fun (x, y) => (fadd (ringValue fw scale b.1 x) y)
  let f := fmtOf (fwFmt fw) true
  let past (x : Number) : Bool := match x with
    | .inf _ => true
    | .fin _ m e => m != 0 && saturates f m (e - ((scale : Int) - 127))
    | _ => false
  let out := !esc && v.any past
  let src := v.map fun x => (⟨x, false⟩ : Val)
  if esc || out then ((true, (convertBlock BF16 none (fun _ => 0) src).elems.map (·.1)), out)
  else ((false, (convertBlock fw (some scale) (fun _ => 0) src).elems.map (·.1)), false)

/-- The payload of a ring message: the escape map, then each block (R317). -/
def ringPayload (fw : Nat) (l : List RBlk) : List Byte :=
  let map := l.zipIdx.foldl (fun a (b, j) => a + b2n b.1 * 2 ^ j) 0
  pad64 (le (ceilDiv l.length 8) map) ++ l.flatMap fun b => packBits (if b.1 then 16 else fwWidth fw) b.2
where
  pad64 (l : List Byte) : List Byte := l ++ List.replicate (ceilDiv l.length 64 * 64 - l.length) 0

/-- The blocks of a payload, each of the given number of elements. -/
def readRing (fw : Nat) (sizes : List Nat) (p : List Byte) : List RBlk :=
  let nmap := ceilDiv sizes.length 8
  let map := ofLe (p.take nmap)
  let body := p.drop (ceilDiv nmap 64 * 64)
  (sizes.zipIdx.foldl (fun (a : List RBlk × List Byte) x =>
    let esc := bitAt map x.2
    let w := if esc then 16 else fwWidth fw
    let n := ceilDiv (x.1 * w) 8
    let word := ofLe (a.2.take n)
    (a.1 ++ [(esc, (List.range x.1).map fun k => word >>> (k * w) % 2 ^ w)], a.2.drop n)) ([], body)).1

/-- The ring message of a chunk to the owner of the granule in the next flock (R315). The hop field holds 7 bits (log 34). -/
def State.ringMsg (s : State) (e : Reorder) (c lap hop scale : Nat) (l : List RBlk) : DMsg :=
  let blks := s.ringChunk e c
  { type := if lap = 0 then mRing else mRingFinal, fold := e.fold, dst := (s.flockIdx + 1) % s.flocksN * 256 + s.drv.device % 256,
    fmt := s.ringFmt, step := e.step, layer := e.layer, chunk := e.chunk, tensor := e.tensor, count := blks.flatten.length,
    first := (blks.head?.bind List.head?).getD 0, lap := lap, hop := hop % 128, scale := scale, payload := ringPayload s.ringFmt l }

/-- A ring message sent on its way. -/
def State.postRing (s : State) (e : Reorder) (c lap hop scale : Nat) (l : List RBlk) : State :=
  (s.post (s.ringMsg e c lap hop scale l)).count 16 0 4 1

/-- The largest finite magnitude of some final sums noted for the vote (R318). -/
def State.noteRing (s : State) (step layer : Nat) (l : List Number) : State :=
  let m := l.foldl (fun a x => match x with | .fin _ _ _ => Nat.max a (enc32 x % 2 ^ 31) | _ => a) 0
  { s with drv := { s.drv with ringSeen := adjust 0 (step * 65536 + layer) (Nat.max m) s.drv.ringSeen } }

/-- Final bits of a chunk decoded into its place of the reduction slot (R318). -/
def State.ringFinal (s : State) (e : Reorder) (c scale : Nat) (l : List RBlk) : State :=
  let fw := s.ringFmt
  let vals := ((s.ringChunk e c).zip l).flatMap fun (ix, b) => ix.zip (b.2.map (ringValue fw scale b.1))
  let e := (e.putAll (vals.map fun (i, x) => (i, enc32 x, false)))
  (s.setEntry { e with ringDone := insertN c e.ringDone }).noteRing e.step e.layer (vals.map (·.2))

/-- Whether a ring chunk of an entry holds a poisoned sum. -/
def State.ringPoison (s : State) (e : Reorder) (c : Nat) : Bool := (s.ringChunk e c).flatten.any fun i => (e.at i).2

/-- The blocks of a chunk as they leave this module in lap 0, each with whether it escapes here (R317). -/
def State.ringHops (s : State) (e : Reorder) (c scale : Nat) (incoming : Option (List RBlk)) : List (RBlk × Bool) :=
  (s.ringChunk e c).zipIdx.map fun (ix, k) =>
    ringHop s.ringFmt scale (incoming.bind (·[k]?)) (ix.map fun i => dec32 (e.at i).1) (scale == 0)

/-- Whether this module's hop is the last of lap 0 for a chunk (R315). -/
def State.ringLast (s : State) (c : Nat) : Bool := s.flockIdx == (c + s.flocksN - 1) % s.flocksN

/-- One chunk passed through this module in lap 0: the next hop, or the final sums, which start lap 1 (R315-R318). A poisoned
element raises POISON_COMMIT in place of the message (R35). -/
def State.ringStep (s : State) (e : Reorder) (c scale hop : Nat) (incoming : Option (List RBlk)) : State :=
  if s.ringPoison e c then
    raise s (faultCode 3 POISON_COMMIT 0x03) (srcDrover (s.home e.layer)) (e.layer * 2 ^ 32 + e.tensor)
  else
    let outs := s.ringHops e c scale incoming
    let s := s.count 16 0 5 (outs.filter (·.2)).length
    let l := outs.map (·.1)
    if s.ringLast c then (s.postRing e c 1 1 scale l).ringFinal e c scale l
    else s.postRing e c 0 (hop + 1) scale l

/-! ## Entries that are reduced (R310, R311) -/

/-- Whether an entry has its whole sum: in a tier-2 flock, every ring chunk's final sums. -/
def State.summed (s : State) (e : Reorder) : Bool :=
  e.tier1 && (s.flocksN ≤ 1 || (s.ringChunks e).all e.ringDone.contains)

/-- A summed entry passes into the update work queues where they have room for it (R272, R311). -/
def State.passEntry (s : State) (e : Reorder) : State :=
  if e.reduced || !s.summed e then s
  else
    let parts := s.shardParts (s.desc e.tensor) (s.segmentsOf e.tensor e.first e.count s.drv.device)
    if !s.workRoom parts then s
    else
      parts.foldl (fun s (r, l) =>
        let els := spanEls l
        let x : Shard := { step := e.step, layer := e.layer, tensor := e.tensor, els := els, grad := els.map e.at, fold := e.fold,
                           chunk := e.chunk }
        s.modRgn r fun g => { g with work := g.work ++ [x] }) (s.setEntry { e with reduced := true })

/-- Every summed entry that the work queues can take passes to them. -/
def State.passEntries (s : State) : State := s.drv.reorder.foldl (fun s e => s.passEntry e) s

/-- In a tier-2 flock an entry reduced here sends its own ring chunk round the ring, once, and not after the round-1 marker of a
pause (R311, R315, R492). -/
def State.startRing (s : State) (e : Reorder) : State :=
  if !e.tier1 || e.ringSent || s.flocksN ≤ 1 || s.stop.round != 0 || !s.flockActive then s
  else
    let e := { e with ringSent := true }
    let s := s.setEntry e
    let c := s.flockIdx
    if !(s.ringChunks e).contains c then s
    else s.ringStep e c (look 0 (e.step * 65536 + e.layer) s.gov.ringScale) 0 none

/-- Every ring that may start does. -/
def State.startRings (s : State) : State := s.drv.reorder.foldl State.startRing s

/-- A member's segment reduced into an entry (R310). -/
def State.reduceSegment (s : State) (f : Fold) (e : Reorder) (member first : Nat) (vals : List Val) : State :=
  if e.seen.contains (first, member) then s
  else
    let e := e.addSegment member first vals
    let s := s.setEntry e
    let s := s.count 16 0 1 (b2n (s.segReduced f e first))
    let all := (s.segmentsOf e.tensor e.first e.count s.drv.device).all fun x => s.segReduced f e x.1
    if !all then s
    else
      let r := s.home e.layer
      let obj := e.chunk + e.layer * 2 ^ 16 + e.step % 2 ^ 32 * 2 ^ 32
      let s := s.waitRec r { kind := 0x05, flags := 4, src := srcDrover r, start := e.since, awSrc := s.sliceOf member e.layer, awDev := member, detail := 0x01, obj := obj }
      let e := { e with tier1 := true }
      ((s.setEntry e).startRing e).passEntries

/-! ## Admission of heads (R307, R308) -/

/-- The GRANT of a head: it carries the bucket identifier of the head, and this module's epoch (R307, R324). -/
def State.grantHead (s : State) (m : DMsg) : State :=
  s.post { type := mGrant, fold := m.fold, dst := m.src, step := m.step, layer := m.layer, chunk := m.chunk, tensor := m.tensor,
           first := m.first, count := m.count }

/-- Bucket identifiers in the order of R308. -/
def headBefore (a b : DMsg) : Bool :=
  if a.step != b.step then a.step < b.step
  else if a.epoch != b.epoch then a.epoch < b.epoch
  else if a.layer != b.layer then a.layer < b.layer
  else a.chunk ≤ b.chunk

def insertHead (m : DMsg) : List DMsg → List DMsg
  | [] => [m]
  | x :: r => if headBefore x m then x :: insertHead m r else m :: x :: r

/-- The waiting heads for which there is an entry are admitted, the lowest identifier first. A head of a newer epoch waits until the verdict
has come here too (R324, log 35). After a pause marker of round 1 none is admitted (R492). -/
def State.admitHeads (s : State) : State :=
  if s.stop.round != 0 || !s.flockActive then s
  else
    ((s.drv.waitHeads.filter fun m => m.epoch ≤ s.drv.epoch).foldl (fun l m => insertHead m l) []).foldl (fun s m =>
      match s.joinEntry m.fold m.step m.epoch m.layer m.chunk m.src with
      | some s => ({ s with drv := { s.drv with waitHeads := s.drv.waitHeads.erase m } } : State).grantHead m
      | none => s) s

end Sys2Proof.Machine
end

