-- ==== Sys2Proof/Machine/Update.lean ====
section
/-! DEFINITION. The update engine (R272-R283, R177): a shard taken, every element updated, the other buffer written, the working copies
converted and multicast. -/

namespace Sys2Proof.Machine

/-! ## The work queue -/

/-- Whether the updates of a step would write the buffer that a snapshot copies (R287). -/
def State.snapHolds (s : State) : Bool := s.upd.snapBusy && s.upd.snapBuf == 1 - s.upd.live

/-- Whether a shard is held: the step before it awaits its verdict (R282), or a snapshot copies the buffer it writes (R287). -/
def State.shardHeld (s : State) (x : Shard) : Bool := s.gov.step < x.step || s.snapHolds

/-- The fold that a region's update engine serves next, with what is left of its share: by weighted round-robin with the FOLD_TABLE weights
(R30, R31). -/
def State.nextFold (s : State) (region : Nat) : Option (Nat × Nat) :=
  let g := s.rgn region
  roundRobin (fun f => ((s.fold? f).map (·.weight)).getD 1) g.workFold g.workLeft
    ((g.work.filter fun x => !s.shardHeld x).map (·.fold)).eraseDups

/-- The shard a region takes next: the oldest that is not held of the fold in turn (R31). -/
def State.nextShard (s : State) (region : Nat) : Option Shard :=
  (s.nextFold region).bind fun (f, _) => (s.rgn region).work.find? fun x => x.fold == f && !s.shardHeld x

/-! ## What an update reads -/

/-- A master with what belongs to it, as buffer entries: the master, its state tensors, its remainder. -/
structure Party where
  layer : Nat
  master : Nat
  st : List Nat
  rem : Option Nat
  deriving Repr

def State.party (s : State) (layer t : Nat) : Party :=
  { layer := layer, master := t, st := s.stateTensors layer t, rem := s.remainderOf layer t }

/-- The pair heads an update engine reads and writes. -/
def Party.heads (p : Party) : List Nat := p.master :: p.st ++ p.rem.toList

/-- Memory addresses that some elements of a view take, and what bars them (R253, R260). -/
def State.touchAll (s : State) (v : View) (els : List Nat) : List Nat × Option Bar :=
  let u := s.joinUnit {} v els false
  (u.reads, u.bar)

/-- The elements of a shard that a sparse forward copy prunes: neither read nor written (R191, R274). -/
def State.prunedEls (s : State) (x : Shard) : List Nat := x.els.filter (s.pruned x.layer x.tensor)

/-- The elements of a shard that are updated, with their gradients. -/
def State.keptEls (s : State) (x : Shard) : List (Nat × Nat × Bool) :=
  let gone := s.prunedEls x
  (x.els.zip x.grad).filter fun e => !gone.contains e.1

/-- Kept elements of a party's tensors in one buffer, read. A decoded state or remainder value beyond FP32 range enters the FP32 arithmetic
as it is (the manual settles it for the vector unit alone: DESIGN CHOICE, log 128). -/
def State.readParty (s : State) (p : Party) (buf : Nat) (x : Shard) : List (UpIn × Bool) :=
  let at' (h n : Nat) : Val := s.elem (s.liveView (bufOf h buf)) n
  (s.keptEls x).map fun (n, g, q) =>
    let w := at' p.master n
    let st := p.st.map fun h => at' h n
    let rem := (p.rem.map fun h => at' h n).getD Val.zero
    ({ w := w.num, g := dec32 g, st := st.map (·.num), rem := rem.num }, q || w.pois || (st.any (·.pois)) || rem.pois)

/-! ## A shard updated -/

/-- The TRUST sums of a shard added to those of its layer (R279). -/
def State.addSums (s : State) (layer : Nat) (l : List (UpIn × UpOut)) : State :=
  let sq (f : UpIn × UpOut → Number) := sumBy (Config.free s.fresh) (fun a x => ffma x x a) (l.map f)
  let w2 := enc32 (sq fun x => x.1.w)
  let u2 := enc32 (sq fun x => x.2.u)
  let old := (s.upd.sums.find? fun x => x.1 == layer).map (·.2)
  let new := match old with
    | some (a, b) => (addBits a w2, addBits b u2)
    | none => (w2, u2)
  let sums := (s.upd.sums.filter fun x => x.1 != layer) ++ [(layer, new)]
  ({ s with upd := { s.upd with sums := sums } } : State).seeds 1

/-- Whether the element ranges done hold an element. -/
def inSpans (l : List Span) (i : Nat) : Bool := l.any fun x => x.1 ≤ i && i < x.1 + x.2

/-- Whether this module owns an element of a master. -/
def State.ownsElem (s : State) (m : Desc) (i : Nat) : Bool := inSpans (s.ownedRanges m) i

/-- The elements of a copy that a shard makes ready: those of the scale blocks it touches whose owned elements are all updated. -/
def State.readyElems (s : State) (v : View) (m : Desc) (dim : Nat) (shard done : List Span) : List Nat :=
  let place (n : Nat) := masterPlace m dim (s.densePlace v n)
  let hit := (List.range v.count).filter fun n => inSpans shard (place n)
  if v.d.bs = 0 then hit
  else
    let blks := (hit.map (· / v.d.bs)).eraseDups
    blks.flatMap fun b =>
      let ns := ((List.range v.d.bs).map (b * v.d.bs + ·)).filter fun n => s.ownsElem m (place n)
      if ns.all fun n => inSpans done (place n) then ns else []

/-- Values written over the runs of a shard's elements into the buffer of a pair that is being filled, with their statistics; a pruned
position takes no part (R274). -/
def State.putSpans (s : State) (x : Shard) (rerun : Bool) (wr h : Nat) (vals : List Val) : State × TallyRec :=
  let gone := s.prunedEls x
  let y := (spansOf x.els).foldl (fun (a : State × TallyRec × List Val) run =>
    let q := a.1.putRun (bufOf h wr) (bufOf h a.1.upd.live) x.step rerun run.1 (a.2.2.take run.2) false gone
    (q.1, a.2.1.merge q.2, a.2.2.drop run.2)) (s, {}, vals)
  (y.1, y.2.1)

/-- One tensor of an update written and its statistics filed; a master (role 4 here) files none. -/
def State.putPart (s : State) (p : Party) (x : Shard) (rerun : Bool) (wr h role : Nat) (vals : List Val) : State :=
  let y := s.putSpans x rerun wr h vals
  if role = 4 then y.1 else y.1.fileUpd x.step p.layer role y.2

/-- Results of a shard written into the other buffer, and the statistics of every conversion filed (R273, R281); none where an element is
pruned. -/
def State.writeShard (s : State) (p : Party) (x : Shard) (out : List (Option UpOut)) (rerun : Bool) : State :=
  let wr := 1 - s.upd.live
  let vals (f : UpOut → Number) : List Val := out.map fun o => match o with
    | some y => ⟨f y, false⟩
    | none => ⟨.zero, true⟩
  let s := s.putPart p x rerun wr p.master 4 (vals (·.w))
  let s := p.st.zipIdx.foldl (fun (s : State) (e : Nat × Nat) => s.putPart p x rerun wr e.1 3 (vals fun o => o.st.getD e.2 .zero)) s
  match p.rem with
  | some h => s.putPart p x rerun wr h 3 (vals (·.rem))
  | none => s

/-- Whether more of a shard waits in its region's queue (R268). -/
def State.shardLeft (s : State) (region : Nat) (x : Shard) : Bool :=
  (s.rgn region).work.any fun y => y.step == x.step && y.layer == x.layer && y.tensor == x.tensor && y.chunk == x.chunk

/-- A shard's own entry in the reorder table is freed when every part of its range has completed (R311). -/
def State.freeEntry (s : State) (x : Shard) : State :=
  let more := [0, 1, 2, 3].any fun r => (s.rgn r).work.any fun y => y.step == x.step && y.layer == x.layer && y.chunk == x.chunk
  if more then s
  else { s with drv := { s.drv with reorder := s.drv.reorder.filter fun e =>
    !(e.step == x.step && e.layer == x.layer && e.chunk == x.chunk && e.reduced) } }

/-- A shard taken from its queue and updated (R273-R281). -/
def State.runShard (s : State) (region : Nat) (x : Shard) (p : Party) (pr : Profile) (fold : Fold) : State :=
  let n := x.step
  let m := s.desc x.tensor
  let rerun := !s.gov.first
  let eta := s.eta pr n
  let ratio := dec32 (look 0x3F800000 x.layer s.gov.trust)
  let t := s.upd.count + 1
  let kept := (s.readParty p s.upd.live x).map fun i => (i.1, updateElem pr eta ratio t p.rem.isSome i.1)
  let at' := (s.keptEls x).map (·.1)
  let s := s.writeShard p x (x.els.map fun e => (at'.idxOf? e).bind fun k => (kept[k]?).map (·.2)) rerun
  let s := s.fileUpd n x.layer 0 { lost := (kept.filter fun o => o.2.lost).length }
  let s := if pr.opt = 2 then s.addSums x.layer kept else s
  let new := (kept.filter fun o => !o.2.nonfin).length
  let span := spansOf x.els
  let done := look [] x.tensor s.upd.done ++ span
  let s := { s with upd := { s.upd with done := put x.tensor done s.upd.done },
                    gov := { s.gov with updCount := if s.firstRun n then adjust 0 (n * 65536 + x.layer) (· + new) s.gov.updCount
                                                    else s.gov.updCount } }
  let wr := 1 - s.upd.live
  let s := (s.copiesOf x.layer x.tensor).zipIdx.foldl (fun s (c, k) =>
    let dim := s.copyDim x.layer x.tensor k
    let b := bufOf c wr
    let v := s.liveView b
    let els := s.readyElems v m dim span done
    let val (s : State) (j : Nat) : Val := s.masterVal (bufOf x.tensor wr) m dim v j
    s.convertCopy fold x.layer (fun _ => x.chunk) x.tensor k c b (bufOf c s.upd.live) n (n + 1) rerun els val true) s
  let s := ((s.count 10 region 0 (b2n !(s.shardLeft region x))).count 10 region 1 new).count 10 region 4 (kept.length - new)
  (s.freeEntry x).passEntries.admitHeads

/-- A unit joined with the plan entries of some elements of a buffer on which the plan is imposed, read and written (R154, R274, R281). -/
def State.joinImposed (s : State) (u : XUnit) (t : Nat) (els : List Nat) : XUnit :=
  if s.imposes t then s.joinPlans u (s.liveView t) els true true else u

/-- The elements of a working copy in memory that a shard's elements give. -/
def State.copyTouch (s : State) (c k : Nat) (x : Shard) : List Nat :=
  let v := s.liveView (bufOf c (1 - s.upd.live))
  if v.d.tier = 0 then [] else s.copyElems v (s.desc x.tensor) (s.copyDim x.layer x.tensor k) fun i => x.els.contains i

/-- What a shard reads and writes in the memory devices, working copies held there and plan entries included (R274). The reduced gradient,
whose frames the manual does not place, counts apart (`State.readGrads`, log 129). -/
def State.shardUnit (s : State) (p : Party) (x : Shard) : XUnit :=
  let els := (s.keptEls x).map (·.1)
  let touch (buf : Nat) := p.heads.map fun h => s.touchAll (s.liveView (bufOf h buf)) els
  let rd := touch s.upd.live
  let copies := (s.copiesOf x.layer x.tensor).zipIdx.map fun (c, k) => (bufOf c (1 - s.upd.live), s.copyTouch c k x)
  let wr := touch (1 - s.upd.live) ++ copies.map fun (c, ns) => s.touchAll (s.liveView c) ns
  let u : XUnit := { reads := rd.flatMap (·.1), writes := wr.flatMap (·.1), bar := (rd ++ wr).findSome? (·.2) }
  let u := p.heads.foldl (fun u h => s.joinImposed u (bufOf h (1 - s.upd.live)) els) u
  copies.foldl (fun u (c, ns) => s.joinImposed u c ns) u

/-- The reduced gradients of some elements read in place from the reduction area (R274, R311): their blocks count in a stack of the layer's
region, which one the manual does not say (log 129). -/
def State.readGrads (s : State) (region n : Nat) : State :=
  ({ s with fresh := s.fresh + 1 } : State).count 17 (4 * (region % 4) + Config.free s.fresh 0 % 4) 0 (ceilDiv (4 * n) 256)

/-- The buffers that the update of a shard writes: its master's, their working copies' (R273, R282). -/
def State.shardBufs (s : State) (p : Party) (x : Shard) : List Nat :=
  (p.heads ++ s.copiesOf x.layer x.tensor).map fun h => bufOf h (1 - s.upd.live)

/-- What bars the layouts that wait for the first write of a step into a shard's buffers (R173, R268). -/
def State.shardSettleBar (s : State) (p : Party) (x : Shard) (ups : Upsets) : Option Bar :=
  (s.shardBufs p x).findSome? fun t => s.settleBar ups t x.step

/-- Elements that a shard moves at once: a delivery unit of the widest tensor it writes (R265, R268). -/
def State.shardStep (s : State) (p : Party) (x : Shard) : Nat := ((s.shardBufs p x).map fun t => unitSize (s.ten t).desc).foldl Nat.max 1

/-- Elements `a` to `a + n` of a shard. -/
def Shard.part (x : Shard) (a n : Nat) : Shard := { x with els := (x.els.drop a).take n, grad := (x.grad.drop a).take n }

/-- How many elements of a shard come before what bars it, and the bar: it is taken in delivery units (R268). -/
def State.shardRoom (s : State) (p : Party) (x : Shard) (ups : Upsets) : Nat × Option Bar :=
  let u := s.shardStep p x
  let whole := s.unreadBlocks (s.shardUnit p x)
  match (List.range (ceilDiv x.els.length u)).findSome? fun k =>
      (s.barOf ups (s.shardUnit p (x.part (u * k) u)) whole).map fun b => (u * k, b) with
  | some (k, b) => (k, some b)
  | none => (x.els.length, none)

/-- A shard leaves its region's queue, and the round goes on; elements that wait stay, and their fold keeps its turn (R31, R268). -/
def State.takeShard (s : State) (region : Nat) (x : Shard) (n : Nat) : State :=
  let turn := s.nextFold region
  s.modRgn region fun g =>
    if n < x.els.length then { g with work := g.work.map fun y => if y = x then x.part n (x.els.length - n) else y }
    else { g with work := g.work.erase x, workFold := (turn.map (·.1)).getD 0, workLeft := (turn.map (·.2)).getD 0 }

/-- UPDATE_SHARD: the region's engine takes the next shard it may start, as far as nothing bars it; at a page of the memory packages, which
it asks for, it waits (R268). Elements that hold poison are reported before any write of what it takes (R280; the manual stops at the
element: DESIGN CHOICE, log 31). -/
def execUpdateShard (region : Nat) (ups : Upsets) (s : State) : Host.Outcome State Fault Refusal :=
  if !s.flockActive || s.stop.round != 0 || s.gov.squash.isSome then .next s
  else match s.nextShard region with
    | none => .next s
    | some x =>
      match s.profile x.layer, s.fold? x.fold with
      | some pr, some fold =>
        let p := s.party x.layer x.tensor
        let s := s.seeds 1
        let barred (b : Bar) : State := match b with
          | .page q => s.requestPage q region
          | b => s.barFault ups 2 (srcRegion region) b
        match s.shardSettleBar p x ups with
        | some b => .next (barred b)
        | none =>
        let s := (s.shardBufs p x).foldl (fun s t => s.settleNow ups t x.step) s
        match s.shardRoom p x ups with
        | (0, some (.page q)) => .next (s.requestPage q region)
        | (0, some b) => .next (s.barFault ups 2 (srcRegion region) b)
        | (n, _) =>
          let y := x.part 0 n
          let u := s.shardUnit p y
          let s := (s.useUnit ups u).readGrads region (s.keptEls y).length
          if (s.readParty p s.upd.live y).any (·.2) then
            .next (raise s (faultCode 2 POISON_COMMIT 0x01) (srcRegion region) (x.layer * 2 ^ 32 + x.tensor))
          else .next ((s.takeShard region x n).runShard region y p pr fold)
      | _, _ => .next s

end Sys2Proof.Machine
end

