-- ==== Sys2Proof/Machine/Verdicts.lean ====
section
/-! DEFINITION. Votes, the verdict the manager forms, and its application on every module (R166-R169, R175, R176, R319-R324). -/

namespace Sys2Proof.Machine

/-! ## Payloads -/

/-- A request entry of a VOTE (R320). -/
def Request.bytes (r : Request) : List Byte :=
  le 2 r.layer ++ le 1 r.role ++ le 1 r.kind ++ le 4 r.density ++ le 4 r.a ++ le 4 r.m ++ le 4 r.modules ++ le 4 0

/-- A layer entry of a VOTE (R320). -/
def VoteLayer.bytes (l : VoteLayer) : List Byte := le 2 l.layer ++ le 2 l.flags ++ le 4 l.w2 ++ le 4 l.u2 ++ le 4 l.ring

/-- A VOTE payload (R320). -/
def Vote.payload (v : Vote) : List Byte :=
  le 4 v.flags ++ le 4 v.modules ++ le 4 v.ha ++ le 4 v.hs ++ le 8 v.live ++ le 8 v.satFull ++ le 8 v.nanInf ++
  le 4 v.requests.length ++ le 4 v.layers.length ++ le 16 0 ++ v.requests.flatMap Request.bytes ++ v.layers.flatMap VoteLayer.bytes

def readRequest (l : List Byte) : Request :=
  { layer := leAt l 0 2, role := leAt l 2 1, kind := leAt l 3 1, density := leAt l 4 4, a := leAt l 8 4, m := leAt l 0xC 4,
    modules := leAt l 0x10 4 }

def readVoteLayer (l : List Byte) : VoteLayer :=
  { layer := leAt l 0 2, flags := leAt l 2 2, w2 := leAt l 4 4, u2 := leAt l 8 4, ring := leAt l 0xC 4 }

/-- A vote read from its message. -/
def readVote (m : DMsg) : Vote :=
  let p := m.payload
  let nr := leAt p 0x28 4
  let nl := leAt p 0x2C 4
  { step := m.step, device := m.src, flags := leAt p 0 4, modules := leAt p 4 4, ha := leAt p 8 4, hs := leAt p 0xC 4,
    live := leAt p 0x10 8, satFull := leAt p 0x18 8, nanInf := leAt p 0x20 8,
    requests := (pieces 24 ((p.drop 64).take (24 * nr))).map readRequest,
    layers := (pieces 16 ((p.drop (64 + 24 * nr)).take (16 * nl))).map readVoteLayer }

/-- A VERDICT payload (R323). -/
def Verdict.payload (v : Verdict) : List Byte :=
  le 1 v.verdict ++ le 1 v.flags ++ le 2 0 ++ le 4 v.epoch ++ le 4 v.decisions.length ++ le 4 v.layers.length ++
  (v.decisions.flatMap fun d => le 2 d.layer ++ le 1 d.role ++ le 1 d.kind ++ le 1 d.value ++ le 3 0) ++
  v.layers.flatMap fun (l, r, t) => le 2 l ++ le 1 r ++ le 1 0 ++ le 4 t

/-- A verdict read from its message. -/
def readVerdict (m : DMsg) : Verdict :=
  let p := m.payload
  let nd := leAt p 8 4
  let nl := leAt p 0xC 4
  { step := m.step, verdict := leAt p 0 1, flags := leAt p 1 1, epoch := leAt p 4 4,
    decisions := (pieces 8 ((p.drop 16).take (8 * nd))).map fun l =>
      { layer := leAt l 0 2, role := leAt l 2 1, kind := leAt l 3 1, value := leAt l 4 1 },
    layers := (pieces 8 ((p.drop (16 + 8 * nd)).take (8 * nl))).map fun l => (leAt l 0 2, leAt l 2 1, leAt l 4 4) }

/-! ## Merging votes (R321) -/

/-- One request merged into a list of them. -/
def mergeRequest (l : List Request) (r : Request) : List Request :=
  if l.any fun x => x.layer == r.layer && x.role == r.role && x.kind == r.kind then
    l.map fun x =>
      if x.layer == r.layer && x.role == r.role && x.kind == r.kind then
        { x with density := Nat.max x.density r.density, a := Nat.max x.a r.a, m := Nat.max x.m r.m, modules := x.modules + r.modules }
      else x
  else l ++ [r]

/-- One layer entry merged into a list of them: sums added, maxima the larger. -/
def mergeLayer (l : List VoteLayer) (v : VoteLayer) : List VoteLayer :=
  if l.any fun x => x.layer == v.layer then
    l.map fun x =>
      if x.layer == v.layer then
        { x with flags := x.flags ||| v.flags, w2 := addBits x.w2 v.w2, u2 := addBits x.u2 v.u2, ring := Nat.max x.ring v.ring }
      else x
  else l ++ [v]

/-- Two votes merged. -/
def Vote.merge (a b : Vote) : Vote :=
  { a with flags := a.flags ||| b.flags, modules := a.modules + b.modules, ha := Nat.min a.ha b.ha, hs := Nat.min a.hs b.hs,
           live := a.live + b.live, satFull := a.satFull + b.satFull, nanInf := a.nanInf + b.nanInf,
           requests := b.requests.foldl mergeRequest a.requests, layers := b.layers.foldl mergeLayer a.layers }

/-- The votes of a flock in one. -/
def mergeVotes (dev : Nat) : List Vote → Option Vote
  | [] => none
  | v :: r => some { (r.foldl Vote.merge v) with device := dev }

/-! ## The verdict formed (R168, R175, R176, R279, R316, R322) -/

/-- Requests in the order of R175: pending and density falling, then layer and role rising. -/
def requestBefore (pend : Map Nat) (a b : Request) : Bool :=
  let pa := look 0 (govKey a.layer a.role) pend
  let pb := look 0 (govKey b.layer b.role) pend
  if pa != pb then pb < pa
  else if a.density != b.density then b.density < a.density
  else if a.layer != b.layer then a.layer < b.layer
  else a.role ≤ b.role

def insertRequest (pend : Map Nat) (r : Request) : List Request → List Request
  | [] => [r]
  | x :: l => if requestBefore pend r x then r :: x :: l else x :: insertRequest pend r l

/-- What a vote asks for a request: its fractions, 0 where it does not ask. -/
def askOf (v : Vote) (r : Request) : Nat × Nat :=
  match v.requests.find? fun x => x.layer == r.layer && x.role == r.role && x.kind == r.kind with
  | some x => (x.a, x.m)
  | none => (0, 0)

/-- The modules that govern a layer, as FOLD_TABLE gives them; every module of the job where no fold binds it (R322). -/
def State.governing (s : State) (layer all : Nat) : Nat :=
  ((s.job.folds.flatMap (·.layers)).find? fun l => l.layer == layer).elim all (·.governing)

/-- Headroom left and grants made while the requests are gone through. -/
structure Grants where
  left : List (Nat × Nat)
  granted : List Request := []
  pend : Map Nat := []
  deriving DecidableEq, Repr

/-- One request granted or refused (R175). -/
def grantOne (units : List Vote) (old : Map Nat) (g : Grants) (r : Request) : Grants :=
  let asks := units.map fun v => askOf v r
  if (g.left.zip asks).all fun (h, a) => a.1 ≤ h.1 && a.2 ≤ h.2 then
    { g with left := (g.left.zip asks).map fun (h, a) => (h.1 - a.1, h.2 - a.2), granted := g.granted ++ [r] }
  else
    let k := govKey r.layer r.role
    { g with pend := put k (look 0 k old + 1) g.pend }

/-- The amounts recorded when a pair was last widened, by device (R174, R175). -/
def State.creditOf (s : State) (r : Request) (dev : Nat) : Nat × Nat :=
  match s.drv.widened.find? fun x => x.1 == r.layer && x.2.1 == r.role && x.2.2.1 == dev with
  | some x => (x.2.2.2.1, x.2.2.2.2)
  | none => (0, 0)

/-- The present class code of a pair. -/
def State.classOf (s : State) (layer role : Nat) : Nat :=
  match find? (govKey layer role) s.gov.ks with
  | some k => k.cls
  | none => ((s.policy layer role).map (·.initial)).getD 0

def State.sizeOf (s : State) (layer role : Nat) : Nat :=
  match find? (govKey layer role) s.gov.ks with
  | some k => k.size
  | none => ((s.policy layer role).map (·.initSize)).getD 1

def State.lambdaOf (s : State) (layer : Nat) : Nat := ((find? (govKey layer 0) s.gov.ks).map (·.lambda)).getD 0

/-- The next size as a verdict names it. -/
def State.sizeTo (s : State) (r : Request) (up : Bool) : Option Nat :=
  match s.policy r.layer r.role with
  | some e => s.nextSize e (s.sizeOf r.layer r.role) up
  | none => none

/-- The decision that a request other than a widening leads to, where R322 applies it. -/
def State.plainDecision (s : State) (all : Nat) (r : Request) : Option Decision :=
  let every := r.modules == s.governing r.layer all
  let mk (k v : Nat) : Decision := { layer := r.layer, role := r.role, kind := k, value := v }
  match r.kind with
  | 2 => if every then some (mk 2 (classNo (s.classOf r.layer r.role - 1))) else none
  | 3 => (s.sizeTo r false).map (mk 3)
  | 4 => if every then (s.sizeTo r true).map (mk 4) else none
  | 5 => some (mk 5 (Nat.min s.job.prec.lambdaMax (s.lambdaOf r.layer + 1)))
  | 6 => if every then some (mk 5 (s.lambdaOf r.layer - 1)) else none
  | _ => none

/-- The TRUST ratio of a layer from its sums, and whether TMAX clamps it (R279). -/
def trustRatio (tmax w2 u2 : Nat) : Nat × Bool :=
  let w := dec32 w2
  let u := dec32 u2
  if w.isZero || u.isZero || w.isNan || u.isNan || w.isInf || u.isInf then (0x3F800000, false)
  else
    let q := fdiv (fsqrt w) (fsqrt u)
    if (dec32 tmax).lt q then (tmax, true) else (enc32 q, false)

/-- The ring scale of a running maximum (R316): of 2R in the element format of GRAD_FMT, 0 for none. -/
def ringScaleOf (gradFmt r : Nat) : Nat :=
  if r = 0 then 0
  else
    let e := scaleFromMax (fmtOf (fwFmt gradFmt) true) ((dec32 r).mul (Number.pow2 1)) + 127
    (Max.max 1 (Min.min 0xFE e)).toNat

/-- The ring maxima of a layer over the window, as they stand after a step's votes (R316). -/
def State.ringAfter (s : State) (v : Vote) : Map (List Nat) :=
  if s.job.flock.flocks ≤ 1 then []
  else
    let ls := ((v.layers.filter fun l => bitAt l.flags 1).map (·.layer) ++ s.gov.ringMax.map (·.1)).foldl (fun a l => insertN l a) []
    ls.map fun l =>
      let now := ((v.layers.find? fun x => x.layer == l).map (·.ring)).getD 0
      (l, (now :: look [] l s.gov.ringMax).take s.job.prec.window)

/-- What the verdict manager forms from the votes it holds, one of each module or tier-1 flock (R168, R324). -/
def State.formVerdict (s : State) (units : List Vote) : State × Option Verdict :=
  match mergeVotes s.drv.device units with
  | none => (s, none)
  | some all =>
    let n := s.gov.step
    let kind := if !bitAt all.flags 0 then 0 else if s.gov.replays < s.job.prec.sreplayMax then 1 else 2
    let raise' := bitAt all.flags 1 && s.job.prec.exhaustAction == 1
    let exhausted := (all.requests.filter fun r => r.kind == 7).map (·.layer)
    let reqs := all.requests.filter fun r => r.kind != 7
    let plain := reqs.filterMap fun r => if r.kind = 1 then none else s.plainDecision all.modules r
    let narrows := reqs.filter fun r => r.kind == 2 && (s.plainDecision all.modules r).isSome
    let left := units.map fun v => narrows.foldl (fun (h : Nat × Nat) r =>
      let c := s.creditOf r v.device
      (h.1 + c.1, h.2 + c.2)) (v.ha, v.hs)
    let widens := (reqs.filter fun r => r.kind == 1).foldl (fun l r => insertRequest s.gov.pend r l) []
    let g := widens.foldl (grantOne units s.gov.pend) { left := left }
    let grants := g.granted.map fun r =>
      ({ layer := r.layer, role := r.role, kind := 1, value := classNo (s.classOf r.layer r.role + 1) } : Decision)
    let pend := if raise' then [] else if s.gov.first then g.pend else s.gov.pend
    let pends := pend.map fun (k, v) => ({ layer := k / 4, role := k % 4, kind := 8, value := v } : Decision)
    let widened := narrows.foldl (fun l r => l.filter fun x => !(x.1 == r.layer && x.2.1 == r.role &&
        (l.find? fun y => y.1 == r.layer && y.2.1 == r.role && y.2.2.1 == x.2.2.1) == some x)) s.drv.widened
    let widened := (g.granted.flatMap fun r => units.map fun v =>
      let a := askOf v r
      (r.layer, r.role, v.device, a.1, a.2)) ++ widened
    let trust := (all.layers.filter fun l => bitAt l.flags 0).map fun l =>
      (l.layer, trustRatio (((s.profile l.layer).map (·.tmax)).getD 0x41200000) l.w2 l.u2)
    let ratios := if kind = 0 then trust.foldl (fun m (l, r, _) => put l r m) s.gov.trust else s.gov.trust
    let rings := if kind = 0 then s.ringAfter all else s.gov.ringMax
    let s := if kind = 0 then trust.foldl (fun s (l, _, c) => s.count 10 (s.home l) 5 (b2n c)) s else s
    let ls := (ratios.map (·.1) ++ rings.map (·.1)).foldl (fun a l => insertN l a) []
    let entries := ls.map fun l =>
      (l, ringScaleOf s.job.flock.gradFmt ((look [] l rings).foldl Nat.max 0), look 0x3F800000 l ratios)
    let v : Verdict :=
      { step := n, verdict := kind, flags := b2n (s.gov.baseline || raise') + 2 * b2n raise',
        epoch := if kind = 0 then s.drv.epoch else (s.drv.epoch + 1) % 2 ^ 32,
        decisions := plain ++ grants ++ pends, layers := entries }
    let s := { s with drv := { s.drv with widened := if raise' then [] else widened }, gov := { s.gov with ringMax := rings } }
    let s := if raise' then raise s (faultCode 3 WIDEN_EXHAUST 0x10) srcMgmt (exhausted.foldl Nat.min (exhausted.headD 0)) else s
    (s, some v)

/-! ## The verdict applied (R169) -/

/-- The energy range that a verdict ends, and its flags (R442). -/
def State.rangeVerdict (s : State) (n verdict : Nat) : State :=
  let e := s.eng
  if !e.isRange then s
  else
    let s := { s with eng := { e with rangeReplay := e.rangeReplay || verdict == 1, rangeSkip := e.rangeSkip || verdict == 2 } }
    if verdict = 1 || n + 1 < e.rangeFirst + s.job.rangeSteps then s
    else match e.seals.find? fun (x : Nat × Nat × List Nat × Nat) => x.1 == n with
      | none => s
      | some (_, t, acc, gaps) =>
        let s := closeBaseAt s 0 (n + 1 - e.rangeFirst) t gaps acc
        { s with eng := { s.eng with rangeFirst := n + 1,
                                     seals := s.eng.seals.filter fun (x : Nat × Nat × List Nat × Nat) => n < x.1 } }

/-- One step of statistics into every window, at a commit or skip (R170): a window that a later step's change has emptied stays empty. -/
def State.fillWindows (s : State) (n : Nat) : State :=
  let w := s.job.prec.window
  let ks := s.gov.ks.map fun (key, k) =>
    let recs := s.gov.firsts.filter fun e => e.1 / 2 ^ 21 == n &&
      govKey (keyLayer (e.1 % 2 ^ 21)) (keyRole (e.1 % 2 ^ 21)) == key && keyRole (e.1 % 2 ^ 21) < 4
    let r := recs.foldl (fun a e => a.merge e.2) ({} : TallyRec)
    let u := look 0 (n * 65536 + key / 4) s.gov.updCount
    (key, if n < k.since then k
          else { k with window := (r :: k.window).take w, updated := (u :: k.updated).take w,
                        changedAgo := if k.granted then 0 else k.changedAgo + 1 })
  { s with gov := { s.gov with ks := ks } }

/-- Costs entered in the ledgers of the blocks, or taken out of them (R174). -/
def State.ledger (s : State) (m : Map (Nat × Nat)) (add : Bool) : State :=
  m.foldl (fun s (b, a, c) => s.modBlk b fun x =>
    if add then { x with ledgerA := x.ledgerA + a, ledgerS := x.ledgerS + c }
    else { x with ledgerA := x.ledgerA - a, ledgerS := x.ledgerS - c }) s

/-- The scale bytes that a change of size adds on each block, or gives back (R172, R174). -/
def State.sizeLedger (s : State) (e : PrecEntry) (k : GovK) (code : Nat) : State × GovK :=
  s.hosting.foldl (fun (s, k) b =>
    let sum (c : Nat) := ((s.governedTensors e.layer e.role).map fun t =>
      let d := s.desc t
      if d.tier != 0 || d.block != b then 0 else bytesAt d (e.word k.cls c) true).sum
    let old := sum k.size
    let new := sum code
    let have' := look 0 b k.sizeBytes
    let now := have' + (new - old) - (old - new)
    let s := s.modBlk b fun x => { x with ledgerS := x.ledgerS + now - have' }
    (s, { k with sizeBytes := put b now k.sizeBytes })) (s, k)

/-- A decision entry received: the change waits for its step, the pair is held, the ledgers move (R170, R173-R175, R179). -/
def State.takeDecision (s : State) (eff : Nat) (raised : Bool) (d : Decision) : State :=
  match s.policy d.layer d.role, find? (govKey d.layer d.role) s.gov.ks with
  | some e, some k =>
    let key := govKey d.layer d.role
    let h := s.home d.layer
    let s := { s with gov := { s.gov with changes := s.gov.changes ++ [{ d := d, step := eff }] } }
    let hold (k : GovK) : GovK := { k with granted := true, changedAgo := 0 }
    match d.kind with
    | 1 =>
      let s := s.modRgn h fun g => { g with granted := satAdd 255 g.granted 1 }
      let s := if raised && d.value ≤ 8 then s else s.ledger k.asked true
      let k := if raised && d.value ≤ 8 then k else { k with grants := k.asked :: k.grants }
      { s with gov := { s.gov with ks := put key (hold k) s.gov.ks } }
    | 2 =>
      let s := s.ledger (k.grants.headD []) false
      { s with gov := { s.gov with ks := put key (hold { k with grants := k.grants.drop 1 }) s.gov.ks } }
    | 3 | 4 =>
      let (s, k) := s.sizeLedger e k d.value
      { s with gov := { s.gov with ks := put key (hold k) s.gov.ks } }
    | _ => s
  | _, _ => s

/-- The raise of the flock's baseline: every pair below class 8 that may reach it will change, ledgers and pending counts are
emptied, and T_base is latched again (R176). -/
def State.raiseBaseline (s : State) (eff : Nat) : State :=
  let s := s.hosting.foldl (fun s b => s.modBlk b fun x => { x with ledgerA := 0, ledgerS := 0 }) s
  let low := s.job.govs.filter fun e => match find? (govKey e.layer e.role) s.gov.ks with
    | some k => k.cls < 1 && 1 ≤ e.highest
    | none => false
  let ks := s.gov.ks.map fun (key, k) =>
    let k := { k with grants := [], sizeBytes := [] }
    (key, if low.any fun e => govKey e.layer e.role == key then { k with granted := true, changedAgo := 0 } else k)
  let ch := low.map fun e => ({ d := { layer := e.layer, role := e.role, kind := 9, value := 8 }, step := eff } : Change)
  { s with gov := { s.gov with ks := ks, baseline := true, pend := [], latch := true, changes := s.gov.changes ++ ch } }

/-- The pending counts of a verdict, and WIDEN_EXHAUST where one reaches its limit (R176, R179). -/
def State.takePending (s : State) (l : List Decision) : State :=
  let pend := (l.filter fun d => d.kind == 8).foldl (fun m d => put (govKey d.layer d.role) d.value m) []
  let s := { s with gov := { s.gov with pend := pend } }
  (pend.filter fun e => e.2 == s.job.prec.pendingLimit && has e.1 s.gov.ks).foldl (fun s e =>
    let layer := e.1 / 4
    let role := e.1 % 4
    let h := s.home layer
    let s := raise (s.rgnSticky h 3) (faultCode 2 WIDEN_EXHAUST role) (srcRegion h) layer
    { s with gov := { s.gov with notices := s.gov.notices ++ [{ layer := layer, role := role, kind := 7 }] } }) s

/-- What a verdict that raises the epoch discards: reorder entries, waiting heads, unsent buckets and completion counts (R324), and
the shards still queued. -/
def State.dropEpoch (s : State) (n : Nat) : State :=
  let d := s.drv
  let s := { s with drv := { d with reorder := d.reorder.filter fun x => s.drv.epoch ≤ x.epoch,
                                    outHeads := d.outHeads.filter fun x => s.drv.epoch ≤ x.epoch,
                                    waitHeads := d.waitHeads.filter fun x => s.drv.epoch ≤ x.epoch,
                                    filled := d.filled.filter fun x => x.2 < n, paramFrom := [],
                                    packets := d.packets.filter fun x => x.2.1 < n,
                                    stalled := d.stalled.filter fun m => s.drv.epoch ≤ m.epoch } }
  let s := [0, 1, 2, 3].foldl (fun s r => s.modRgn r fun g => { g with work := g.work.filter fun x => x.step < n }) s
  s.masters.foldl (fun s (l, m) => (s.copiesOf l m).foldl (fun s c =>
    s.modTen (bufOf c (1 - s.upd.live)) fun x => { x with asOf := 0, fillStep := 0, fillCount := 0, fillFrom := [] }) s) s

/-- The slot that the next snapshot writes: the one that does not hold the newest complete snapshot (R285). -/
def State.nextSlot (s : State) : Nat := if s.upd.anyDone then 1 - s.upd.newest else 0

/-- A snapshot copy begins: its slot, no longer complete, the buffer, the step at which the job resumes, and the governor state as it
stands (R286, R287). -/
def State.snapBegins (s : State) (step : Nat) : State :=
  let u := s.upd
  let k := s.nextSlot
  { s with upd := { u with snapBusy := true, snapArmed := false, snapWait := none, snapStep := step, snapBuf := u.live, snapSlot := k, snapParts := [], snapCursor := 0,
                           snapGov := s.govBody, snapCount := u.count, snapBase := s.gov.baseline, slots := drop k u.slots } }

/-- A module of a flock that does not issue the verdicts: whether it starts its copy now is a free value, since no field of a message carries
the mark of R286 (log 84). -/
def State.snapFollows (s : State) (step : Nat) : State :=
  if s.isVerdictManager || s.drv.role == 0 || s.upd.snapBusy then s
  else
    let x := takeFree s
    if x.1 % 2 = 1 then x.2.snapBegins step else x.2

/-- A commit verdict as the snapshot that waits for it sees it: the verdict manager's own copy starts with the first that it issues after the
command (R286). -/
def State.snapMark (s : State) (step : Nat) : State :=
  if s.upd.snapArmed then s.snapBegins step else s.snapFollows step

/-- Blocks after a commit: array cycles and T_base latched, a block that waited at SEAL STEP goes on (R146, R174). -/
def State.commitBlocks (s : State) : State :=
  let latch := s.gov.latch
  let s := s.hosting.foldl (fun s b => s.modBlk b fun x =>
    { x with arrLast := x.arrSeal, arrSeal := [], saved := none, tbase := if latch then x.sealCyc else x.tbase }) s
  { s with gov := { s.gov with latch := false } }

/-- The table entries of a step and later ones. -/
def fromStep (n per : Nat) (m : Map α) : Map α := m.filter fun e => n ≤ e.1 / per

/-- The table entries before a step. -/
def upToStep (n per : Nat) (m : Map α) : Map α := m.filter fun e => e.1 / per < n

/-- What the module keeps after the commit of step `n`. -/
def State.commitStep (s : State) (n : Nat) : State :=
  let s := s.fillWindows n
  let g := s.gov
  let s := { s with gov := { g with step := n + 1, first := true, replays := 0, stats := fromStep (n + 1) (2 ^ 21) g.stats,
                                    firsts := fromStep (n + 1) (2 ^ 21) g.firsts, lreplays := fromStep (n + 1) 65536 g.lreplays,
                                    updCount := fromStep (n + 1) 65536 g.updCount, ringScale := fromStep (n + 1) 65536 g.ringScale } }
  let u := s.upd
  let s := { s with upd := { u with live := 1 - u.live, liveOf := n + 1, count := u.count + 1, sums := [], done := [] },
                    drv := { s.drv with restartsUsed := 0, ringSeen := s.drv.ringSeen.filter fun e => n < e.1 / 65536, filled := s.drv.filled.filter fun x => n < x.2 } }
  let s := s.queues.foldl (fun a e => a.commitQueue e.1 n) s
  let s := s.commitBlocks
  s.hosting.foldl (fun s b => if (s.blk b).sealWait then s.sealStepDone b else s) s

/-- What the module keeps after a replay (`skip` false) or skip of step `n`: the run-ahead step is squashed, and work stops until
the queues are (R169, R235). Layers count their replays anew in a rerun, which the manual does not say (DESIGN CHOICE, log 134). -/
def State.squashStep (s : State) (n : Nat) (skip : Bool) : State :=
  let s := if skip then s.fillWindows n else s
  let g := s.gov
  let s := { s with gov := { g with step := if skip then n + 1 else n, first := skip, replays := if skip then 0 else g.replays + 1,
                                    stats := upToStep n (2 ^ 21) g.stats,
                                    firsts := if skip then [] else upToStep (n + 1) (2 ^ 21) g.firsts,
                                    lreplays := upToStep n 65536 g.lreplays, updCount := upToStep (n + b2n !skip) 65536 g.updCount,
                                    squash := some (n, if skip then 2 else 1) } }
  let s := { s with upd := { s.upd with sums := [], done := [] }, drv := { s.drv with ringSeen := s.drv.ringSeen.filter fun e => e.1 / 65536 < n } }
  s.dropEpoch n

/-- What every verdict does first: its wait is timed and recorded, the step awaits none any more, the epoch and the layer ratios are
taken (R169, R279, R304). -/
def State.noteVerdict (s : State) (v : Verdict) : State :=
  let n := v.step
  let s := s.count 16 0 9 (s.board.time - s.gov.voteTime)
  let s := s.waitRec 0 { kind := 0x04, flags := 4, src := srcMgmt, start := s.gov.voteTime, detail := 2, obj := n }
  let s := s.trace 0 { kind := 0x13, flags := 4, src := srcMgmt, start := s.localTime srcMgmt 0x13, detail := v.verdict,
                       obj := n % 2 ^ 32 + v.epoch * 2 ^ 32 }
  let s := s.rangeVerdict n v.verdict
  { s with upd := { s.upd with awaiting := false },
           gov := { s.gov with voted := eraseN n s.gov.voted, sealedSteps := eraseN n s.gov.sealedSteps,
                               trust := v.layers.foldl (fun (m : Map Nat) (x : Nat × Nat × Nat) => put x.1 x.2.2 m) s.gov.trust },
           drv := { s.drv with epoch := v.epoch, votes := [], voteFrom := none } }

/-- The step committed, replayed or skipped, as the verdict says (R169). -/
def State.turnStep (s : State) (v : Verdict) : State :=
  match v.verdict with
  | 0 => s.commitStep v.step
  | 1 =>
    let s := [0, 1, 2, 3].foldl (fun (s : State) r => s.modRgn r fun g => { g with stepReplay := satAdd 65535 g.stepReplay 1 }) s
    s.squashStep v.step false
  | _ =>
    let s := [0, 1, 2, 3].foldl (fun (s : State) r => s.modRgn r fun g => { g with stepSkip := satAdd 65535 g.stepSkip 1 }) s
    s.squashStep v.step true

/-- The step in which a verdict's changes take effect (R173, R175). -/
def Verdict.effect (v : Verdict) : Nat := if v.verdict = 0 then v.step + 2 else if v.verdict = 1 then v.step else v.step + 1

/-- The ring scales and the decisions that a verdict carries (R170, R175, R318); a raise empties the ledgers first, so that a grant of the
same verdict to another pair is entered (R176). -/
def State.takeDecisions (s : State) (v : Verdict) : State :=
  let s := { s with gov := { s.gov with ringScale := v.layers.foldl (fun (m : Map Nat) (x : Nat × Nat × Nat) =>
    if x.2.1 = 0 then m else put ((v.step + 2) * 65536 + x.1) x.2.1 m) s.gov.ringScale } }
  let raised := bitAt v.flags 1
  let s := if raised then s.raiseBaseline v.effect
    else { s with gov := { s.gov with baseline := s.gov.baseline || bitAt v.flags 0 } }
  let s := (v.decisions.filter fun d => d.kind != 8).foldl (fun s d => s.takeDecision v.effect raised d) s
  if raised then s else s.takePending v.decisions

/-- A verdict applied on this module (R169, R286); heads that waited for its epoch or a free slot are admitted (R308, R324). One for another step than the oldest without a verdict is no event. -/
def State.applyVerdict (s : State) (v : Verdict) : State :=
  if v.step != s.gov.step || !s.upd.awaiting then s
  else
    let s := ((s.noteVerdict v).turnStep v).takeDecisions v
    (if v.verdict = 0 then s.snapMark (v.step + 1) else s).admitHeads

/-! ## Votes on their way -/

/-- A verdict formed here goes to every manager and down the control tree, and is applied (R323, R324). -/
def State.issueVerdict (s : State) (v : Verdict) : State :=
  let m : DMsg := { type := mVerdict, step := v.step, payload := v.payload }
  let s := if s.drv.role = 3 then s.otherManagers.foldl (fun s d => s.post { m with dst := d }) s else s
  let s := s.flood s.job.flock.ctrlTree none (s.dmsg { m with mcast := true })
  s.applyVerdict v

/-- The votes of this module's own tier-1 flock for a step, all present. -/
def State.ownVotes (s : State) : Option (List Vote) :=
  let mine := s.drv.votes.filter fun v => v.device / 256 == s.drv.device / 256
  let need := s.drv.device :: s.otherMembers
  if need.all fun d => mine.any fun v => v.device == d then some mine else none

/-- A manager that holds every vote sends them on in one, or forms the verdict (R168, R319, R321). After the module has sent its
round-1 marker none is issued (R494). -/
def State.tryVerdict (s : State) : State :=
  if s.stop.round != 0 || !s.flockActive then s
  else match s.ownVotes with
    | none => s
    | some mine =>
      let lastDev := (s.drv.votes.getLast?.map (·.device)).getD 0
      let waited (s : State) : State :=
        s.waitRec 0 { kind := 0x04, flags := 4, src := srcMgmt, start := s.drv.voteFrom.getD s.board.time, awDev := lastDev,
                      detail := 1, obj := s.gov.step }
      if !s.isVerdictManager then
        match mergeVotes s.drv.device mine with
        | some v =>
          let s := waited s
          let s := { s with drv := { s.drv with votes := [], voteFrom := none } }
          s.post { type := mVote, dst := 0, step := v.step, payload := v.payload }
        | none => s
      else if s.drv.role = 3 then
        let others := s.drv.votes.filter fun v => v.device / 256 != s.drv.device / 256
        if s.otherManagers.all fun d => others.any fun v => v.device == d then
          match mergeVotes s.drv.device mine with
          | some v =>
            match (waited s).formVerdict (v :: others) with
            | (s, some d) => s.issueVerdict d
            | (s, none) => s
          | none => s
        else s
      else match (waited s).formVerdict mine with
        | (s, some d) => s.issueVerdict d
        | (s, none) => s

/-- A vote held by a manager. -/
def State.addVote (s : State) (v : Vote) : State :=
  let s := { s with drv := { s.drv with votes := (s.drv.votes.filter fun (x : Vote) => x.device != v.device) ++ [v],
                                        voteFrom := some (s.drv.voteFrom.getD s.board.time) } }
  s.tryVerdict

/-- STEP_VOTE: the vote of the step goes to the manager, once the step is sealed and its shards are done (R166, R319). -/
def execStepVote (s : State) : Host.Outcome State Fault Refusal :=
  let n := s.gov.step
  if !s.flockActive || s.stop.round != 0 || s.gov.squash.isSome || !s.gov.sealedSteps.contains n || s.gov.voted.contains n ||
     !s.shardsDone then .next s
  else
    let v := s.makeVote n
    let s := { s with gov := { s.gov with voted := insertN n s.gov.voted, voteTime := s.board.time, notices := [] },
                      upd := { s.upd with awaiting := true } }
    if s.isManager then .next (s.addVote v)
    else .next (s.post { type := mVote, dst := s.managerDev, step := n, payload := v.payload })

/-- VOTE: a manager takes the vote of a member, or the top manager that of another manager (R319, R321). -/
def execVote (port : Nat) (m : DMsg) (s : State) : Host.Outcome State Fault Refusal :=
  .next (s.droverIn port m mVote fun s =>
    if s.isManager && m.step == s.gov.step && s.flockActive then s.addVote (readVote m) else s)

/-- VERDICT: sent on down the control tree and applied (R169, R323). -/
def execVerdict (port : Nat) (m : DMsg) (s : State) : Host.Outcome State Fault Refusal :=
  .next (s.droverIn port m mVerdict fun u =>
    let u := u.sendDown port m (s.gone port m)
    if u.flockActive then u.applyVerdict (readVerdict m) else u)

end Sys2Proof.Machine
end

