-- ==== Sys2Proof/Machine/Snapshot.lean ====
section
/-! DEFINITION. Snapshots (R285-R289): the sections, the bytes of a slot, the copy beside the job, the check and the restore of a
slot. -/

namespace Sys2Proof.Machine

/-! ## Sections -/

/-- The elements of a view that this module owns. -/
def State.ownedElems (s : State) (v : View) : List Nat :=
  (s.ownedRanges v.d).flatMap fun (a, n) => (List.range n).map (a + ·)

/-- The scale blocks of a view that this module owns, as the number of their first element. -/
def State.ownedBlocks (s : State) (v : View) : List Nat :=
  if v.d.bs = 0 then []
  else (s.ownedRanges v.d).flatMap fun (a, n) => (List.range (ceilDiv n v.d.bs)).map fun k => a + k * v.d.bs

/-- The scale blocks of a tensor whose plans the module's slot holds: those it owns, and of a working copy those that a master element
owned here is converted into (R285). -/
def State.heldBlocks (s : State) (t : Nat) (v : View) : List Nat :=
  match s.copyOf (t - b2n (look {} t s.job.tensors).pairTail) with
  | none => s.ownedBlocks v
  | some (_, m, k) =>
    let owns := inSpans (s.ownedRanges (s.desc m))
    (s.ownedBlocks v).filter fun n => (List.range v.d.bs).any fun j => owns (masterPlace (s.desc m) (s.copyDim v.d.layer m k) (s.densePlace v (n + j)))

/-- The body of a tensor's section: its owned elements, then their scale bytes; for type 0x05 the plan entries (log 32). -/
def State.sectionBody (s : State) (ty t : Nat) : List Byte :=
  let v := s.liveView t
  if ty = 0x05 then
    (s.heldBlocks t v).flatMap fun n => match s.spot v n with
      | some p => let e := s.planAt v.d v.off p.block; le 1 e.2 ++ le 1 e.1
      | none => le 2 0
  else
    packBits v.d.w ((s.ownedElems v).map fun n => (s.rawElem v n).1) ++
    (s.ownedBlocks v).map fun n => match s.spot v n with
      | some p => s.tByte v.d p.scale
      | none => 0

/-- One unit of a section: what it reads, and whether a word of a block store among it is poisoned. -/
structure SnapUnit where
  unit : XUnit := {}
  pois : Bool := false

/-- The units of a section by the elements they are of: the plan entry of a scale block, or a delivery unit of elements (R265, R268, log 32). -/
def State.sectionRuns (s : State) (ty t : Nat) : List (List Nat) :=
  let v := s.liveView t
  if ty = 0x05 then (s.heldBlocks t v).map fun n => [n] else pieces (unitSize v.d) (s.ownedElems v)

/-- What a unit of a section accesses: the plan entries of its blocks, or its elements and scales (R253, R268). -/
def State.sectionAccess (s : State) (ty t : Nat) (wr : Bool) (ns : List Nat) : XUnit :=
  let v := s.liveView t
  if ty = 0x05 then s.joinPlans {} v ns (!wr) wr else s.joinUnit {} v ns wr

/-- The units of a section as the copy reads them (R268). -/
def State.sectionUnits (s : State) (ty t : Nat) : List SnapUnit :=
  let v := s.liveView t
  (s.sectionRuns ty t).map fun ns =>
    { unit := s.sectionAccess ty t false ns,
      pois := v.d.tier == 0 && ns.any fun n =>
        if ty = 0x05 then match s.spot v n with
          | some p => let e := s.planAt v.d v.off p.block; planPois e.1 || planPois e.2
          | none => false
        else let x := s.rawEl v n; x.pois || x.scalePois }

/-! ## The bytes of a slot -/

/-- Bytes padded to a multiple of 64. -/
def pad64 (l : List Byte) : List Byte := l ++ List.replicate (up64 l.length - l.length) 0

/-- The section table and the sections (R287). -/
def slotBody (parts : List (Nat × Nat × List Byte)) : List Byte :=
  (parts.flatMap fun (ty, t, b) => le 2 ty ++ le 2 0 ++ le 4 t ++ le 8 b.length) ++ parts.flatMap fun x => pad64 x.2.2

/-- The header's bytes 0x00 to 0x7F (R287). -/
def slotHead (sections flags serial job step committed time layout content : Nat) : List Byte :=
  le 4 0x00005301 ++ le 2 sections ++ le 2 flags ++ le 16 serial ++ le 8 job ++ le 8 step ++ le 8 committed ++ le 8 time ++ le 8 0 ++
  le 32 layout ++ le 32 content

/-- A slot signed by the identity element: header, signature, reserved bytes and body. -/
def signedSlot (head body : List Byte) : List Byte := head ++ le 64 (Config.sm2Sign head).toNat ++ le 64 0 ++ body

/-- A slot read: its bytes, zeros where nothing was written. -/
def State.slot (s : State) (k : Nat) : List Byte := look [] k s.upd.slots

/-- Whether a slot's complete flag is set. -/
def slotComplete (l : List Byte) : Bool := leAt l 0 4 == 0x00005301 && bitAt (leAt l 6 2) 0

/-- The resume step of a slot. -/
def slotStep (l : List Byte) : Nat := leAt l 0x20 8

/-- The sections of a slot: type, index and body. -/
def slotParts (l : List Byte) : List (Nat × Nat × List Byte) :=
  let n := leAt l 4 2
  let table := (List.range n).map fun k =>
    let o := 256 + 16 * k
    (leAt l o 2, leAt l (o + 4) 4, leAt l (o + 8) 8)
  (table.foldl (fun (a : List (Nat × Nat × List Byte) × Nat) x =>
    (a.1 ++ [(x.1, x.2.1, slice l a.2 x.2.2)], a.2 + up64 x.2.2)) ([], 256 + 16 * n)).1

/-- Bytes of a slot's frames (R347). -/
def State.slotBytes (s : State) : Nat := s.job.snapFrames * 2 ^ 21

/-- Bytes a snapshot would take. -/
def State.snapSize (s : State) : Nat :=
  let l := s.snapList
  let body (x : Nat × Nat) : Nat :=
    let v := s.liveView (bufOf x.2 s.upd.live)
    up64 (if x.1 = 0x05 then 2 * (s.heldBlocks (bufOf x.2 s.upd.live) v).length else ceilDiv ((s.ownedElems v).length * v.d.w) 8 + (s.ownedBlocks v).length)
  256 + 16 * (l.length + 1) + (l.map body).sum + up64 s.govBody.length

/-- The blocks of a slot that some bytes take, in order: frame j of a slot lies on package j mod 8 (R347). -/
def State.slotBlocks (s : State) (k bytes : Nat) : List Nat :=
  (List.range (ceilDiv bytes 256)).map fun i =>
    let j := i / 8192
    (16 + j % 8) * 2 ^ 28 + (32191 - k * (s.job.snapFrames / 8) - j / 8) * 2 ^ 13 + i % 8192

/-- A slot is no longer complete: after a failed read or write of it, or as a new one is begun (R286, R343). -/
def State.spoilSlot (s : State) (k : Nat) : State :=
  let other := 1 - k
  let l := look [] other s.upd.slots
  let stays := s.upd.newest != k && s.upd.anyDone
  let back := s.upd.newest == k && slotComplete l && leAt l 8 16 == Config.serial.toNat
  { s with upd := { s.upd with slots := drop k s.upd.slots, newest := if stays then s.upd.newest else if back then other else 0,
                               anyDone := stays || back } }

/-- A slot's bytes read for a ship or a restore; a block that fails for good leaves the slot not complete (R341, R343). -/
def State.readSlot (s : State) (ups : Upsets) (k : Nat) : State × Bool :=
  let x := s.readBlocks ups (s.slotBlocks k (s.slot k).length)
  if x.2 then (x.1.spoilSlot k, true) else x

/-- A slot's bytes written; whether a block failed for good (R342). -/
def State.writeSlotBlocks (s : State) (ups : Upsets) (k bytes : Nat) : State × Bool := s.writeBlocks ups (s.slotBlocks k bytes)

/-- A slot that holds a complete snapshot becomes the newest one. -/
def State.slotDone (s : State) (k : Nat) (image : List Byte) : State :=
  { s with upd := { s.upd with slots := put k image s.upd.slots, newest := k, anyDone := true } }

/-! ## The copy -/

/-- The outstanding SNAPSHOT take, if any, completes; a write is not touched (R418). -/
def State.finishTake (s : State) (status : Nat) (fault : Nat := 0) (result : List Byte := []) : State :=
  (s.hci.handles.filter fun h => h.opcode == 0x20 && h.arg == 0).foldl (fun s h => s.finish h status result 0 fault) s

/-- Whether other modules belong to the flock, whose slots a take waits for (R286). -/
def State.hasPeers (s : State) : Bool := 1 < s.flocksN || !s.otherMembers.isEmpty

/-- The take completes when every member has marked its slot complete: alone, at once; with other members when the verdict manager has
learnt of it, by what means the manual does not say, which a free value decides at each SNAPSHOT_COPY (R286, log 84). -/
def State.takeEnds (s : State) (result : List Byte) : State :=
  if s.hasPeers && Config.free s.fresh 0 % 2 == 0 then
    ({ s with upd := { s.upd with snapWait := some result } } : State).seeds 1
  else
    (({ s with upd := { s.upd with snapWait := none } } : State).seeds (b2n s.hasPeers)).finishTake stDone 0 result

/-- The copy stops without a snapshot: the slot stays not complete. -/
def State.copyStops (s : State) : State :=
  { s with upd := { s.upd with snapBusy := false, snapArmed := false, snapWait := none, snapParts := [], snapCursor := 0 } }

/-- The copy's sections in order; the governor state is the last. A write of the slot that fails for good stops the copy (R342). -/
def State.copyEnds (s : State) (ups : Upsets) : State :=
  let u := s.upd
  let parts := u.snapParts ++ [(0x06, noIndex, u.snapGov)]
  let body := slotBody parts
  let head := slotHead parts.length (1 + 2 * b2n u.snapBase) Config.serial.toNat s.glb.jobId u.snapStep u.snapCount s.now
    s.job.layout (Config.sm3 body).toNat
  let image := signedSlot head body
  let x := s.writeSlotBlocks ups u.snapSlot image.length
  if x.2 then x.1.copyStops
  else
    let s := x.1.slotDone u.snapSlot image
    let s := { s with upd := { s.upd with snapBusy := false, snapParts := [], snapCursor := 0 } }
    s.takeEnds (le 1 u.snapSlot ++ le 8 u.snapStep)

/-- The region whose stacks or packages hold a block. -/
def blockRegion (b : Nat) : Nat := if isHbm (baCtl b) then baCtl b / 4 else (baCtl b - 16) / 2

/-- A poisoned unit of a section reaches the copy, which stops (R35, R343). -/
def State.snapPoison (s : State) (t region : Nat) : State :=
  raise s.copyStops (faultCode 3 POISON_COMMIT 0x05) (srcRegion region) ((s.desc t).layer * 2 ^ 32 + t)

/-- The units of a section of tensor `t` read in order from the cursor, until one is barred or poisoned; whether all were read (R35, R268,
R341, R343). An access outside an allocation is reported at level 3 by the region (DESIGN CHOICE, log 151). -/
def State.readSection (s : State) (ups : Upsets) (t : Nat) : List SnapUnit → State × Bool
  | [] => (s, true)
  | x :: r =>
    match s.barOf ups x.unit with
    -- in the page's home region (DESIGN CHOICE, log 151)
    | some (.page p) => (s.requestPage p (p % 4), false)
    | some b => (s.copyStops.barFault ups 3 (srcRegion (regionOf (s.desc t).block)) b, false)
    | none =>
      let s := s.useUnit ups x.unit
      if x.pois then (s.snapPoison t (regionOf (s.desc t).block), false)
      else match (s.memBlocks x.unit.reads).find? s.mem.poison.contains with
        | some b => (s.snapPoison t (blockRegion b), false)
        | none => ({ s with upd := { s.upd with snapCursor := s.upd.snapCursor + 1 } } : State).readSection ups t r

/-- Sections copied until one is barred; what is left is tried again by the next command (R268). -/
def State.copySections (s : State) (ups : Upsets) : List (Nat × Nat) → State
  | [] => s.copyEnds ups
  | (ty, h) :: rest =>
    let t := bufOf h s.upd.snapBuf
    let x := s.readSection ups t ((s.sectionUnits ty t).drop s.upd.snapCursor)
    if !x.2 then x.1
    else
      let s := x.1
      ({ s with upd := { s.upd with snapParts := s.upd.snapParts ++ [(ty, h, s.sectionBody ty t)], snapCursor := 0 } } : State).copySections ups rest

/-- Where no copy runs: a take that waits for the other members may end, and a member of a PAUSED flock may start its copy (R286, log 84). -/
def State.copyIdle (s : State) : State :=
  if s.glb.halted then s
  else match s.upd.snapWait with
    | some result => s.takeEnds result
    | none => if s.glb.mstate == .paused && !s.err.stopIssue then s.snapFollows s.gov.step else s

/-- SNAPSHOT_COPY: the running copy goes on from the section it has reached: it waits for a page that is not resident (R268), stops at
a block that fails its CRC or is poisoned (R35, R341, R343), and ends with the header, signed and complete (R287). Sections that
exceed the slot end it with NO_RESOURCE (R347). With the module's own copy ended, the take waits for the other members (R286). -/
def execSnapshotCopy (ups : Upsets) (s : State) : Host.Outcome State Fault Refusal :=
  if !s.upd.snapBusy then .next s.copyIdle
  else if !s.inState [.running, .paused] || s.glb.halted || s.err.stopIssue then .next s
  else if s.slotBytes < s.snapSize then .next (s.copyStops.finishTake stNoRes)
  else .next (s.copySections ups (s.snapList.drop s.upd.snapParts.length))

/-! ## Checking and restoring a slot (R289) -/

/-- What a slot named in JOB_START is refused with; none where it may be restored. -/
def State.slotRefusal (s : State) (k : Nat) : Option Nat :=
  let l := s.slot k
  if !slotComplete l || leAt l 8 16 != Config.serial.toNat || leAt l 0x40 32 != s.job.layout then some stBad
  else if (Config.sm3 (l.drop 256)).toNat != leAt l 0x60 32 ||
    !Config.sm2Verify Config.deviceKey (l.take 0x80) (BitVec.ofNat 512 (leAt l 0x80 64)) then some stSig
  else none

/-- The slot byte of JOB_START and RESTART: none for the image contents. -/
def slotOf (k : Nat) : Option Nat := if k = 0xFF then none else some k

/-- The slot that a restore names, read under R341 and then checked: a slot that is not complete is not read, and one that a block of fails
for good is none that may be restored (R289, R343). -/
def State.slotChecked (s : State) (ups : Upsets) (byte : Nat) : State × Option Nat :=
  match slotOf byte with
  | none => (s, none)
  | some k =>
    if !slotComplete (s.slot k) then (s, some stBad)
    else
      let x := s.readSlot ups k
      (x.1, if x.2 then some stJobFault else s.slotRefusal k)

/-- `n` fields of `w` bits from the start of a run of bytes (R62). -/
def unpackBits (w n : Nat) (l : List Byte) : List Nat :=
  let word := ofLe (l.take (ceilDiv (n * w) 8))
  (List.range n).map fun k => word >>> (k * w) % 2 ^ w

/-- Units `a` to `b` of a section of a tensor written into a buffer entry. -/
def State.restoreUnits (s : State) (ty t a b : Nat) (body : List Byte) : State :=
  let v := s.liveView t
  let runs := s.sectionRuns ty t
  if ty = 0x05 then
    ((runs.take b).zipIdx.drop a).foldl (fun s (ns, k) => match s.spot v (ns.headD 0) with
      | some p => s.setPlan v.d v.off p.block (leAt body (2 * k + 1) 1, leAt body (2 * k) 1)
      | none => s) s
  else
    let n := (s.ownedElems v).length
    let bits := unpackBits v.d.w n body
    let scs := body.drop (ceilDiv (n * v.d.w) 8)
    let els := (((runs.take b).drop a).flatMap id).zipIdx (a * unitSize v.d)
    (spansOf (els.map (·.1))).foldl (fun s span =>
      let o := ((els.find? fun e => e.1 == span.1).map (·.2)).getD 0
      s.writeRaw v span.1 ((List.range span.2).map fun k =>
        ({ bits := bits.getD (o + k) 0, scale := if v.d.bs = 0 then 0 else (scs.getD ((o + k) / v.d.bs) 0).toNat } : RawEl))) s

/-- The units of a section from `done` on before the first that is barred, how many, and the bar. -/
def State.restoreRoom (s : State) (ups : Upsets) (ty t done : Nat) : Nat × Option Bar :=
  let units := ((s.sectionRuns ty t).drop done).map (s.sectionAccess ty t true)
  let whole := s.wholeBlocks (units.flatMap (·.writes))
  match units.zipIdx.findSome? fun (u, k) => (s.barOf ups u whole).map fun b => (k, b) with
  | some (k, b) => (k, some b)
  | none => (units.length, none)

/-- The sections of a slot taken into buffer 0, until a page of the memory packages is met, which is asked for (R253, R261, R268, R289). -/
def State.restoreList (s : State) (ups : Upsets) (k : Nat) : List (Nat × Nat × Nat) → State
  | [] => { s with upd := { s.upd with restoring := none } }
  | (ty, h, done) :: rest =>
    let t := bufOf h 0
    let body := ((slotParts (s.slot k)).find? fun x => x.1 == ty && x.2.1 == h).map (·.2.2)
    let (n, bar) := s.restoreRoom ups ty t done
    let units := ((s.sectionRuns ty t).drop done).take n |>.map (s.sectionAccess ty t true)
    let s := s.useMemory ups [] (units.flatMap (·.writes))
    let s := s.restoreUnits ty t done (done + n) (body.getD [])
    match bar with
    | none => (s.modTen t fun x => { x with holds := x.holds || ty != 0x05 }).restoreList ups k rest
    | some (.page p) => ({ s with upd := { s.upd with restoring := some (k, (ty, h, done + n) :: rest) } } : State).requestPage p (p % 4)
    | some b => ({ s with upd := { s.upd with restoring := none } } : State).barFault ups 3 (srcRegion (regionOf (s.desc t).block)) b

/-- Whether contents go to a place that a prefetch fills (R148). -/
def State.atPrefetch (s : State) (t : Nat) : Bool := let d := s.desc t; d.tier == 0 && s.inHalves d.block t

/-- The initial plan of a governed block-scaled tensor (R158): from its contents, else INIT_SC; on both copies. -/
def State.initPlan (s : State) (t : Nat) : State :=
  let x := s.ten t
  let d := x.desc
  match s.policy d.layer d.role with
  | none => s
  | some e =>
    if !d.planned || d.role ≥ 4 then s
    else
      let v := s.liveView t
      let f := fmtOf (fwFmt d.fmtw) true
      let same := d.fmtw % 128 == (s.desc t).fmtw % 128
      let (src, has) := match s.atPrefetch t, (look ({} : TEntry) t s.job.tensors).contents with
        | true, some l => (s.writeImage t l, true)
        | _, _ => (s, x.holds)
      let loaded := same && has
      let val (n : Nat) : Nat :=
        if loaded then (scaleFromMax f (amaxOf (((List.range d.bs).map (n + ·)).map (src.elem v))) + 127).toNat else e.initSc
      let offs := if d.stgoff = 0 then [0] else [0, d.stgoff]
      (s.ownedBlocks v).foldl (fun s n => match s.spot v n with
        | some p => let sc := val n; offs.foldl (fun s off => s.setPlan d off p.block (sc, sc)) s
        | none => s) s

/-- Initial plans of every tensor. -/
def State.initPlans (s : State) : State := s.job.tensors.foldl (fun s e => s.initPlan e.1) s

/-- A tensor's descriptor in a format word: the loaded one where the word is the loaded one, else in the layout of R534. -/
def State.laidIn (s : State) (t fw : Nat) : Desc := 
  let d := s.desc t
  if d.fmtw % 128 = fw % 128 then { d with fmtw := fw } else s.relaid d fw

/-- A pair's class, size and λ put back, and its tensors in that format. -/
def State.restorePair (s : State) (key cls size lambda : Nat) : State :=
  match find? key s.gov.ks, s.policy (key / 4) (key % 4) with
  | some k, some e =>
    let k := { k with cls := cls, size := size, lambda := lambda, lambdaOld := lambda, lambdaFrom := 0 }
    let s := { s with gov := { s.gov with ks := put key k s.gov.ks } }
    (s.governedTensors e.layer e.role).foldl (fun s t =>
      s.modTen t fun x => { x with desc := s.laidIn t (e.word cls size), later := none }) s
  | _, _ => s

/-- Both buffers of a pair put in a format word: the loaded layout where it is the loaded one, else that of R534. Buffer 0 stands in
the copied word `old` and takes the pair's word at its next write; buffer 1 takes the pair's word. -/
def State.restoreFormat (s : State) (h old : Nat) : State :=
  let d := s.desc h
  let fw := match s.policy d.layer d.role, find? (govKey d.layer d.role) s.gov.ks with
    | some e, some k => if s.remainders.contains h then old else e.word k.cls k.size
    | _, _ => old
  let s := s.modTen h fun x => { x with desc := s.laidIn h old, later := none }
  s.modTen (h + 1) fun x => { x with desc := s.laidIn (h + 1) fw, later := none }

/-- A tensor whose copy stands in another word than its pair's takes the pair's word at its next write (R173). -/
def State.restoreLater (s : State) (step h : Nat) : State :=
  let d := (s.ten h).desc
  match s.policy d.layer d.role, find? (govKey d.layer d.role) s.gov.ks with
  | some e, some k =>
    let fw := e.word k.cls k.size
    if s.remainders.contains h || d.fmtw = fw then s else s.relayTensor step fw e.initSc h
  | _, _ => s

/-- The format words that a slot's governor state lists. -/
def govFormats (body : List Byte) : List (Nat × Nat) :=
  let o := 16 + 8 * (leAt body 0 4 + leAt body 4 4)
  (List.range (leAt body 8 4)).map fun i => (leAt body (o + 8 * i) 4, leAt body (o + 8 * i + 4) 4)

/-- The format words that a slot image carries in its governor state. -/
def slotFormats (image : List Byte) : List (Nat × Nat) :=
  ((slotParts image).filter fun x => x.1 == 0x06).flatMap fun x => govFormats x.2.2

/-- The governor state of a slot put back. -/
def State.restoreGov (s : State) (body : List Byte) : State :=
  let nk := leAt body 0 4
  let s := (List.range nk).foldl (fun s i =>
    let o := 16 + 8 * i
    s.restorePair (govKey (leAt body o 2) (leAt body (o + 2) 1)) (leAt body (o + 3) 1) (leAt body (o + 4) 1) (leAt body (o + 5) 1)) s
  let trust := (List.range (leAt body 4 4)).foldl (fun (m : Map Nat) i =>
    let o := 16 + 8 * nk + 8 * i
    put (leAt body o 2) (leAt body (o + 4) 4) m) []
  let s := { s with gov := { s.gov with trust := trust } }
  (govFormats body).foldl (fun s x => s.restoreFormat x.1 x.2) s

/-- A slot's state restored: governor state first, which settles every layout; L, the step, the count of committed updates and the baseline;
its sections wait to be taken into buffer 0 (R289). -/
def State.restoreSlot (s : State) (k : Nat) : State :=
  let l := s.slot k
  let parts := slotParts l
  let s := { s with upd := { s.upd with live := 0, count := leAt l 0x28 8 },
                    gov := { s.gov with step := slotStep l, baseline := bitAt (leAt l 6 2) 1 } }
  let s := ((parts.filter fun x => x.1 == 0x06).foldl (fun (s : State) x => s.restoreGov x.2.2) s).initPlans
  { s with upd := { s.upd with restoring := some (k, (parts.filter fun x => x.1 != 0x06).map fun x => (x.1, x.2.1, 0)) } }

/-- With every section in place, the tensors that stand in another word than their pair's wait to take it (R173, R289). -/
def State.restoreEnds (s : State) (k : Nat) : State := (slotFormats (s.slot k)).foldl (fun s x => s.restoreLater (slotStep (s.slot k)) x.1) s

end Sys2Proof.Machine
end

