-- ==== Sys2Proof/Machine/Drover.lean ====
section
/-! DEFINITION. The messages of a fold: buckets, heads, grants, contributions, ring messages and parameters (R299-R318, R324). -/

namespace Sys2Proof.Machine

/-! ## Contributions (R305-R307) -/

/-- The weight-gradient accumulator of a master (R270). -/
def State.accumulatorOf (s : State) (t : Nat) : Option Nat :=
  (s.job.tensors.find? fun e => e.2.desc.clr && e.2.desc.master == t).map (·.1)

/-- A bucket that has filled: its step and where it lies. -/
structure Full where
  step : Nat
  acc : Nat
  tensor : Nat
  first : Nat
  count : Nat
  deriving DecidableEq, Repr

/-- Whether every backward stage that writes an accumulator has completed SEAL LAYER in a step. -/
def State.accSealed (s : State) (acc n : Nat) : Bool :=
  s.hosting.all fun b => (s.stages b).all fun g =>
    !g.backward || !(g.prog.any fun i => i.dst.slots.contains acc) || n < (s.blk b).step ||
    ((s.blk b).step == n && (s.run b g.idx).done g.sealPos)

/-- A bucket that has filled and has not been handled (R305). -/
def State.fullBucket (s : State) (layer chunk : Nat) : Option Full :=
  match (s.buckets layer)[chunk]? with
  | none => none
  | some (t, first, count) =>
    match s.accumulatorOf t with
    | none => none
    | some acc =>
      let n := (s.ten acc).cleared - 1
      if (s.ten acc).cleared = 0 || n < s.gov.step || s.drv.filled.contains (layer * 65536 + chunk, n) || !s.accSealed acc n then none
      else some { step := n, acc := acc, tensor := t, first := first, count := count }

/-- GRAD_FMT with the rounding of a layer's gradients (R305). -/
def State.gradWord (s : State) (layer : Nat) : Nat :=
  s.job.flock.gradFmt % 128 + (match s.policy layer 2 with | some e => if e.stochastic then 256 else 0 | none => 0)

/-- A run of a segment's values encoded: element bits, scale bytes, and statistics (R65, R305). -/
def State.encodeSegment (s : State) (layer step first : Nat) (vals : List Val) : List Nat × List Byte × TallyRec :=
  let fw := s.gradWord layer
  let b := fwBlock fw
  let m : Stm := { key := s.streamKey s.job.flock.gradStream, step := step, f := 1023 }
  let l := (pieces b vals).zipIdx.map fun (src, k) => (convertBlock fw none (fun i => m.half (first + k * b + i)) src, src)
  (l.flatMap fun x => x.1.elems.map (·.1), l.map fun x => BitVec.ofNat 8 x.1.scale, l.foldl (fun r x => r.merge (recOf x.1 x.2)) {})

/-- Values of encoded elements (R60, R310). -/
def decodeGrad (fw : Nat) (bits : List Nat) (scales : List Byte) : List Val :=
  bits.zipIdx.map fun (x, k) => ⟨(decodeScaled (fwFmt fw) (scales.getD (k / fwBlock fw) 0).toNat x), false⟩

/-- Heads of a fold sent as far as HEADS_OUT allows, in their order (R307). -/
def State.sendHeads (s : State) (fold : Nat) : State :=
  let out := (s.drv.outHeads.filter fun h => h.fold == fold && h.sent).length
  let next := (s.drv.outHeads.filter fun h => h.fold == fold && !h.sent).take (s.job.flock.headsOut - out)
  next.foldl (fun s h =>
    let g := h.grads.headD { type := mGrad }
    let s := { s with drv := { s.drv with outHeads := s.drv.outHeads.map fun x =>
      if x == h then { x with sent := true, since := s.board.time } else x } }
    s.post { type := mHead, fold := fold, dst := h.owner, step := h.step, layer := h.layer, chunk := h.chunk, tensor := g.tensor,
             first := g.first, count := (h.grads.map (·.count)).sum }) s

/-- Statistics of an encoding filed under (layer, gradients, backward) (R270). -/
def State.fileGrad (s : State) (step layer : Nat) (r : TallyRec) : State :=
  let add (m : Map TallyRec) := addRec (step * 2 ^ 21 + tallyKey layer 2 dirBwd) r m
  { s with gov := { s.gov with stats := add s.gov.stats, firsts := if s.firstRun step then add s.gov.firsts else s.gov.firsts } }

/-- The segments of a bucket that the module owns reduced into its entry (R307). -/
def State.reduceOwn (s : State) (f : Fold) (layer chunk fw : Nat) (x : Full) (enc : List (Span × List Nat × List Byte × TallyRec)) : State :=
  match s.joinEntry f.fold x.step s.drv.epoch layer chunk s.drv.device with
  | none => s
  | some s => (enc.filter fun e => s.ownerOf x.tensor e.1.1 == s.drv.device).foldl (fun (s : State) e =>
      match s.entry? x.step s.drv.epoch layer chunk with
      | some r => s.reduceSegment f r s.drv.device e.1.1 (decodeGrad fw e.2.1 e.2.2.1)
      | none => s) s

/-- The contributions of a filled bucket: to the module itself straight into its entry, to others behind a head (R305, R307). -/
def State.contribute (s : State) (f : Fold) (layer chunk : Nat) (x : Full) : State :=
  let v := s.liveView x.acc
  let fw := s.gradWord layer
  let segs := s.segments x.tensor x.first x.count
  let enc := segs.map fun sp => (sp, s.encodeSegment layer x.step sp.1 ((List.range sp.2).map fun k => s.elem v (sp.1 + k)))
  let s := s.fileGrad x.step layer (enc.foldl (fun r e => r.merge e.2.2.2) {})
  let msg (e : Span × List Nat × List Byte × TallyRec) : DMsg :=
    { type := mGrad, fold := f.fold, fmt := s.job.flock.gradFmt, step := x.step, layer := layer, chunk := chunk, tensor := x.tensor,
      count := e.1.2, first := e.1.1, payload := packBits (fwWidth fw) e.2.1 ++ e.2.2.1 }
  let owners := sortN (segs.map fun sp => s.ownerOf x.tensor sp.1)
  let s := { s with drv := { s.drv with filled := (layer * 65536 + chunk, x.step) :: s.drv.filled } }
  let others := owners.filter (· != s.drv.device)
  let heads := others.map fun d =>
    ({ step := x.step, epoch := s.drv.epoch, layer := layer, chunk := chunk, fold := f.fold, owner := d,
       grads := (enc.filter fun e => s.ownerOf x.tensor e.1.1 == d).map msg } : OutHead)
  let s := { s with drv := { s.drv with outHeads := s.drv.outHeads ++ heads } }
  let s := s.count 16 0 0 (b2n others.isEmpty)
  let s := if owners.contains s.drv.device then s.reduceOwn f layer chunk fw x enc else s
  s.sendHeads f.fold

/-- BUCKET_FILL: a filled bucket is encoded and its contributions sent, within its layer in chunk order; a poisoned accumulator element
raises POISON_COMMIT before anything of the bucket is sent (R35, R305; the manual stops at its segment: log 33). -/
def execBucketFill (layer chunk : Nat) (ups : Upsets) (s : State) : Host.Outcome State Fault Refusal :=
  if !s.flockActive || s.stop.round != 0 || s.gov.squash.isSome then .next s
  else match s.fullBucket layer chunk, s.foldOfLayer layer with
    | some x, some f =>
      if (List.range chunk).any fun c => (s.fullBucket layer c).isSome then .next s
      else
        let d := (s.ten x.acc).desc
        let s := s.eccUpsets d.block ups
        let v := s.liveView x.acc
        if (List.range x.count).any fun k => (s.elem v (x.first + k)).pois then
          .next (raise s (faultCode 2 POISON_COMMIT 0x02) (srcDrover (regionOf d.block)) (layer * 2 ^ 32 + x.tensor))
        else .next (s.contribute f layer chunk x)
    | _, _ => .next s

/-! ## Messages of a fold at their destination -/

/-- A message that has to wait. -/
def State.stall (s : State) (m : DMsg) : State := { s with drv := { s.drv with stalled := s.drv.stalled ++ [m] } }

/-- A grant: the contribution's segments are sent, and the next head (R307). -/
def State.onGrant (s : State) (m : DMsg) : State :=
  match s.drv.outHeads.find? fun h => h.sent && h.fold == m.fold && h.owner == m.src && h.step == m.step && h.layer == m.layer &&
      h.chunk == m.chunk && h.epoch == m.epoch with
  | none => s
  | some h =>
    let s := h.grads.foldl State.post s
    let s := { s with drv := { s.drv with outHeads := s.drv.outHeads.erase h } }
    let more := s.drv.outHeads.any fun x => x.step == h.step && x.layer == h.layer && x.chunk == h.chunk
    let s := (s.count 16 0 0 (b2n !more)).count 16 0 2 (s.board.time - h.since)
    let r := s.home h.layer
    let obj := h.chunk + h.layer * 2 ^ 16 + h.step % 2 ^ 32 * 2 ^ 32
    let s := s.waitRec r { kind := 0x05, flags := 4, src := srcDrover r, start := h.since, awSrc := s.sliceOf m.src h.layer, awDev := m.src, detail := 0x02, obj := obj }
    s.sendHeads h.fold

/-- A contribution's segment reduced by its owner (R310). -/
def State.onGrad (s : State) (m : DMsg) : State :=
  match s.fold? m.fold, s.entry? m.step m.epoch m.layer m.chunk with
  | some f, some e =>
    let w := fwWidth m.fmt
    let nd := ceilDiv (m.count * w) 8
    let word := ofLe (m.payload.take nd)
    let bits := (List.range m.count).map fun k => word >>> (k * w) % 2 ^ w
    s.reduceSegment f e m.src m.first (decodeGrad m.fmt bits (m.payload.drop nd))
  | _, _ => s

/-- A ring message meets this module's sum, and goes on (R315, R317); it waits for an entry not yet reduced here. -/
def State.onRing (s : State) (m : DMsg) : State :=
  match s.entry? m.step m.epoch m.layer m.chunk with
  | some e =>
    if !e.tier1 then s.stall m
    else match s.ringChunkAt e m.first with
      | some c =>
        let blks := readRing m.fmt ((s.ringChunk e c).map List.length) m.payload
        (s.ringStep e c m.scale m.hop (some blks)).passEntries
      | none => s
  | none => s.stall m

/-- A final ring message: decoded into the slot, and sent on until it has gone round (R318). -/
def State.onRingFinal (s : State) (m : DMsg) : State :=
  match s.entry? m.step m.epoch m.layer m.chunk with
  | some e =>
    if !e.tier1 then s.stall m
    else match s.ringChunkAt e m.first with
      | some c =>
        let blks := readRing m.fmt ((s.ringChunk e c).map List.length) m.payload
        let s := s.ringFinal e c m.scale blks
        let s := if (s.flockIdx + 1) % s.flocksN = (c + s.flocksN - 1) % s.flocksN then s
          else s.postRing e c 1 (m.hop + 1) m.scale blks
        s.passEntries
      | none => s
  | none => s

/-- The buffer that a PARAM of a step fills: the one its update writes, or the live one for a refresh (R282, R289, R314). -/
def State.paramBuf (s : State) (step : Nat) : Nat :=
  if s.upd.refresh && step == s.upd.liveOf then s.upd.live
  else if step = s.gov.step then 1 - s.upd.live else s.upd.live

/-- Plan entries of consecutive scale blocks stored, REPLAY_SC and NEXT_SC of each (R281). -/
def State.storePlans (s : State) (v : View) (b0 nb : Nat) (plans : List Byte) : State :=
  (List.range nb).foldl (fun (s : State) k =>
    match s.spot v ((b0 + k) * v.d.bs) with
    | some p => s.setPlan v.d v.off p.block (leAt plans (2 * k + 1) 1, leAt plans (2 * k) 1)
    | none => s) s

/-- A part of a PARAM: its elements from `a` on, `n` of them, with their scale bytes and plan entries (R314). -/
def paramPart (m : DMsg) (v : View) (a n : Nat) : DMsg :=
  let w := v.d.w
  let nd := ceilDiv (m.count * w) 8
  let blks (first count : Nat) : Nat := if v.d.bs = 0 || count = 0 then 0 else (first + count - 1) / v.d.bs + 1 - first / v.d.bs
  let b0 := if v.d.bs = 0 then 0 else m.first / v.d.bs
  let b := (if v.d.bs = 0 then 0 else a / v.d.bs) - b0
  let nb := blks m.first m.count
  let k := blks a n
  { m with first := a, count := n,
           payload := le (ceilDiv (n * w) 8) (ofLe (m.payload.take nd) >>> ((a - m.first) * w) % 2 ^ (n * w)) ++
             slice m.payload (nd + b) k ++ slice m.payload (nd + nb + 2 * b) (2 * k) }

/-- The memory addresses that elements of a working copy are stored at, with their plan entries. -/
def State.paramUnit (s : State) (v : View) (span : Span) : XUnit :=
  let els := (List.range span.2).map (span.1 + ·)
  s.joinPlans (s.joinUnit {} v els true) v els false true

/-- A range of a working copy, whose first element stands at `m.first` in the copy's order, stored with its scales and plan entries, and
counted in the copy (R268, R281, R314). -/
def State.storeParam (s : State) (ups : Upsets) (m : DMsg) (t : Nat) (refresh : Bool) : State :=
  let v := s.liveView t
  let s := s.useUnit ups (s.paramUnit v (m.first, m.count))
  let w := v.d.w
  let nd := ceilDiv (m.count * w) 8
  let word := ofLe (m.payload.take nd)
  let b0 := if v.d.bs = 0 then 0 else m.first / v.d.bs
  let nb := if v.d.bs = 0 || m.count = 0 then 0 else (m.first + m.count - 1) / v.d.bs + 1 - b0
  let scs := (m.payload.drop nd).take nb
  let plans := m.payload.drop (nd + nb)
  let vals := (List.range m.count).map fun k =>
    ({ bits := word >>> (k * w) % 2 ^ w, scale := if v.d.bs = 0 then 0 else (scs.getD ((m.first + k) / v.d.bs - b0) 0).toNat } : RawEl)
  let s := s.writeRaw v m.first vals
  let s := if v.d.planned then s.storePlans v b0 nb plans else s
  let s := if s.drv.paramFrom.any fun x => x.1 == m.layer && x.2.1 == m.step then s
    else { s with drv := { s.drv with paramFrom := s.drv.paramFrom ++ [(m.layer, m.step, s.board.time)] } }
  (s.fillCopy m.src m.layer t (s.paramBuf m.step) m.step (if refresh then m.step else m.step + 1) m.count).endCopyWaits s (some (m.src, s.route m.src))

/-- The first unit of a list of units of a view's elements that is barred. -/
def State.firstSpan (s : State) (ups : Upsets) (v : View) (whole : List Nat) : List Span → Option (Nat × Bar)
  | [] => none
  | x :: r =>
    match s.barOf ups (s.paramUnit v x) whole with
    | some b => some (x.1, b)
    | none => s.firstSpan ups v whole r

/-- Where in the order of a copy its master's element `i` stands: the place that a PARAM names (R299, R314). -/
def State.copyStart (s : State) (v : View) (layer master k i : Nat) : Option Nat :=
  (List.range v.count).find? fun n => masterPlace (s.desc master) (s.copyDim layer master k) (s.densePlace v n) == i

/-- What a Drover slice does at what bars a PARAM: the page is asked for and what is left of the message waits, or a job fault (R253, R268).
The page is asked for in its home region (DESIGN CHOICE, log 151). -/
def State.paramBar (s : State) (ups : Upsets) (m : DMsg) : Bar → State
  | .page p => (s.requestPage p (p % 4)).stall m
  | b => s.barFault ups 2 (srcDrover (s.home m.layer)) b

/-- A range of a working copy written at its place in delivery units, as far as nothing bars it; a page that is not resident is asked for, and
the rest of the message waits (R253, R268, R314). A message that names no working copy of this module is placed nowhere. -/
def State.onParam (s : State) (ups : Upsets) (m : DMsg) : State :=
  let refresh := s.upd.refresh && m.step == s.upd.liveOf
  match (s.copiesOf m.layer m.tensor)[m.hop]? with
  | none => s
  | some c =>
    let t := bufOf c (s.paramBuf m.step)
    match s.settleBar ups t m.step with
    | some b => s.paramBar ups m b
    | none =>
      let s := s.settleNow ups t m.step
      let v := s.liveView t
      match s.copyStart v m.layer m.tensor m.hop m.first with
      | none => s
      | some a0 =>
        let mc := { m with first := a0 }
        let u := unitSize v.d
        match s.firstSpan ups v (s.unreadBlocks (s.paramUnit v (a0, m.count))) (cutSpan u (m.count / u + 1) (a0, m.count)) with
        | none => s.storeParam ups mc t refresh
        | some (a, b) =>
          let n := a - a0
          let s := if n = 0 then s else s.storeParam ups (paramPart mc v a0 n) t refresh
          let rest := paramPart mc v a (m.count - n)
          s.paramBar ups { rest with first := masterPlace (s.desc m.tensor) (s.copyDim m.layer m.tensor m.hop) (s.densePlace v a) } b

/-- A message of a fold handed to its meaning. After a halt it is discarded (R496); while the job does not run it waits; after a pause
marker of round 1 whatever would send a message waits (R492). -/
def State.deliver (ups : Upsets) (s : State) (m : DMsg) : State :=
  if s.glb.halted then s
  else if !s.flockActive then s.stall m
  else if s.stop.round != 0 && (m.type == mGrant || m.type == mRing || m.type == mRingFinal) then s.stall m
  else match m.type with
    | 2 => s.onGrant m
    | 3 => s.onGrad m
    | 4 => s.onParam ups m
    | 5 => s.onRing m
    | 6 => s.onRingFinal m
    | _ => s

/-- The waiting messages tried again, in order. -/
def State.retryStalled (s : State) (ups : Upsets := {}) : State :=
  s.drv.stalled.foldl (State.deliver ups) { s with drv := { s.drv with stalled := [] } }

/-- A message of the fold, and what it set free: waiting messages and waiting heads. -/
def State.foldMessage (s : State) (m : DMsg) (ups : Upsets := {}) : State := ((State.deliver ups s m).retryStalled ups).admitHeads

/-- HEAD: admitted into the reorder table with a GRANT, or it waits (R307, R308). -/
def execHead (port : Nat) (m : DMsg) (s : State) : Host.Outcome State Fault Refusal :=
  .next (s.droverIn port m mHead fun s =>
    if s.glb.halted then s
    else ({ s with drv := { s.drv with waitHeads := s.drv.waitHeads ++ [m] } } : State).admitHeads)

/-- GRANT (R307). -/
def execGrant (port : Nat) (m : DMsg) (s : State) : Host.Outcome State Fault Refusal :=
  .next (s.droverIn port m mGrant fun s => s.foldMessage m)

/-- GRAD (R310). -/
def execGrad (port : Nat) (m : DMsg) (s : State) : Host.Outcome State Fault Refusal :=
  .next (s.droverIn port m mGrad fun s => s.foldMessage m)

/-- RING (R315, R317). -/
def execRing (port : Nat) (m : DMsg) (s : State) : Host.Outcome State Fault Refusal :=
  .next (s.droverIn port m mRing fun s => s.foldMessage m)

/-- RING_FINAL (R318). -/
def execRingFinal (port : Nat) (m : DMsg) (s : State) : Host.Outcome State Fault Refusal :=
  .next (s.droverIn port m mRingFinal fun s => s.foldMessage m)

/-- PARAM: flooded on along the fold's tree, counted, and written into the working copy (R313, R314). -/
def execParam (port : Nat) (m : Met DMsg) (s : State) : Host.Outcome State Fault Refusal :=
  .next (s.droverIn port m.it mParam (i := .param port m) fun u =>
    let u := if s.gone port m.it then u else u.floodOn port m.it
    let u := u.count 16 0 6 m.it.payload.length
    u.foldMessage m.it m.ups)

/-- BAD_DROVER_MESSAGE: an unlisted type, a reserved field not 0, or a fold of which the module is no member (R300). A halted module
discards every message (R496). -/
def execBadDroverMessage (port : Nat) (m : DMsg) (s : State) : Host.Outcome State Fault Refusal :=
  if port < 32 && s.heldAt port then .next (s.hold (.badDroverMessage port m))
  else if s.portUp port && s.badMsg m then
    let s := s.taken port (DMsgBytes m)
    .next (if s.glb.halted then s else s.dropBad port m)
  else .next s

end Sys2Proof.Machine
end

