-- ==== Sys2Proof/Machine/JobBegin.lean ====
section
/-! DEFINITION. How a job begins, at JOB_START and at an automatic restart: image contents, initial plans, a restored slot, empty queues,
every block at the first step, and the parameter refresh (R158, R289, R327, R387, R418). -/

namespace Sys2Proof.Machine

/-! ## Tensors -/

/-- A tensor as the image declares it; governed gradients that round stochastically have RND = 1 in their word (R77, R157). -/
def State.freshTensor (s : State) (e : TEntry) : TensorRt :=
  match s.policy e.desc.layer e.desc.role with
  | some p => { desc := { e.desc with fmtw := p.rnd e.desc.fmtw } }
  | none => { desc := e.desc }

/-- The image contents of every tensor, those of a pair's head in both entries (R387). -/
def State.loadContents (s : State) : State :=
  s.job.tensors.foldl (fun s e =>
    match e.2.contents with
    | none => s
    | some l =>
      if s.atPrefetch e.1 then s
      else
        let one (s : State) (t : Nat) : State := (s.writeImage t l).modTen t fun x => { x with holds := true }
        if e.2.pairHead then one (one s e.1) (e.1 + 1) else one s e.1) s

/-- The masters of pruned positions are +0 in both buffers (R274). -/
def State.zeroPruned (s : State) : State :=
  s.masters.foldl (fun s (l, m) =>
    let gone := (List.range (s.desc m).count).filter (s.pruned l m)
    if gone.isEmpty then s
    else [0, 1].foldl (fun (s : State) b => s.writeElems (s.liveView (bufOf m b)) (gone.map fun i => (i, Val.zero))) s) s

/-! ## What is emptied -/

/-- A governed pair as PRECISION_POLICY declares it (R157); no step has run since a change (log 36). -/
def freshPair (e : PrecEntry) : GovK := { cls := e.initial, size := e.initSize }

/-- The precision governors at a job's start. -/
def freshGov (l : List PrecEntry) : Gov := { ks := l.foldl (fun m e => put (govKey e.layer e.role) (freshPair e) m) [], latch := true }

/-- The update engines at a job's start: the slots stay (R289). -/
def Upd.begun (u : Upd) : Upd :=
  { newest := u.newest, anyDone := u.anyDone, slots := u.slots, chunks := u.chunks }

/-- The Drover engine at a job's start: formation, lost peers and the count of restarts stay (R327). -/
def Drv.begun (d : Drv) (epoch : Nat) : Drv :=
  { d with epoch := epoch, reorder := [], outHeads := [], votes := [], voteFrom := none, widened := [], ringSeen := [],
           paramFrom := [], filled := [], packets := [], firstFault := none, faultSent := false, restartSeen := false,
           restartOver := false, restartFrom := none, restartAcks := [],
           waitHeads := d.waitHeads.filter fun m => epoch ≤ m.epoch, stalled := d.stalled.filter fun m => epoch ≤ m.epoch }

/-- A block at a job's start. -/
def Block.begun (b : Block) : Block :=
  { b with pos := 0, pos0 := 0, fetched := [], step := 0, stages := [], xfer := none, sealWait := false, firstFire := none, tbase := 0,
           ledgerA := 0, ledgerS := 0, arrLast := [], arrSeal := [], arrNow := [], sealCyc := 0, tally := [], saved := none }

/-- A region at a job's start: its aggregators and work queue empty. -/
def Region.begun (r : Region) : Region := { r with tally := [], inbox := [], work := [], workFold := 0, workLeft := 0 }

/-- A region's pool with every cell free. -/
def Region.freePool (r : Region) : Region := { r with free := [], nextFree := 0, bank := 0, turn := 0, words := [], ctl := [] }

/-- Every queue as loaded: one open, empty tail cell, from the region's free list (R212, R215, R225); messages that wait for cells go with
their requests (log 62), and a stream that closes has nothing left to wait for (R420). -/
def State.emptyQueues (s : State) (step : Nat) : State :=
  let s := { s with hci := { s.hci with streams := s.hci.streams.map fun (e : Nat × Stream) => (e.1, { e.2 with waiting := [] }) } }
  let s := (s.hci.streams.map (·.1)).foldl State.endPressure s
  let s := [0, 1, 2, 3].foldl (fun (s : State) r => s.modRgn r Region.freePool) s
  let s := s.job.queues.foldl (fun s e =>
    let r := qRegion e.1
    let (cells, g) := (s.rgn r).alloc 1
    ((s.setRgn r g).count 8 r 0 cells.length).setQueue e.1 (newQueue e.2 (cells.headD 0) step)) { s with queues := [] }
  (s.hci.streams.map (·.1)).foldl State.streamSettles s

/-! ## The parameter refresh (R289) -/

/-- The elements of copy `k` of a master that the owned part of the master gives, in the live buffer. -/
def State.refreshEls (s : State) (t c k : Nat) : List Nat :=
  let m := s.desc t
  let v := s.liveView (bufOf c s.upd.live)
  (List.range v.count).filter fun n => s.ownsElem m (masterPlace m (s.copyDim m.layer t k) (s.densePlace v n))

/-- What the refresh of some elements of a copy reads and writes, plan entries included. -/
def State.refreshUnit (s : State) (t c k : Nat) (els : List Nat) : XUnit :=
  let m := s.desc t
  let v := s.liveView (bufOf c s.upd.live)
  let u := s.joinUnit (s.joinUnit {} (s.liveView (bufOf t s.upd.live))
    (els.map fun j => masterPlace m (s.copyDim m.layer t k) (s.densePlace v j)) false) v els true
  s.joinPlans u v els true true

/-- The elements of delivery units before the first that is barred, and what bars it (R268). -/
def State.refreshRun (s : State) (ups : Upsets) (t c k : Nat) (whole : List Nat) : List (List Nat) → List Nat × Option Bar
  | [] => ([], none)
  | ns :: r =>
    match s.barOf ups (s.refreshUnit t c k ns) whole with
    | some b => ([], some b)
    | none => let x := s.refreshRun ups t c k whole r; (ns ++ x.1, x.2)

/-- Some elements of a copy converted from the live masters and multicast (R289). -/
def State.refreshPart (s : State) (ups : Upsets) (f : Fold) (layer t c k : Nat) (els : List Nat) : State :=
  let n := s.upd.liveOf
  let m := s.desc t
  let b := bufOf c s.upd.live
  let s := s.useUnit ups (s.refreshUnit t c k els)
  let v := s.liveView b
  let dim := s.copyDim layer t k
  let place (j : Nat) : Nat := masterPlace m dim (s.densePlace v j)
  let val (s : State) (j : Nat) : Val := s.masterVal (bufOf t s.upd.live) m dim v j
  s.convertCopy f layer (fun j => s.chunkOf layer t (place j)) t k c b b n n false els val false

/-- The refresh taken on, copy by copy, until a page of the memory packages is met: it is asked for, and the rest waits (R268, R289). -/
def State.refreshList (s : State) (ups : Upsets) : List (Nat × Nat × Nat × Nat) → State
  | [] => { s with upd := { s.upd with refreshLeft := [] } }
  | (layer, t, k, done) :: rest =>
    match s.boundLayers.find? fun x => x.2.layer == layer && x.2.tensors.contains t, (s.copiesOf layer t)[k]? with
    | some (f, _), some c =>
      let b := bufOf c s.upd.live
      let wait (s : State) (n : Nat) (bar : Bar) : State := match bar with
        | .page p => ({ s with upd := { s.upd with refreshLeft := (layer, t, k, n) :: rest } } : State).requestPage p (s.home layer)
        | bar => ({ s with upd := { s.upd with refreshLeft := [] } } : State).barFault ups 2 (srcRegion (s.home layer)) bar
      match s.settleBar ups b s.upd.liveOf with
      | some bar => wait s done bar
      | none =>
      let s := s.settleNow ups b s.upd.liveOf
      let els := (s.refreshEls t c k).drop done
      let x := s.refreshRun ups t c k (s.unreadBlocks (s.refreshUnit t c k els)) (pieces (unitSize (s.ten b).desc) els)
      let s := if x.1.isEmpty then s else s.refreshPart ups f layer t c k x.1
      match x.2 with
      | none => s.refreshList ups rest
      | some bar => wait s (done + x.1.length) bar
    | _, _ => s.refreshList ups rest

/-- The refresh of a step opens: no working copy is whole for it. -/
def State.refreshOpens (s : State) (n : Nat) : State :=
  let s := { s with upd := { s.upd with refresh := true, liveOf := n } }
  s.masters.foldl (fun s (l, t) => (s.copiesOf l t).foldl (fun s c =>
    [0, 1].foldl (fun s b => s.modTen (bufOf c b) fun x => { x with asOf := 0, fillStep := n, fillCount := 0, fillFrom := [] }) s) s) s

/-- Every owner converts its masters into the working copies of the live buffer at their plans and multicasts them. -/
def State.refreshCopies (s : State) (ups : Upsets) : State :=
  let s := s.refreshList ups (s.masters.flatMap fun (l, t) => (List.range (s.copiesOf l t).length).map fun k => (l, t, k, 0))
  if s.masters.all fun (l, _) => s.layerWhole l s.upd.live s.upd.liveOf then { s with upd := { s.upd with refresh := false } } else s

/-- The sections of a slot taken on; with the last of them in place the refresh runs (R289). A fault on the way leaves both undone. -/
def State.restoreOn (s : State) (ups : Upsets) : State :=
  match s.upd.restoring with
  | none => s
  | some (k, l) =>
    let s := s.restoreList ups k l
    if s.upd.restoring.isSome || s.err.stopIssue then s else (s.restoreEnds k).refreshCopies ups

/-- A restore or a refresh that waited for a page goes on (R268). -/
def State.refreshOn (s : State) (ups : Upsets) : State :=
  if !s.issuing then s else if s.upd.restoring.isSome then s.restoreOn ups else s.refreshList ups s.upd.refreshLeft

/-! ## The job begins -/

/-- Every step gate set to admit the first step (R226). What ingress has brought before JOB_START stays in its queue. -/
def State.gateAll (s : State) (n : Nat) : State :=
  { s with queues := s.queues.map fun (e : Nat × Queue) => (e.1, { e.2 with gate := n }) }

/-- A job begins, from a slot or from the image contents, under an epoch: everything it holds is set, every block stands at its first
step, and the refresh runs. -/
def State.beginJob (s : State) (slot : Option Nat) (epoch : Nat) (ups : Upsets) : State :=
  let s := { s with gov := freshGov s.job.govs, upd := s.upd.begun, drv := s.drv.begun epoch,
                    tensors := s.job.tensors.map fun (e : Nat × TEntry) => (e.1, s.freshTensor e.2) }
  let s := [0, 1, 2, 3].foldl (fun (s : State) r => s.modRgn r Region.begun) s
  let s := s.hosting.foldl (fun (s : State) b => s.modBlk b Block.begun) s
  let s := s.loadContents.zeroPruned.initPlans
  let s := match slot with
    | some k => s.restoreSlot k
    | none => s
  let n := s.gov.step
  let s := s.gateAll n
  let s := { s with glb := { s.glb with resumeStep := n } }
  let s := s.hosting.foldl (fun (s : State) b => s.beginStep b n) s
  let s := s.refreshOpens n
  ((if s.upd.restoring.isSome then s.restoreOn ups else s.refreshCopies ups).retryStalled ups).admitHeads

end Sys2Proof.Machine
end

