-- ==== Sys2Proof/Machine/Link.lean ====
section
/-! DEFINITION. Lincy links (R352-R371): flit blocks and their replay, credits, training, retraining, loss and sleep. -/

namespace Sys2Proof.Machine

/-! ## Ports -/

/-- Whether the optics can be on (R354, R368, R397). -/
def State.opticsOn (s : State) : Bool :=
  s.board.powerGood && s.glb.mstate != .off && s.pwr.state != 3 && !s.glb.bootRom && s.glb.trip.isNone && !s.board.gated

/-- Whether a port trains: the control port from order 5 of a start, a fabric port where `LNK_PORTS` in force names it (R354, R399). -/
def State.portTrains (s : State) (p : Nat) : Bool :=
  s.opticsOn && (if p = 32 then s.glb.mstate != .starting || 5 ≤ s.glb.order else bitAt s.lnkPorts p)

/-- VCs in use on a port, by their fold's weight (R360). -/
def State.vcWeights (s : State) (p : Nat) : List (Nat × Nat) :=
  (s.job.folds.filter fun f => bitAt f.portMask p).flatMap fun f => [(2 * f.fold, f.weight), (2 * f.fold + 1, f.weight)]

/-- Receive credits of a fabric port, in the order of R363 (R360). -/
def State.fabricCredits (s : State) (p : Nat) : List Nat :=
  let ws := s.vcWeights p
  let total := (ws.map (·.2)).sum
  ((List.range 32).flatMap fun vc =>
    let w := (ws.filter fun x => x.1 == vc).map (·.2)
    [16 + (if total = 0 then 0 else 3416 * w.sum / total), 4]) ++ [8, 32]

/-- Receive credits of the control port (R369). -/
def controlCredits : List Nat :=
  (List.range 66).map fun k => if k = 0 then 512 else if k = 1 then 64 else if k % 2 = 0 && 4 ≤ k && k ≤ 34 then 208 else 0

/-- The hello that a port sends (R363). -/
def State.ownHello (s : State) (p : Nat) : Hello :=
  { heard := (s.port p).heard, kind := if p = 32 then 1 else 0, port := p, serial := Config.serial.toNat, job := s.glb.jobId,
    credits := if p = 32 then controlCredits else s.fabricCredits p }

/-- The peer's device number, once the flock is formed and the hello names a member (R296, R372). -/
def State.bindPeer (s : State) (p : Nat) : State :=
  match (s.port p).peerHello with
  | none => s
  | some h =>
    if p = 32 || s.drv.form != 2 then s
    else match s.job.flock.members.find? fun m => m.2 == h.serial with
      | some (d, _) => s.modPort p fun x => { x with peerDev := d, peerValid := true }
      | none => s

/-! ## Loss -/

/-- A handle whose session has closed: it runs on, and its completion is discarded (R412). -/
def Hci.retire (h : Hci) (n : Nat) : Hci :=
  let k := (h.handles.map fun x => x.handle / 2 ^ 32).foldl Nat.max 0 + 1
  { h with handles := h.handles.map fun x => if x.sess = n then { x with sess := 64, handle := x.handle + k * 2 ^ 32 } else x }

/-- The entry of an open input stream changed. -/
def State.setStream (s : State) (k : Nat) (x : Stream) : State := { s with hci := { s.hci with streams := put k x s.hci.streams } }

/-- Commands of closed sessions that wait for a bulk argument end: none can come any more (DEDUCED, log 56). -/
def State.endBulk (s : State) : State :=
  (s.hci.handles.filter fun h => h.sess == 64 && h.opcode == 0x20 && h.arg == 1).foldl (fun s h => s.finish h stAborted) s

/-- A session closes: its role is released, its streams close, its completions will be discarded (R371, R412, R420). -/
def State.dropSession (s : State) (n : Nat) : State :=
  if !(s.sess n).isOpen then s
  else
    let s := { s with hci := s.hci.retire n }
    let s := (s.setSess n {}).endBulk
    let mine := (s.hci.streams.filter fun e => e.2.sess == n && !e.2.closing).map (·.1)
    mine.foldl (fun s k =>
      match find? k s.hci.streams with
      | some x => (s.setStream k { x with sess := 64, closing := true }).streamSettles k
      | none => s) s

/-- The abort-flagged block that ends a message on a lane (R357). -/
def abortFlit (k sess via : Nat) : Flit := { laneFlit k sess with abort := true, eom := true, via := via }

/-- The message that comes in on a lane of a port and goes on ends where it has been sent to (R357, R367). -/
def State.endOnward (s : State) (p k : Nat) : State :=
  match find? k (s.port p).onward with
  | some l => (s.modPort p fun x => { x with onward := drop k x.onward }).spread l (abortFlit k 0 (p + 1))
  | none => s

/-- Blocks that came in by a port and wait to go on: no credit is owed for them any more. -/
def Port.unpaid (x : Port) (p : Nat) : Port := { x with txq := x.txq.map fun (f : Flit) => if f.via = p + 1 then { f with rx := none } else f }

/-- Messages of this port go on by another port no more; the blocks that waited there are dropped where it is this port itself. -/
def Port.noWay (x : Port) (p : Nat) (self : Bool) : Port :=
  { x with onward := x.onward.map fun (e : Nat × List Nat) => (e.1, e.2.filter (· != p)), txq := if self then [] else x.txq }

/-- A port is lost to the messages that go on (R361, R367): those that came in by it end, no credit is owed for their blocks any more, none
goes on by it, and the blocks that waited there leave the buffers of the ports they came in by. -/
def State.forwardingLost (s : State) (p : Nat) : State :=
  let s : State := { s with ports := s.ports.map fun (e : Nat × Port) => (e.1, e.2.unpaid p) }
  let s := ((s.port p).onward.map (·.1)).foldl (fun s k => s.endOnward p k) s
  let l := (s.port p).txq
  let s : State := { s with ports := s.ports.map fun (e : Nat × Port) => (e.1, e.2.noWay p (e.1 == p)) }
  l.foldl State.leave s

/-- Completions that wait to be sent on the control port. -/
def Port.unsentCompl (x : Port) : Nat := (x.txq.filter fun (f : Flit) => f.kind == 1 && f.key == 1 && f.som && leAt f.payload 0 1 == 0x11).length

/-- A link has gone down: what it held is discarded, and the control port's sessions close; completions not yet sent count (R367, R371). -/
def State.linkLost (s : State) (p : Nat) : State :=
  let s := if p = 32 then s.count 18 32 10 (s.port 32).unsentCompl else s
  let s := (s.forwardingLost p).modPort p fun x =>
    { st := 5, inUse := x.inUse, peerDev := x.peerDev, peerValid := x.peerValid, downValid := true, downDetail := x.downDetail,
      signal := x.signal, peerHello := x.peerHello, delivered := x.delivered, sentOn := x.sentOn, rounds := x.rounds }
  if p = 32 then
    let s := { s with hci := { s.hci with streams := s.hci.streams.map fun (e : Nat × Stream) => (e.1, { e.2 with withheld := 0 }) } }
    (s.openSessions.foldl State.dropSession s).settleSends
  else s.settleSends

/-- LINK_DOWN (R365, R366). -/
def State.linkDown (s : State) (p detail : Nat) : State :=
  let s := (s.linkLost p).modPort p fun x => { x with downDetail := detail }
  raise s (faultCode 3 LINK_DOWN detail) (srcPort p) p

/-- A fast retrain starts: buffer, sequence numbers and credits are kept (R359, R365). -/
def State.startRetrain (s : State) (p : Nat) : State :=
  (s.modPort p fun x => { x with st := 3, locked := false, attempts := 1 }).count 18 p 7 1

/-- The link ends by replay exhaustion (R359). On a port in use only the job fault is reported (log 40). -/
def State.linkExhausted (s : State) (p : Nat) : State :=
  if p < 32 && (s.port p).inUse then raise (s.linkLost p) (faultCode 3 CRC_EXHAUST 0x20) (srcPort p) p
  else s.linkDown p 0x06

/-! ## Replay (R358, R359) -/

/-- Blocks freed through an ack; the count of resends restarts when the oldest block goes. -/
def Port.freeThrough (x : Port) (a : Nat) : Port :=
  match x.replay.findIdx? fun f => f.seq == a with
  | some i => { x with replay := x.replay.drop (i + 1), resends := 0, retrained := false }
  | none => x

/-- Every unacked block sent again, the oldest first; when the oldest has been resent three times already the link retrains, and after a
retrain it ends (R358, R359). -/
def State.resend (s : State) (p : Nat) : State :=
  let x := s.port p
  if x.replay.isEmpty then s
  else if 3 ≤ x.resends then (if x.retrained then s.linkExhausted p else s.startRetrain p)
  else
    let l := x.replay.map fun f => { f with ack := x.ack }
    let s := s.setPort p { x with resends := x.resends + 1, replay := l }
    let s := ((s.count 18 p 5 1).count 18 p 6 l.length).count 18 p 0 l.length
    s.sendAll (l.map fun f => .flit p f)

/-- A NAK: an unsequenced idle block whose ack is E − 1 (R358). -/
def State.sendNak (s : State) (p : Nat) : State :=
  let x := s.port p
  let s := (s.setPort p { x with nakPending := true }).count 18 p 0 1
  s.send (.flit p { kind := 2, nak := true, ack := x.ack })

/-- A NAK sent unless one is pending. -/
def State.nakOnce (s : State) (p : Nat) : State := if (s.port p).nakPending then s else s.sendNak p

/-- NAK_RESEND_TIMER: E has not advanced for 20 µs (R358). -/
def execNakResendTimer (port : Nat) (s : State) : Host.Outcome State Fault Refusal :=
  let x := s.port port
  .next (if x.st == 2 && x.nakPending then s.sendNak port else s)

/-- ACK_TIMEOUT: an ack has not advanced for 20 µs while blocks are outstanding (R358). -/
def execAckTimeout (port : Nat) (s : State) : Host.Outcome State Fault Refusal :=
  .next (if (s.port port).st == 2 then s.resend port else s)

/-! ## Receiving blocks (R355-R358, R361) -/

/-- The credits that a block returns. -/
def Port.take (x : Port) (l : List (Nat × Nat × Nat)) : Port :=
  l.foldl (fun x (lane, vc, n) =>
    let k := if lane = 2 then 64 else if lane = 3 then 65 else 2 * vc + lane
    { x with credits := adjust 0 k (· + n) x.credits }) x

/-- The payload of a block joins its message; a whole message waits for the command that hands it on (log 41). -/
def Port.join (x : Port) (f : Flit) : Port :=
  let k := f.key
  let l := (if f.som then [] else look [] k x.asm) ++ f.payload
  if f.eom then { x with asm := drop k x.asm, delivered := x.delivered ++ [(k + 128 * f.sess, l)] } else { x with asm := put k l x.asm }

/-- The input stream of a lane of the control port (R369). -/
def State.laneStream (s : State) (p k : Nat) : Option (Nat × Stream) :=
  if p = 32 then s.hci.streams.find? fun e => streamLane e.1 == k else none

/-- A block is handed on and leaves the buffer: its credit is owed, unless the lane's stream has a message that waits for cells, when
the port withholds it (R361, R420, log 41). -/
def State.owe (s : State) (p k : Nat) : State :=
  match s.laneStream p k with
  | some (j, x) =>
    if x.waiting.isEmpty then s.modPort p fun x => { x with owed := adjust 0 k (· + 1) x.owed }
    else s.setStream j { x with withheld := x.withheld + 1 }
  | none => s.modPort p fun x => { x with owed := adjust 0 k (· + 1) x.owed }

/-- The ports a block of a message goes on by, as the message's first block says (R302, R362). -/
def State.onwardPorts (s : State) (p : Nat) (f : Flit) : Option (List Nat) :=
  if f.som then (s.onwardOf p f.key f.payload).map (·.filter fun q => [2, 3, 4].contains (s.port q).st) else find? f.key (s.port p).onward

/-- A block goes on, by every port that its message goes on by, and its bytes are counted; the first begins what the last one ends
(R302, R313, R362). Where it goes on by no port its credit is owed at once. -/
def State.cutThrough (s : State) (p : Nat) (f : Flit) (l : List Nat) : State :=
  let s := s.modPort p fun x => { x with onward := if f.eom then drop f.key x.onward else put f.key l x.onward }
  let g : Flit := { laneFlit f.key 0 with abort := f.abort, som := f.som, eom := f.eom, payload := f.payload, via := p + 1, rx := some f.seq }
  if l.isEmpty then s.owe p f.key else (s.spread l g).count 16 0 7 (f.payload.length * l.length)

/-- A block of a message accepted: it joins its message, ends it where it is flagged so, and goes on where the message does
(R302, R356, R357). -/
def State.takeData (s : State) (p : Nat) (f : Flit) : State :=
  let s := if f.som then s.endOnward p f.key else s
  let way := s.onwardPorts p f
  let whole := look [] f.key (if f.som then [] else (s.port p).asm) ++ f.payload
  let s := if f.abort then (s.modPort p fun x => { x with asm := drop f.key x.asm }).count 18 p 9 1 else s.modPort p (·.join f)
  match way with
  | none => if f.kind = 1 then s.owe p f.key else s
  | some l =>
    let s := if f.eom && !f.abort then s.modPort p fun x => { x with sentOn := x.sentOn ++ [whole] } else s
    s.cutThrough p { f with eom := f.eom || f.abort } l

/-- A block accepted in order: credits, payload, and the credit its lane is owed (R356-R358, R361). A block of a reserved kind carries
no message (log 42). -/
def State.acceptBlock (s : State) (p : Nat) (f : Flit) : State :=
  let s := (s.modPort p fun x => ({ x with e := (x.e + 1) % 65536, nakPending := false } : Port).take f.credits).count 18 p 1 1
  let s := if f.kind != 1 && f.kind != 3 then s else s.takeData p f
  s.catchUp p

/-! ## Training (R363, R364) -/

/-- The link is up: numbers from 0, credits from the peer's hello, every buffer fresh (R363). -/
def State.linkUp (s : State) (p : Nat) (h : Hello) : State :=
  let s := s.modPort p fun x =>
    { st := 2, inUse := x.inUse, peerDev := x.peerDev, peerValid := x.peerValid, downValid := x.downValid, downDetail := x.downDetail,
      signal := true, locked := true, heard := true, sentHeard := true, peerHello := some h, delivered := x.delivered,
      sentOn := x.sentOn,
      credits := h.credits.zipIdx.map fun (n, k) => (k, n) }
  s.bindPeer p

/-- Both ends hold a heard hello, and the identifiers agree (R363, R364). -/
def State.tryUp (s : State) (p : Nat) : State :=
  let x := s.port p
  match x.peerHello with
  | some h => if x.st == 1 && x.locked && x.heard && h.heard && x.sentHeard && (p == 32 || h.job == s.glb.jobId) then s.linkUp p h else s
  | none => s

/-- A hello taken: the peer is checked, and the link may come up (R363, R364). -/
def State.onHello (s : State) (p : Nat) (h : Hello) : State :=
  let x := s.port p
  if x.st != 1 || !x.locked || !s.portTrains p then s
  else if h.kind != (if p = 32 then 2 else 0) then s.linkDown p 0x04
  else if p != 32 && h.job != s.glb.jobId && h.job != 0 && s.glb.jobId != 0 then s.linkDown p 0x05
  else (s.setPort p { x with heard := true, peerHello := some h }).tryUp p

/-- A hello read from its payload (R363; log 164). -/
def readHello (l : List Byte) : Hello :=
  { heard := leAt l 1 1 != 0, kind := leAt l 2 1, port := leAt l 3 1, serial := leAt l 4 16, job := leAt l 20 8,
    credits := (List.range 66).map fun k => leAt l (28 + 2 * k) 2 }

/-- SIGNAL_DETECT (R363). -/
def execSignalDetect (port : Nat) (s : State) : Host.Outcome State Fault Refusal :=
  let x := s.port port
  .next (if s.opticsOn && (x.st == 1 || x.st == 3) then s.setPort port { x with signal := true } else s)

/-- FEC_LOCK: a training port exchanges hellos from now on; a retraining one is up again, and the count of resends restarts
(R359, R363). -/
def execFecLock (port : Nat) (s : State) : Host.Outcome State Fault Refusal :=
  let x := s.port port
  .next (if !s.opticsOn || !x.signal then s
    else if x.st == 1 then s.setPort port { x with locked := true }
    else if x.st == 3 then
      let l := x.retrained || 3 ≤ x.resends
      (s.setPort port { x with st := 2, locked := true, attempts := 0, retrained := l, resends := 0 }).catchUp port
    else s)

/-- The flit block of a hello: link control, never sequenced (R355, R363). -/
def helloFlit (h : Hello) (ack : Nat) : Flit := { kind := 3, ack := ack, som := true, eom := true, payload := helloBytes h }

/-- HELLO_TIMER: a hello every 1 µs, the heard flag set once the peer's has arrived (R363). -/
def execHelloTimer (port : Nat) (s : State) : Host.Outcome State Fault Refusal :=
  let x := s.port port
  .next (if x.st != 1 || !x.locked || !s.portTrains port then s
    else
      let s := (s.setPort port { x with sentHeard := x.sentHeard || x.heard }).count 18 port 0 1
      let h := s.ownHello port
      -- the block that carries it has number 0 and flag [1] clear (R355)
      ((s.send (.hello port h)).send (.flit port (helloFlit h x.ack))).tryUp port)

/-- HELLO (R364). -/
def execHello (port : Nat) (h : Hello) (s : State) : Host.Outcome State Fault Refusal := .next (s.onHello port h)

/-- The symbols that FEC corrected in a block: a free number of them, on a free lane (R372, R373, log 103). -/
def State.fecWork (s : State) (p : Nat) : State :=
  let (n, s) := takeFree s
  let (lane, s) := takeFree s
  let now := s.board.time
  (s.modPort p fun x => { x with fec := (now, lane % 4, n) :: x.fec.filter fun y => now < y.1 + 1000000 }).count 18 p 3 n

/-- FLIT_BLOCK: 512 bytes arrive (R355-R358). -/
def execFlitBlock (port : Nat) (bytes : List Byte) (fecBad : Bool) (s : State) : Host.Outcome State Fault Refusal :=
  let x := s.port port
  let isUp := x.st == 2 || x.st == 4
  let s' := s.fecWork port
  if !s.opticsOn || !(isUp || (x.st == 1 && x.locked)) then .next s
  else if fecBad || crc32c (bytes.take 508) != leAt bytes 508 4 then
    let s := (s'.count 18 port 2 1).count 18 port 4 (b2n fecBad)
    .next (if isUp then s.nakOnce port else s)
  else
    let f := readFlit bytes
    let s := if f.kind = 3 && !f.seqd && leAt f.payload 0 1 = 1 then s'.onHello port (readHello f.payload) else s'
    if !isUp then .next s
    else
      let s := (s.modPort port (·.freeThrough f.ack))
      let s := if f.nak then s.resend port else s.catchUp port
      -- a NAK may start a retrain, and the block it came in is taken all the same (R358)
      if !f.seqd || !([2, 3, 4].contains (s.port port).st) then .next s.settleSends
      else if f.seq = (s.port port).e then .next (s.acceptBlock port f).settleSends
      else .next (s.nakOnce port).settleSends

/-- LINK_TRAINING_TIMEOUT: a port not up 100 ms after order 1, with the detail of how far it came (R363, R365). -/
def execLinkTrainingTimeout (port : Nat) (s : State) : Host.Outcome State Fault Refusal :=
  let x := s.port port
  .next (if x.st != 1 || !s.portTrains port then s
    else s.linkDown port (if !x.signal then 0x01 else if !x.locked then 0x02 else 0x03))

/-- LINK_RETRY: a dark or down port that may train starts again (R363, R365). -/
def execLinkRetry (port : Nat) (s : State) : Host.Outcome State Fault Refusal :=
  let x := s.port port
  .next (if !s.portTrains port || !(x.st == 0 || x.st == 5) then s
    else s.setPort port { x with st := 1, signal := false, locked := false, heard := false, sentHeard := false })

/-! ## Retraining -/

/-- FAST_RETRAIN: lock is lost on an up link, or the oldest block has been resent three times (R359, R365). -/
def execFastRetrain (port : Nat) (s : State) : Host.Outcome State Fault Refusal :=
  let x := s.port port
  .next (if !s.opticsOn || !(x.st == 2 || x.st == 4) then s
    else if 3 ≤ x.resends && x.retrained then s.linkExhausted port else s.startRetrain port)

/-- LOSS_OF_SIGNAL: an up link retrains; a training one has to detect the signal anew (R365). -/
def execLossOfSignal (port : Nat) (s : State) : Host.Outcome State Fault Refusal :=
  let x := s.port port
  .next (if !s.opticsOn then s
    else if x.st == 2 || x.st == 4 then (s.setPort port { x with signal := false }).startRetrain port
    else if x.st == 1 || x.st == 3 then s.setPort port { x with signal := false, locked := false }
    else s)

/-- RETRAIN_ATTEMPT_TIMEOUT: the third failed attempt takes the link down (R365). -/
def execRetrainAttemptTimeout (port : Nat) (s : State) : Host.Outcome State Fault Refusal :=
  let x := s.port port
  .next (if x.st != 3 then s
    else if 3 ≤ x.attempts then s.linkDown port (if x.signal then 0x02 else 0x01)
    else s.setPort port { x with attempts := x.attempts + 1 })

/-! ## Sleep (R368) -/

/-- LINK_SLEEP: a block of subtype 0x03 arrives on an up link. -/
def execLinkSleep (port : Nat) (s : State) : Host.Outcome State Fault Refusal :=
  let x := s.port port
  .next (if s.opticsOn && x.st == 2 then (s.setPort port { x with st := 4 }).taken port (le 1 0x03) else s)

/-- LINK_WAKE: a block of subtype 0x04 arrives on a sleeping link; what waits is sent. -/
def execLinkWake (port : Nat) (s : State) : Host.Outcome State Fault Refusal :=
  let x := s.port port
  .next (if s.opticsOn && x.st == 4 then ((s.setPort port { x with st := 2 }).taken port (le 1 0x04)).catchUp port else s)

end Sys2Proof.Machine
end

