-- ==== Sys2Proof/Machine/Image.lean ====
section
/-! DEFINITION. The SPK image (R380-R397): its records, what the boot ROM and the firmware verify, and the tables as read. -/

namespace Sys2Proof.Machine

/-! ## Errors -/

/-- A failed check: a fault code and its context (R396, R457). -/
structure LoadErr where
  code : Nat
  ctx : Nat := 0
  deriving DecidableEq, Repr

/-- IMAGE_FORMAT with a detail (R396). -/
def fmtErr (detail : Nat) (ctx : Nat := 0) : LoadErr := { code := faultCode 3 IMAGE_FORMAT detail, ctx := ctx }

/-- IMAGE_FORMAT detail 0x10: a field out of range or inconsistent, with record type and entry index (R396, R457). -/
def badField (type entry : Nat) : LoadErr := fmtErr 0x10 (entry * 65536 + type)

/-- IMAGE_SIG with a detail (R396, R457). -/
def sigErr (detail : Nat) (key : Nat := 0) : LoadErr := { code := faultCode 3 IMAGE_SIG detail, ctx := key }

/-! ## Records -/

/-- A record of an image (R380). -/
structure Rec where
  off : Nat
  type : Nat
  ver : Nat
  len : Nat
  inst : Nat
  crc : Nat
  body : List Byte
  deriving DecidableEq, Repr

/-- The record at an offset. -/
def recordAt (img : List Byte) (off : Nat) : Rec :=
  let n := leAt img (off + 4) 4
  { off := off, type := leAt img off 2, ver := leAt img (off + 2) 2, len := n, inst := leAt img (off + 8) 4, crc := leAt img (off + 12) 4,
    body := slice img (off + 16) n }

def Rec.ends (r : Rec) : Nat := r.off + 16 + r.len
def Rec.crcOk (r : Rec) : Bool := crc32c r.body == r.crc

/-- Whether a record lies inside the image with the one version (R380, R396). -/
def Rec.fits (r : Rec) (size : Nat) : Bool := r.ver == 1 && r.ends ≤ size

/-- Record types (R381). -/
def rtHeader : Nat := 0x0001
def rtSig : Nat := 0x0002
def rtFirmware : Nat := 0x0003
def rtDevice : Nat := 0x0010
def rtPower : Nat := 0x0011
def rtEnergy : Nat := 0x0012
def rtRegion : Nat := 0x0020
def rtStage : Nat := 0x0021
def rtQueue : Nat := 0x0022
def rtTensor : Nat := 0x0023
def rtOwner : Nat := 0x0024
def rtPrecision : Nat := 0x0025
def rtStream : Nat := 0x0026
def rtFlock : Nat := 0x0030
def rtFold : Nat := 0x0031
def rtTrace : Nat := 0x0040
def rtCounter : Nat := 0x0041

/-- The instance of a record that has none. -/
def noInst : Nat := 0xFFFFFFFF

/-- The records of an image, each inside it, of the one version, with a good CRC and zero padding; `fuel` bounds their number. -/
def walkRecords (img : List Byte) (size : Nat) : Nat → Nat → Except LoadErr (List Rec)
  | 0, _ => .ok []
  | n + 1, off =>
    if size ≤ off then .ok []
    else
      let r := recordAt img off
      let next := up64 r.ends
      if !r.fits size then .error (fmtErr 0x04)
      else if !r.crcOk then .error (fmtErr 0x02 off)
      else if next < size && (slice img r.ends (next - r.ends)).any (· != 0) then .error (badField r.type 0)
      else match walkRecords img size n next with
        | .ok l => .ok (r :: l)
        | .error e => .error e

/-- The key of R381's order. -/
def Rec.key (r : Rec) : Nat := r.type * 2 ^ 32 + r.inst

/-- Whether an instance suits its type (R381). -/
def Rec.instOk (r : Rec) : Bool :=
  if r.type = rtRegion || r.type = rtQueue then r.inst < 4 else if r.type = rtStage then r.inst < 256 else r.inst == noInst

/-- Whether the records stand in the order, number and instance of R381. -/
def recordsInOrder (recovery : Bool) (l : List Rec) : Bool :=
  match l, l.getLast? with
  | a :: b :: rest, some z =>
    let mid := rest.dropLast
    let count (t : Nat) := (mid.filter fun r => r.type == t).length
    2 ≤ l.length && a.type == rtHeader && b.type == rtFirmware && z.type == rtSig && l.all Rec.instOk && rising (mid.map Rec.key) &&
    (if recovery then mid.map (·.type) == [rtDevice]
     else
      [rtDevice, rtPower, rtEnergy, rtTensor, rtPrecision, rtFlock, rtFold].all (fun t => count t == 1) &&
      count rtRegion == 4 && count rtQueue == 4 &&
      mid.all fun r => [rtDevice, rtPower, rtEnergy, rtRegion, rtStage, rtQueue, rtTensor, rtOwner, rtPrecision, rtStream, rtFlock, rtFold,
        rtTrace, rtCounter].contains r.type)
  | _, _ => false

/-! ## The boot ROM (R382, R383, R396, R397) -/

/-- The most bytes of an image (R382). -/
def imageLimit (recovery : Bool) : Nat := if recovery then 33554432 else 503316480

/-- Whether every byte of some ranges (offset, length) is 0. -/
def zeroAt (l : List Byte) (rs : List (Nat × Nat)) : Bool := rs.all fun r => (slice l r.1 r.2).all (· == 0)

/-- A 512-bit key or signature at an offset. -/
def big512 (l : List Byte) (o : Nat) : BitVec 512 := BitVec.ofNat 512 (leAt l o 64)

/-- The checks of IMAGE_HEADER's fields (R382, R383). -/
def headerErr (recovery : Bool) (h : List Byte) : Option LoadErr :=
  let stepping := leAt h 0x1C 2
  let bind := leAt h 0x30 16
  if leAt h 0 4 != 0x4B505356 || leAt h 4 2 != 1 then some (fmtErr 0x01)
  else if stepping != 0x4201 && stepping != 0x4202 then some (fmtErr 0x05)
  else if bind != 0 && bind != Config.serial.toNat then some (fmtErr 0x06)
  else if imageLimit recovery < leAt h 0x10 8 then some (fmtErr 0x04)
  else if h.length != 128 || leAt h 6 2 != b2n recovery || (leAt h 8 8 == 0) != recovery ||
      !zeroAt h [(0x1E, 2), (0x28, 8), (0x40, 64)] then some (badField rtHeader 0)
  else none

/-- The checks of FIRMWARE: its fields, then the code digest, then the signature of the root key (R396). -/
def firmwareErr (f : List Byte) : Option LoadErr :=
  let n := leAt f 0x0C 4
  if !zeroAt f [(0x04, 4), (0x10, 8), (0x78, 8)] || n % 64 != 0 || n < 64 || 8388608 < n || f.length != 0x80 + n || n ≤ leAt f 0x08 4 then
    some (badField rtFirmware 0)
  else if (Config.sm3 (f.drop 0x80)).toNat != leAt f 0x18 32 then some (sigErr 0x01)
  else if !Config.sm2Verify Config.rootKey (f.take 0x38) (big512 f 0x38) then some (sigErr 0x02)
  else none

/-- An erased store: nothing there, or all ones. -/
def erased (img : List Byte) : Bool := (img.take 64).all (· == 0xFF)

/-- What the boot ROM finds in an image: the first failure in the order of R396 (log 43), or the firmware version. -/
def bootCheck (recovery : Bool) (img : List Byte) : Except LoadErr Nat :=
  let h := recordAt img 0
  let f := recordAt img (up64 h.ends)
  let size := Nat.min img.length (imageLimit recovery)
  if erased img then .error (fmtErr 0x01)
  else if !h.fits size then .error (fmtErr 0x04)
  else if !h.crcOk then .error (fmtErr 0x02 0)
  else if h.type != rtHeader then .error (fmtErr 0x03)
  else if !f.fits size then .error (fmtErr 0x04)
  else if !f.crcOk then .error (fmtErr 0x02 f.off)
  else if f.type != rtFirmware then .error (fmtErr 0x03)
  else match headerErr recovery h.body with
    | some e => .error e
    | none => match firmwareErr f.body with
      | some e => .error e
      | none => .ok (leAt f.body 0 4)

/-! ## The firmware's verification (R396) -/

/-- An image read whole: its records, job identifier, signer key and digest. -/
structure Image where
  recs : List Rec
  job : Nat
  signer : Nat
  digest : Nat
  deriving DecidableEq, Repr

/-- The image digest: SM3 over every byte before the SIGNATURE record's header. -/
def imageDigest (img : List Byte) (sigOff : Nat) : Nat := (Config.sm3 (img.take sigOff)).toNat

/-- Every record read, then endorsement, image digest and image signature (R396). -/
def verifyImage (recovery : Bool) (img : List Byte) : Except LoadErr Image :=
  let h := (recordAt img 0).body
  let size := leAt h 0x10 8
  if img.length < size then .error (fmtErr 0x04)
  else match walkRecords img size (size / 64 + 1) 0 with
    | .error e => .error e
    | .ok l => match l.getLast? with
      | none => .error (fmtErr 0x03)
      | some z =>
        if !recordsInOrder recovery l || l.length != leAt h 0x18 4 || z.ends != size then .error (fmtErr 0x03)
        else
          let g := z.body
          let key := leAt g 0 4
          let d := imageDigest img z.off
          if g.length != 256 || !zeroAt g [(4, 4), (0xE8, 24)] then .error (badField rtSig 0)
          else if !Config.sm2Verify Config.rootKey (g.take 0x48) (big512 g 0x48) then .error (sigErr 0x03 key)
          else if leAt g 0x88 32 != d then .error (sigErr 0x04 key)
          else if !Config.sm2Verify (big512 g 0x08) (slice g 0x88 32) (big512 g 0xA8) then .error (sigErr 0x05 key)
          else .ok { recs := l, job := leAt h 8 8, signer := key, digest := d }

/-! ## The tables as read (R382-R394) -/

/-- The body of a record, empty where the image has none. -/
def Image.body (i : Image) (type : Nat) (inst : Nat := noInst) : List Byte :=
  ((i.recs.find? fun r => r.type == type && r.inst == inst).map (·.body)).getD []

def Image.has (i : Image) (type : Nat) : Bool := i.recs.any fun r => r.type == type

/-- `n` values of `w` bytes from an offset. -/
def arr (l : List Byte) (o w n : Nat) : List Nat := (List.range n).map fun k => leAt l (o + w * k) w

/-- Ports of a tree: 8 bytes, 0xFF where unused. -/
def treeAt (l : List Byte) (o : Nat) : List Nat := (arr l o 1 8).filter (· != 0xFF)

/-- A REGION_MAP block entry (R384). -/
def readRBlock (b : List Byte) (i : Nat) : RBlock :=
  let o := 16 + 32 * i
  let seqOff := 16 + 64 * 32 + leAt b (o + 12) 4
  { spare := leAt b o 2, hosted := leAt b (o + 2) 1, h0 := leAt b (o + 4) 4, half := leAt b (o + 8) 4,
    seq := arr b seqOff 2 (leAt b (o + 16) 2) }

/-- The home-region table of R155 in a REGION_MAP. -/
def readHomes (b : List Byte) : List Nat :=
  let o := 16 + 64 * 32 + leAt b 4 4
  (List.range (leAt b 0 4)).map fun l => leAt b (o + l / 4) 1 / 4 ^ (l % 4) % 4

/-- An operand reference (R123). -/
def readOp (w : Nat) : OpRef := { kind := w / 2 ^ 28 % 16, value := w % 2 ^ 28 }

/-- An instruction word (R122). -/
def readIWord (l : List Byte) (o : Nat) : IWord :=
  let lo := leAt l o 4
  { op := field lo 7 0, var := field lo 15 8, acc := bitAt lo 31, spec := bitAt lo 30, scl := bitAt lo 29, watch := bitAt lo 28,
    srcA := readOp (leAt l (o + 4) 4), srcB := readOp (leAt l (o + 8) 4), srcC := readOp (leAt l (o + 12) 4),
    dst := readOp (leAt l (o + 16) 4), imm := leAt l (o + 24) 8, rsv := leAt l (o + 20) 4 * 4096 + field lo 27 16 }

/-- The stages of a STAGE_PROGRAM (R385). -/
def readStages (b : List Byte) : List Stage :=
  let n := leAt b 0 2
  let base := ceilDiv (16 + 16 * n) 32 * 32
  (List.range n).map fun k =>
    let o := 16 + 16 * k
    { idx := leAt b o 1, backward := leAt b (o + 1) 1 == 1, layer := leAt b (o + 2) 2, repeats := leAt b (o + 4) 2, fold := leAt b (o + 6) 1,
      stream := leAt b (o + 8) 2,
      prog := (List.range (leAt b (o + 10) 2)).map fun j => readIWord b (base + 32 * (leAt b (o + 12) 2 + j)) }

/-- An endpoint word (R386); none where it is not one the table allows. -/
def readEndpoint (w : Nat) : Option Endpoint :=
  match w / 2 ^ 28 with
  | 1 => if w % 2 ^ 28 / 65536 = 0 && w / 16 % 16 = 0 then some (.stage (w / 256 % 256) (w % 16)) else none
  | 2 => if w % 2 ^ 28 = 0 then some .ingress else none
  | 3 => if w % 2 ^ 28 = 0 then some .egress else none
  | 4 => if w % 2 ^ 28 < 4 then some (.drover (w % 4)) else none
  | _ => none

/-- A QUEUE_TABLE entry (R386). -/
def readQEntry (b : List Byte) (k : Nat) : QEntry :=
  let o := 16 + 128 * k
  let f := leAt b (o + 5) 1
  { qid := leAt b o 4, toExp := leAt b (o + 4) 1, outst := field f 7 5, paced := bitAt f 4, cpp := bitAt f 3, mode := field f 2 2,
    cls := field f 1 0, item := leAt b (o + 6) 1, reserve := leAt b (o + 8) 4, credit := leAt b (o + 12) 4,
    consumer := readEndpoint (leAt b (o + 16) 4), producers := (arr b (o + 0x40) 4 (Nat.min 16 (leAt b (o + 7) 1))).map readEndpoint,
    len := leAt b (o + 20) 4, period := leAt b (o + 24) 4, slack := leAt b (o + 28) 4, stream := leAt b (o + 32) 1 }

/-- A tensor descriptor (R243); `rsv` collects its reserved bits. -/
def readDesc (l : List Byte) (o : Nat) : Desc :=
  let w := leAt l o 128
  let f (hi lo : Nat) := field w hi lo
  { base := f 47 0, fmtw := f 63 48, sbase := f 111 64, layer := f 127 112, pbase := f 175 128, b0 := bitAt w 183, sparse := f 185 184,
    tier := f 187 186, clr := bitAt w 188, role := f 191 189, mta := f 211 192, stgoff := f 247 224, block := f 255 248, owner := f 319 300,
    ext := [f 351 320, f 383 352, f 415 384, f 447 416, f 479 448, f 511 480],
    str := [0, f 575 528, f 623 576, f 671 624, f 719 672, f 767 720], abase := f 815 768, alen := f 879 832, master := f 899 880,
    rsv := f 182 176 + f 223 212 + f 299 256 + f 527 512 + f 831 816 + f 1023 900 }

/-- A TENSOR_TABLE entry with its index (R387). -/
def readTEntry (b : List Byte) (k : Nat) : Nat × TEntry :=
  let o := 16 + 160 * k
  let fl := leAt b (o + 4) 2
  (leAt b o 4, { desc := readDesc b (o + 0x20), pairHead := bitAt fl 0, pairTail := bitAt fl 1,
                 contents := if bitAt fl 2 then some (slice b (leAt b (o + 8) 8) (leAt b (o + 16) 8)) else none })

/-- The owner tables (R388). -/
def readOwners (b : List Byte) : Map (List Nat) :=
  (List.range (leAt b 0 4)).foldl (fun m k =>
    let o := 16 + 16 * k
    put (leAt b o 4) (arr b (leAt b (o + 8) 8) 2 (leAt b (o + 4) 4)) m) []

/-- A STREAM_TABLE entry (R389). -/
def readStreamE (b : List Byte) (k : Nat) : StreamE :=
  let o := 16 + 16 * k
  { key := leAt b o 8, perDevice := bitAt (leAt b (o + 8) 2) 0, replays := leAt b (o + 10) 2 }

/-- The job-wide governor parameters (R156, R390). -/
def readPrec (b : List Byte) : PrecParams :=
  let p (k : Nat) := leAt b (4 * k) 4
  { window := p 0, satWiden := p 1, colWiden := p 2, satNarrow := p 3, colNarrow := p 4, calmSteps := p 5, lreplayRate := p 6, lreplayMax := p 7,
    sreplayRate := p 8, nanReplay := p 9, sreplayMax := p 10, arrayBudget := p 11, sramBudget := p 12, pendingLimit := p 13,
    exhaustAction := p 14, rzSplit := p 15, rzMerge := p 16, lostUp := p 17, lostDown := p 18, lambdaMax := p 19 }

/-- A PRECISION_POLICY entry (R390). -/
def readPrecEntry (b : List Byte) (k : Nat) : PrecEntry :=
  let o := 0x60 + 16 * k
  let c := leAt b (o + 10) 1
  let fl := leAt b (o + 3) 1
  { layer := leAt b o 2, role := leAt b (o + 2) 1, privileged := bitAt fl 0, stochastic := bitAt fl 1, fmt4 := leAt b (o + 4) 2,
    fmt8 := leAt b (o + 6) 2, fmt16 := leAt b (o + 8) 2, initial := field c 5 4, highest := field c 3 2, lowest := field c 1 0,
    sizes := leAt b (o + 11) 1, initSize := leAt b (o + 12) 1, initSc := leAt b (o + 13) 1 }

/-- Schedules from an offset, and the offset behind them (R391). -/
def readSchedules (b : List Byte) : Nat → Nat → List (List (Nat × Nat)) × Nat
  | 0, o => ([], o)
  | n + 1, o =>
    let c := leAt b o 1
    let one := (List.range c).map fun k => (leAt b (o + 16 + 16 * k) 8, leAt b (o + 24 + 16 * k) 4)
    let (l, e) := readSchedules b n (o + 16 + 16 * c)
    (one :: l, e)

/-- An update profile (R391). -/
def readProfile (b : List Byte) (o : Nat) : Profile :=
  let fl := leAt b (o + 4) 4
  let p (k : Nat) := leAt b (o + 8 + 4 * k) 4
  { layer := leAt b o 2, opt := leAt b (o + 2) 1, sched := leAt b (o + 3) 1, nesterov := bitAt fl 0, biasCorr := bitAt fl 1, lrMult := p 0,
    wd := p 1, gscale := p 2, gclip := p 3, mu := p 4, beta1 := p 5, beta2 := p 6, eps := p 7, tmax := p 8 }

/-- Where FLOCK_POLICY's schedules start. -/
def flockSchedOff (b : List Byte) : Nat := 64 + 32 * leAt b 0x0E 2 + 4 * leAt b 0x10 2

/-- FLOCK_POLICY (R391). -/
def readFlock (b : List Byte) : Flock :=
  let m := leAt b 0x0E 2
  let (sch, e) := readSchedules b (leAt b 0x12 2) (flockSchedOff b)
  { role := leAt b 0 1, headsOut := leAt b 1 1, device := leAt b 2 2, flocks := leAt b 4 2, bucketMib := leAt b 6 1, restartMax := leAt b 7 1,
    bucketTo := leAt b 8 2, gradFmt := leAt b 10 2, gradStream := leAt b 12 2,
    members := (List.range m).map fun k => (leAt b (64 + 32 * k) 2, leAt b (80 + 32 * k) 16),
    routes := (List.range (leAt b 0x10 2)).map fun k => (leAt b (64 + 32 * m + 4 * k) 2, leAt b (66 + 32 * m + 4 * k) 1),
    schedules := sch, profiles := (List.range (leAt b 0x14 4)).map fun k => readProfile b (e + 64 * k), ctrlTree := treeAt b 0x18 }

/-- A fold with its arrays (R392). -/
def readFold (b : List Byte) (k : Nat) : Fold :=
  let o := 16 + 32 * k
  let a := leAt b (o + 20) 4
  let n := leAt b (o + 2) 2
  { fold := leAt b o 1, weight := leAt b (o + 1) 1, portMask := leAt b (o + 4) 4, tree := treeAt b (o + 8), members := arr b a 2 n,
    layers := (List.range (leAt b (o + 16) 4)).map fun j =>
      let e := a + 2 * n + 16 * j
      { layer := leAt b e 2, governing := leAt b (e + 4) 4, tensors := arr b (leAt b (e + 8) 4) 4 (leAt b (e + 2) 2) } }

/-- A TRACE_POLICY body (R394). -/
def readTrace (b : List Byte) : TraceBody :=
  { regions := leAt b 0 4, mask := leAt b 4 4, depth := leAt b 8 4, kind := leAt b 12 4, arg := leAt b 16 8, flags := leAt b 24 1 }

/-- Bytes of a run replaced from an offset. -/
def patch (l : List Byte) (o : Nat) (new : List Byte) : List Byte := l.take o ++ new ++ l.drop (o + new.length)

/-- The agreement digest (R296, R393). -/
def Image.agreement (i : Image) : Nat :=
  let f := i.body rtFlock
  let fixed := patch (patch (patch (f.take 64) 0 [0]) 2 (le 2 0)) 0x0E (le 4 0)
  let flock := patch fixed 0x18 (le 8 0) ++ f.drop (flockSchedOff f)
  let t := i.body rtFold
  let folds := (List.range (leAt t 0 1)).foldl (fun t k => patch t (16 + 32 * k + 8) (List.replicate 8 0xFF)) t
  (Config.sm3 (flock ++ folds ++ i.body rtOwner ++ i.body rtTensor)).toNat

/-- DEVICE_POLICY into the job (R382). -/
def Job.device (j : Job) (b : List Byte) : Job :=
  { j with lnkPorts := leAt b 0 4, migLow := leAt b 4 4, migHigh := leAt b 8 4, migConc := leAt b 12 1, linkWait := leAt b 14 2,
           snapFrames := leAt b 16 4, memWeights := leAt b 20 4, portWeights := leAt b 24 16, opWeight := leAt b 40 1,
           obsWeight := leAt b 41 1 }

/-- The job of a verified image (R380-R394). -/
def Image.read (i : Image) : Job :=
  let regions := [0, 1, 2, 3]
  let pw := i.body rtPower
  let en := i.body rtEnergy
  let ten := i.body rtTensor
  let st := i.body rtStream
  let pr := i.body rtPrecision
  let fo := i.body rtFold
  let ct := i.body rtCounter
  let j : Job :=
    { retain := leAt pw 0 1 == 1, mhz := leAt pw 2 2, saved := arr pw 16 4 (leAt pw 4 4), rangeSteps := leAt en 0 4,
      energyFlags := leAt en 4 1,
      rblocks := regions.flatMap fun r => (List.range 64).map fun k => (64 * r + k, readRBlock (i.body rtRegion r) k),
      homes := readHomes (i.body rtRegion 0),
      stages := (i.recs.filter fun r => r.type == rtStage).map fun r => (r.inst, readStages r.body),
      queues := regions.foldl (fun m r =>
        let b := i.body rtQueue r
        (List.range (leAt b 0 4)).foldl (fun (m : Map QEntry) k => let e := readQEntry b k; put e.qid e m) m) [],
      tensors := (List.range (leAt ten 0 4)).map (readTEntry ten), owners := readOwners (i.body rtOwner),
      streams := (List.range (leAt st 0 4)).map (readStreamE st), prec := readPrec pr,
      govs := (List.range (leAt pr 0x50 4)).map (readPrecEntry pr), flock := readFlock (i.body rtFlock),
      folds := (List.range (leAt fo 0 1)).map (readFold fo),
      trace := if i.has rtTrace then some (readTrace (i.body rtTrace)) else none,
      ctrMask := if i.has rtCounter then leAt ct 0 4 else 0xFFFFFFFF, ctrMs := leAt ct 4 4, agree := i.agreement }
  j.device (i.body rtDevice)

/-- The layout digest of R287: the TENSOR_TABLE entries of every tensor a snapshot touches, both of a pair, and the OWNER_TABLE. -/
def State.layoutDigest (s : State) (i : Image) : Nat :=
  let ten := i.body rtTensor
  let hs := s.snapHeads
  let es := (List.range (leAt ten 0 4)).filter fun k => let t := leAt ten (16 + 160 * k) 4; hs.contains t || (hs.map (· + 1)).contains t
  (Config.sm3 (es.flatMap (fun k => slice ten (16 + 160 * k) 160) ++ i.body rtOwner)).toNat

end Sys2Proof.Machine
end

