-- ==== Sys2Proof/Machine/Flags.lean ====
section
/-! DEFINITION. The management registers: the map of R499, and the word that each register shows, composed from the state's status
bits and counts (R179, R241, R290, R329, R350, R372, R406, R425, R452, R453, R473, R474, R498, R510, R511). -/

namespace Sys2Proof.Machine

/-! ## The map -/

/-- Windows (R499). -/
inductive Win where
  | glb | hci | pwr | eng | err | age | trc | mem | lnk | drv | rgn | blk
  deriving DecidableEq, Repr

/-- Every register of the map. -/
inductive RegId where
  | glbSerial (n : Nat) | glbStart | glbSigner | glbJobLo | glbJobHi | glbId | glbFw | glbState | glbTimeLo | glbTimeHi | glbSb | glbCdcSel
  | glbCdc
  | hciSel | hciSession | hciSeq | hciBad | hciAborts
  | pwrState | pwrCtl | pwrWakeLo | pwrWakeHi | pwrRefuse (n : Nat)
  | engAccLo (d : Nat) | engAccHi (d : Nat) | engHeadLo | engHeadHi | engOldestLo | engOldestHi | engGaps | engBacklog | engHandleDrop
  | engFlkCtl | engFlkStage (n : Nat)
  | errFirst | errFirstSrc | errTimeLo | errTimeHi | errCtxLo | errCtxHi | errLogPtr | errLogOvf | errAlert | errAlertEn | errLog (n : Nat)
  | ageCtl | ageSummary | ageLastLo | ageLastHi | ageMargin (g : Nat)
  | trcStatus | trcCtl | trcTrigLo | trcTrigHi | trcDrop (r : Nat) | trcCount (r : Nat) | trcStop | trcStopLo | trcStopHi | trcRound
  | memCrcLast | memCrcAddr | memFreeHbm | memFreeLp | memTemp (n : Nat)
  | lnkPorts | lnkSessions | lnkState (p : Nat) | lnkDown (p : Nat) | lnkFec (p : Nat) | lnkReplay (p : Nat)
  | drvRole | drvForm | drvEpoch | drvOffsetLo | drvOffsetHi | drvOffsetErr | drvFoldSel | drvFoldTbl | drvLost | drvRestarts
  | rgnStatus (r : Nat) | rgnMeshResend (r : Nat) | rgnSticky (r : Nat)
  | tlyBudget (r : Nat) | tlyLedger (r : Nat) | tlyPending (r : Nat) | tlyBaseline (r : Nat) | tlyStepBase (r : Nat) | tlyLreplay (r : Nat)
  | tlyVerdicts (r : Nat) | tlyWidth (r : Nat)
  | quePoolFree (r : Nat) | queResvOut (r : Nat) | queToCnt (r : Nat) | queToLast (r : Nat) | queBroken (r : Nat) | queDeadline (r : Nat)
  | queWdog (r : Nat) | queDescSel (r : Nat) | queDesc (r n : Nat)
  | updLive (r : Nat) | updCount (r : Nat) | updQueue (r : Nat) | updSnap (r : Nat) | updSnapStep (r : Nat)
  | blkRepair (g : Nat) | blkBadCol (g : Nat) | blkBadRow (g : Nat) | blkClock (g : Nat) | blkDroop (g : Nat) | blkStages (g : Nat)
  | blkSticky (g : Nat) | blkCdc (g : Nat)
  deriving DecidableEq, Repr

/-- The window of an offset (R499). -/
def winOf (a : Nat) : Option Win :=
  match a / 0x1000 with
  | 0x0 => some .glb | 0x1 => some .hci | 0x2 => some .pwr | 0x3 => some .eng | 0x4 => some .err | 0x5 => some .age
  | 0x6 => some .trc | 0x7 => some .trc | 0x8 => some .mem | 0x9 => some .mem | 0xA => some .lnk | 0xB => some .lnk
  | k => if k < 0x10 then some .drv else if k < 0x20 then some .rgn else if k < 0x30 then some .blk else none

/-- Registers of the GLB window (R406, R511). -/
def glbAt : Nat → Option RegId
  | 0x00 => some (.glbSerial 0) | 0x04 => some (.glbSerial 1) | 0x08 => some (.glbSerial 2) | 0x0C => some (.glbSerial 3)
  | 0x10 => some .glbStart | 0x14 => some .glbSigner | 0x18 => some .glbJobLo | 0x1C => some .glbJobHi | 0x20 => some .glbId
  | 0x24 => some .glbFw | 0x28 => some .glbState | 0x2C => some .glbTimeLo | 0x30 => some .glbTimeHi | 0x34 => some .glbSb
  | 0x40 => some .glbCdcSel | 0x44 => some .glbCdc | _ => none

/-- Registers of the HCI window (R425). -/
def hciAt : Nat → Option RegId
  | 0x00 => some .hciSel | 0x04 => some .hciSession | 0x08 => some .hciSeq | 0x0C => some .hciBad | 0x10 => some .hciAborts | _ => none

/-- Registers of the PWR window (R452). -/
def pwrAt (o : Nat) : Option RegId :=
  if o = 0 then some .pwrState else if o = 4 then some .pwrCtl else if o = 8 then some .pwrWakeLo else if o = 12 then some .pwrWakeHi
  else if 0x10 ≤ o && o ≤ 0x28 then some (.pwrRefuse ((o - 0x10) / 4 + 1)) else none

/-- Registers of the ENG window (R453). -/
def engAt (o : Nat) : Option RegId :=
  if o < 0x30 then some (if o / 4 % 2 = 0 then .engAccLo (o / 8) else .engAccHi (o / 8))
  else if 0x60 ≤ o && o < 0x90 then some (.engFlkStage ((o - 0x60) / 4))
  else match o with
    | 0x30 => some .engHeadLo | 0x34 => some .engHeadHi | 0x38 => some .engOldestLo | 0x3C => some .engOldestHi | 0x40 => some .engGaps
    | 0x44 => some .engBacklog | 0x48 => some .engHandleDrop | 0x50 => some .engFlkCtl | _ => none

/-- Registers of the ERR window (R473). -/
def errAt (o : Nat) : Option RegId :=
  if 0x40 ≤ o && o < 0x60 then some (.errLog ((o - 0x40) / 4))
  else match o with
    | 0x00 => some .errFirst | 0x04 => some .errFirstSrc | 0x08 => some .errTimeLo | 0x0C => some .errTimeHi | 0x10 => some .errCtxLo
    | 0x14 => some .errCtxHi | 0x18 => some .errLogPtr | 0x1C => some .errLogOvf | 0x20 => some .errAlert | 0x24 => some .errAlertEn
    | _ => none

/-- Registers of the AGE window (R474). -/
def ageAt (o : Nat) : Option RegId :=
  if 0x100 ≤ o && o < 0x500 then some (.ageMargin ((o - 0x100) / 4))
  else match o with
    | 0x0 => some .ageCtl | 0x4 => some .ageSummary | 0x8 => some .ageLastLo | 0xC => some .ageLastHi | _ => none

/-- Registers of the TRC window (R498). -/
def trcAt (o : Nat) : Option RegId :=
  if 0x10 ≤ o && o < 0x20 then some (.trcDrop ((o - 0x10) / 4))
  else if 0x20 ≤ o && o < 0x30 then some (.trcCount ((o - 0x20) / 4))
  else match o with
    | 0x00 => some .trcStatus | 0x04 => some .trcCtl | 0x08 => some .trcTrigLo | 0x0C => some .trcTrigHi | 0x30 => some .trcStop
    | 0x34 => some .trcStopLo | 0x38 => some .trcStopHi | 0x3C => some .trcRound | _ => none

/-- Registers of the MEM window (R350). -/
def memAt (o : Nat) : Option RegId :=
  if 0x100 ≤ o && o < 0x160 then some (.memTemp ((o - 0x100) / 4))
  else match o with
    | 0x0 => some .memCrcLast | 0x4 => some .memCrcAddr | 0x8 => some .memFreeHbm | 0xC => some .memFreeLp | _ => none

/-- Registers of the LNK window (R372). -/
def lnkAt (o : Nat) : Option RegId :=
  if o = 0 then some .lnkPorts else if o = 4 then some .lnkSessions
  else if 0x100 ≤ o && o < 0x520 then
    let p := (o - 0x100) / 0x20
    match (o - 0x100) % 0x20 with
    | 0x0 => some (.lnkState p) | 0x4 => some (.lnkDown p) | 0x8 => some (.lnkFec p) | 0xC => some (.lnkReplay p) | _ => none
  else none

/-- Registers of the DRV window (R329). -/
def drvAt : Nat → Option RegId
  | 0x00 => some .drvRole | 0x04 => some .drvForm | 0x08 => some .drvEpoch | 0x0C => some .drvOffsetLo | 0x10 => some .drvOffsetHi
  | 0x14 => some .drvOffsetErr | 0x18 => some .drvFoldSel | 0x1C => some .drvFoldTbl | 0x20 => some .drvLost | 0x24 => some .drvRestarts
  | _ => none

/-- Registers of a region window (R179, R241, R290, R510). -/
def rgnAt (r o : Nat) : Option RegId :=
  if 0xD40 ≤ o && o < 0xD60 then some (.queDesc r ((o - 0xD40) / 4))
  else match o with
    | 0x0 => some (.rgnStatus r) | 0x4 => some (.rgnMeshResend r) | 0x8 => some (.rgnSticky r)
    | 0xC00 => some (.tlyBudget r) | 0xC04 => some (.tlyLedger r) | 0xC08 => some (.tlyPending r) | 0xC0C => some (.tlyBaseline r)
    | 0xC10 => some (.tlyStepBase r) | 0xC14 => some (.tlyLreplay r) | 0xC18 => some (.tlyVerdicts r) | 0xC1C => some (.tlyWidth r)
    | 0xD00 => some (.quePoolFree r) | 0xD04 => some (.queResvOut r) | 0xD08 => some (.queToCnt r) | 0xD0C => some (.queToLast r)
    | 0xD10 => some (.queBroken r) | 0xD14 => some (.queDeadline r) | 0xD18 => some (.queWdog r) | 0xD20 => some (.queDescSel r)
    | 0xE00 => some (.updLive r) | 0xE04 => some (.updCount r) | 0xE08 => some (.updQueue r) | 0xE0C => some (.updSnap r)
    | 0xE10 => some (.updSnapStep r) | _ => none

/-- Registers of a block window (R510). -/
def blkAt (g : Nat) : Nat → Option RegId
  | 0x00 => some (.blkRepair g) | 0x04 => some (.blkBadCol g) | 0x08 => some (.blkBadRow g) | 0x0C => some (.blkClock g)
  | 0x10 => some (.blkDroop g) | 0x14 => some (.blkStages g) | 0x18 => some (.blkSticky g) | 0x1C => some (.blkCdc g) | _ => none

/-- The register at an offset; none where it is unmapped (R499, R509). -/
def regAt (a : Nat) : Option RegId :=
  if a % 4 != 0 then none
  else match winOf a with
    | none => none
    | some .glb => glbAt a
    | some .hci => hciAt (a - 0x1000)
    | some .pwr => pwrAt (a - 0x2000)
    | some .eng => engAt (a - 0x3000)
    | some .err => errAt (a - 0x4000)
    | some .age => ageAt (a - 0x5000)
    | some .trc => trcAt (a - 0x6000)
    | some .mem => memAt (a - 0x8000)
    | some .lnk => lnkAt (a - 0xA000)
    | some .drv => drvAt (a - 0xC000)
    | some .rgn => rgnAt ((a - 0x10000) / 0x4000) ((a - 0x10000) % 0x4000)
    | some .blk => blkAt ((a - 0x20000) / 0x100) ((a - 0x20000) % 0x100)

/-- Whether an offset is mapped (R499). -/
def regMapped (a : Nat) : Bool := (regAt a).isSome

/-- Whether a window answers: while its domain is powered, which after a thermal trip only the heartwood's is (R427, R459, R500). -/
def State.winAnswers (s : State) (w : Win) : Bool :=
  let heart := w == .glb || w == .pwr || w == .eng || w == .err
  if !s.board.powerGood then false
  else if s.glb.bootRom then w == .glb || w == .err
  else if s.glb.mstate = .off || s.pwr.state != 0 || (s.glb.mstate = .faulted && s.glb.trip.isSome) then heart
  else if s.glb.mstate = .starting && s.glb.order < 4 then heart
  else true

/-- A bad access of the sideband path counted (R501, R511). -/
def State.badAccess (s : State) : State := { s with sb := { s.sb with badAccess := satAdd 4095 s.sb.badAccess 1 } }

/-- Registers that may be written during STARTING (R500). -/
def RegId.startingMay : RegId → Bool
  | .errLogPtr | .errAlert | .errAlertEn | .glbCdcSel => true
  | _ => false

/-- A write that the table names as an event of its own. During STARTING only the sideband path writes, and most registers ignore
it: the access counts as bad (R418, R500). -/
def State.rowWrite (s : State) (r : RegId) (act : State → State) : State :=
  if s.glb.mstate == .starting && !r.startingMay then s.badAccess else act s

/-! ## Words -/

/-- The low and the high word of a 64-bit value. -/
def lo32 (v : Nat) : Nat := v % 2 ^ 32
def hi32 (v : Nat) : Nat := v / 2 ^ 32 % 2 ^ 32

/-- A count shown in a field of `w` bits, saturating. -/
def sat (w n : Nat) : Nat := Min.min n (2 ^ w - 1)

/-- The overrun lines of a source under the kind of R454 (R512): 8 × kind to 8 × kind + 7. -/
def State.cdcOf (s : State) (src i : Nat) : CdcLine := look {} (src * 8 + i) s.cdc.lines

/-- Whether a source is powered: GLB_CDC shows 0 for one that is not (R426, R459, R513). -/
def State.srcPowered (s : State) (src : Nat) : Bool :=
  let on := s.glb.mstate != .off
  match src / 4096 with
  | 6 => true
  | 0 => s.pwr.state ≤ 2 && on
  | 5 => s.pwr.state ≤ 2 && on && !s.glb.bootRom && s.glb.trip.isNone
  | _ => s.pwr.state ≤ 1 && on && !s.glb.bootRom && s.glb.trip.isNone

/-- Only the event lines of sources of some kinds keep their flags and losses: the others were off (R44, R513). -/
def State.keepLines (s : State) (kinds : List Nat) : State :=
  { s with cdc := { s.cdc with lines := s.cdc.lines.filter fun e => kinds.contains (e.1 / 8 / 4096) } }

/-! ## Data crossings (R40, R43-R45) -/

/-- The data crossing of a source's island; one that is reset has both READY low, its pointers at 0 and no credit. -/
def State.xing (s : State) (src : Nat) : Crossing := look {} src s.cdc.xings

/-- Islands of a kind of source: blocks, regions, Drover slices, memory controllers, ports (R454). -/
def islandCount (kind : Nat) : Nat := match kind with | 1 => 256 | 2 => 4 | 3 => 4 | 4 => 24 | 5 => 33 | _ => 0

/-- LNK_FEC: the lane with the most corrected symbols in the last 1 ms, the lowest of several, and how many (R372). -/
def Port.fecWord (x : Port) (now : Nat) : Nat :=
  let on (k : Nat) : Nat := ((x.fec.filter fun y => y.2.1 == k && now < y.1 + 1000000).map (·.2.2)).sum
  let k := [1, 2, 3].foldl (fun b k => if on b < on k then k else b) 0
  k * 65536 + sat 16 (on k)

/-- The sources of some kinds, ascending. -/
def islandSources (kinds : List Nat) : List Nat := kinds.flatMap fun k => (List.range (islandCount k)).map (k * 4096 + ·)

/-- The region whose CDC_DISCARD gathers a source's crossing; the control port's counts in region 0, whose trace buffer it writes too (log
136). -/
def crossRegion (src : Nat) : Nat :=
  let i := src % 4096
  match src / 4096 with
  | 1 => i / 64
  | 4 => if i < 16 then i / 4 else (i - 16) / 2
  | 5 => if i < 32 then i / 8 else 0
  | _ => i

/-- Entries that a crossing holds unread when a side resets: none once the island has drained (R43); else at most its credits, how many the
manual does not say (log 136). -/
def State.unread (s : State) (drained : Bool) (src : Nat) : Nat :=
  let x := s.xing src
  if drained || !x.readyA || !x.readyB then 0 else x.wr - x.rd + Config.free s.fresh src % (x.credits + 1)

/-- A side of the crossings of some sources resets: unread entries are discarded and counted, by crossing and by region, both READY fall, pointers and credits are zero
(R44, R45). -/
def State.crossDown (s : State) (drained : Bool) (srcs : List Nat) : State :=
  let lost (r : Nat) : Nat := ((srcs.filter fun k => crossRegion k == r).map (s.unread drained)).sum
  let each := srcs.foldl (fun (m : Map Nat) k => if s.unread drained k = 0 then m else adjust 0 k (satAdd max48 · (s.unread drained k)) m) s.cdc.discards
  let s' := { s with cdc := { s.cdc with xings := s.cdc.xings.filter fun e => !srcs.contains e.1, discards := each } }
  let s' := (((s'.count 11 0 0 (lost 0)).count 11 1 0 (lost 1)).count 11 2 0 (lost 2)).count 11 3 0 (lost 3)
  { s' with fresh := s'.fresh + 1 }

/-- The crossings of some sources, the first by their codes, resynchronised: both READY high, traffic from pointer 0, the initial credits
issued (R44). -/
def State.crossUp (s : State) (srcs : List Nat) : State :=
  let up := srcs.map fun k => (k, ({ readyA := true, readyB := true, credits := Config.depth k } : Crossing))
  { s with cdc := { s.cdc with xings := up ++ s.cdc.xings.filter fun e => !srcs.contains e.1 } }

/-- Overrun flags and losses of a source (R513). -/
def State.cdcFlags (s : State) (src : Nat) : Nat := ((List.range 8).map fun i => b2n (s.cdcOf src i).flag * 2 ^ i).sum
def State.cdcLost (s : State) (src : Nat) : Nat := sat 16 ((List.range 8).map fun i => (s.cdcOf src i).lost).sum

/-- The GLB_CDC word of a source (R513). -/
def State.cdcWord (s : State) (src : Nat) : Nat :=
  if !srcLegal src || !s.srcPowered src then 0 else s.cdcLost src * 65536 + s.cdcFlags src

/-- The blocks of a region. -/
def regionBlocks (r : Nat) : List Nat := (List.range 64).map (64 * r + ·)

/-- The largest of some numbers. -/
def maxOf (l : List Nat) : Nat := l.foldl Nat.max 0

/-- The block's ledger shares in units of 2^-16: array and SRAM (R179; rounded up as R175's fractions are, log 44). -/
def State.ledgerShare (s : State) (b : Nat) : Nat × Nat :=
  let (la, ls) := s.limits b
  (shareUp (s.blk b).ledgerA la, shareUp (s.blk b).ledgerS ls)

/-- Pending pairs whose layer has its home in a region (R179). -/
def State.pendingOf (s : State) (r : Nat) : List Nat := ((s.gov.pend.filter fun e => s.home (e.1 / 4) == r)).map (·.2)

/-- The (layer, role) pairs with a pending count above 0 (R179). -/
def State.pendingPairs (s : State) : Nat := (s.gov.pend.filter fun e => e.2 != 0).length

/-- The byte count of the running snapshot copy so far (R287, R290). -/
def State.snapSoFar (s : State) : Nat := if s.upd.snapBusy then 256 + (slotBody s.upd.snapParts).length else 0

/-- MiB of the running copy written in a region: frame j of a slot lies in package j mod 8, two packages to a region (R347). -/
def State.doneMib (s : State) (r : Nat) : Nat :=
  let n := s.snapSoFar
  let whole := n / (16 * 2 ^ 20)
  let rest := n % (16 * 2 ^ 20)
  (whole * 4 * 2 ^ 20 + Min.min (4 * 2 ^ 20) (rest - r * 4 * 2 ^ 20)) / 2 ^ 20

/-- Blocks of the module that a predicate picks out. -/
def State.countBlk (s : State) (p : Block → Bool) : Nat := ((List.range 256).filter fun b => p (s.blk b)).length

/-- Whether a block's cap lies below the POWER_POLICY frequency (R474). -/
def State.derated (s : State) (x : Block) : Bool := x.cap != 0 && x.cap < s.job.mhz

/-- A signed value in an 8-bit field of some unit. -/
def byteOf (v : Int) (unit : Int) : Nat := unsigned 8 (v / unit)

/-- One bit for each region. -/
def State.rgnBits (s : State) (p : TraceBuf → Bool) : Nat := ((List.range 4).map fun r => b2n (p (s.rgn r).trace) * 2 ^ r).sum

/-- The log entry at RD, its 8 words (R473). -/
def State.logWord (s : State) (n : Nat) : Nat :=
  match find? (logSlot s.err.rd) s.err.log with
  | some x => leAt (logBytes x) (4 * n) 4
  | none => 0

/-- Input streams that a session holds open. -/
def State.streamsOf (s : State) (n : Nat) : Nat := (s.hci.streams.filter fun e => e.2.sess == n).length

/-- Work-queue entries of a region held under R282 or R287. -/
def State.heldShards (s : State) (r : Nat) : Nat := ((s.rgn r).work.filter s.shardHeld).length

/-- Registers of the heartwood domain: GLB, PWR, ENG, ERR. -/
def State.heartWord (s : State) : RegId → Nat
  | .glbSerial n => if s.glb.serialUp then Config.serial.toNat / 2 ^ (32 * n) % 2 ^ 32 else 0
  | .glbStart =>
    let g := s.glb
    b2n g.failed * 2 ^ 31 + b2n g.recovery * 2 ^ 30 + b2n g.trimsLost * 2 ^ 29 + b2n g.mapLost * 2 ^ 28 + b2n g.planLost * 2 ^ 27 +
    g.startFault * 256 + g.order
  | .glbSigner => s.glb.signer
  | .glbJobLo => lo32 s.glb.jobId
  | .glbJobHi => hi32 s.glb.jobId
  | .glbId => 0x42020000
  | .glbFw => s.glb.fwVersion
  | .glbState => b2n s.glb.halted * 512 + b2n s.glb.job * 256 + s.pwr.state * 16 + s.glb.mstate.code
  | .glbTimeLo => lo32 s.board.time
  | .glbTimeHi => hi32 s.board.time
  | .glbSb => sat 12 s.sb.pecErr * 2 ^ 20 + sat 12 s.sb.badAccess * 256 + s.board.addr
  | .glbCdcSel => s.cdc.sel
  | .glbCdc => s.cdcWord s.cdc.sel
  | .pwrState => s.pwr.lastRefuser * 2 ^ 24 + b2n s.job.retain * 2048 + b2n s.pwr.busy * 128 + s.pwr.target * 16 + s.pwr.state
  | .pwrWakeLo => lo32 s.pwr.wakeTime
  | .pwrWakeHi => hi32 s.pwr.wakeTime
  | .pwrRefuse n => sat 32 (s.pwr.refuse.getD (n - 1) 0)
  | .engAccLo d => lo32 (s.eng.acc.getD d 0)
  | .engAccHi d => hi32 (s.eng.acc.getD d 0)
  | .engHeadLo => lo32 s.eng.head
  | .engHeadHi => hi32 s.eng.head
  | .engOldestLo => lo32 s.eng.oldest
  | .engOldestHi => hi32 s.eng.oldest
  | .engGaps => sat 32 s.eng.gaps
  | .engBacklog => sat 17 s.eng.queue.length
  | .engHandleDrop => sat 32 s.eng.handleDrop
  | .engFlkCtl => s.eng.entries.length
  | .engFlkStage n => if n = 11 then 0 else s.eng.stage.getD n 0
  | .errFirst => b2n s.err.valid * 2 ^ 31 + b2n s.err.remote * 2 ^ 30 + s.err.code
  | .errFirstSrc => s.err.device * 65536 + s.err.source
  | .errTimeLo => lo32 s.err.time
  | .errTimeHi => hi32 s.err.time
  | .errCtxLo => lo32 s.err.ctx
  | .errCtxHi => hi32 s.err.ctx
  | .errLogPtr => s.err.rd * 65536 + s.err.wr
  | .errLogOvf => sat 16 s.err.dropped * 65536 + sat 16 s.err.overwritten
  | .errAlert => s.err.alert
  | .errAlertEn => s.err.alertEn
  | .errLog n => s.logWord n
  | _ => 0

/-- Registers of the management domain: HCI, AGE, TRC, and of the memory controllers and ports. -/
def State.mgmtWord (s : State) : RegId → Nat
  | .hciSel => s.hci.sel
  | .hciSession =>
    let x := s.sess s.hci.sel
    b2n x.isOpen * 2 ^ 31 + b2n (x.isOpen && x.oper) * 2 ^ 30 + s.outOf s.hci.sel * 2 ^ 23 + s.streamsOf s.hci.sel * 65536
  | .hciSeq => let x := s.sess s.hci.sel; if x.isOpen then x.next else 0
  | .hciBad => sat 32 s.hci.bad
  | .hciAborts => sat 16 s.hci.late * 65536 + sat 16 s.hci.won
  | .ageSummary => b2n s.age.busy * 2 ^ 31 + s.countBlk (·.short) * 65536 + s.countBlk s.derated
  | .ageLastLo => lo32 s.age.last
  | .ageLastHi => hi32 s.age.last
  | .ageMargin g =>
    let x := s.blk g
    byteOf x.slack 2 * 2 ^ 24 + byteOf x.offset 5 * 65536 + x.cap * 32 + b2n x.short * 2 + b2n (s.derated x)
  | .trcStatus =>
    s.rgnBits (·.wrapped) * 4096 + s.rgnBits (·.frozen) * 256 + s.rgnBits (·.triggered) * 16 + s.rgnBits (·.armed)
  | .trcTrigLo => lo32 s.trc.trigTime
  | .trcTrigHi => hi32 s.trc.trigTime
  | .trcDrop r => sat 32 (s.rgn r).trcDrop
  | .trcCount r => (s.rgn r).trace.recs.length
  | .trcStop => s.stop.kind * 2 ^ 30 + b2n s.stop.complete * 2 ^ 29 + s.stop.device
  | .trcStopLo => lo32 s.stop.time
  | .trcStopHi => hi32 s.stop.time
  | .trcRound => s.stop.round
  | .memCrcLast => b2n s.mem.crcValid * 2 ^ 31 + s.mem.crcCtl * 2 ^ 24 + s.mem.crcResult
  | .memCrcAddr => s.mem.crcFrame * 8192 + s.mem.crcBlock
  | .memFreeHbm => if s.job.loaded then s.freeHbm else 0
  | .memFreeLp => if s.job.loaded then s.freeLp else 0
  | .memTemp n => look 0 n s.mem.band * 256 + look 0 n s.mem.temp
  | .lnkPorts => s.lnkPorts
  | .lnkSessions => s.openSessions.length * 256 + (s.openSessions.filter fun n => (s.sess n).oper).length
  | .lnkState p =>
    let x := s.port p
    x.peerDev * 65536 + b2n x.peerValid * 32768 + ((x.peerHello.map (·.port)).getD 0) % 64 * 256 + b2n x.inUse * 16 + x.st
  | .lnkDown p => let x := s.port p; b2n x.downValid * 2 ^ 31 + x.downDetail
  | .lnkFec p => (s.port p).fecWord s.board.time
  | .lnkReplay p => (s.port p).replay.length
  | _ => 0

/-- Registers of the Drover window (R329). -/
def State.drvWord (s : State) : RegId → Nat
  | .drvRole => s.drv.role * 65536 + s.drv.device
  | .drvForm => (s.drv.flocks - 1) * 65536 + (s.drv.members - 1) * 256 + s.drv.form
  | .drvEpoch => lo32 s.drv.epoch
  | .drvOffsetLo => lo32 (unsigned 64 s.drv.offset)
  | .drvOffsetHi => hi32 (unsigned 64 s.drv.offset)
  | .drvOffsetErr => s.drv.offsetErr
  | .drvFoldSel => s.drv.foldSel
  | .drvFoldTbl => look 0 s.drv.foldSel s.drv.peak * 65536 + s.entriesOf s.drv.foldSel
  | .drvLost => b2n s.drv.lostValid * 2 ^ 31 + s.drv.lostDetail * 65536 + s.drv.lostDevice
  | .drvRestarts => s.drv.restartMax * 16 + s.drv.restartsUsed
  | _ => 0

/-- Registers of a region window (R179, R241, R290, R510). -/
def State.rgnWord (s : State) : RegId → Nat
  | .rgnStatus r =>
    let g := s.rgn r
    b2n g.powered * 2 ^ 31 + b2n g.testFail * 2 ^ 30 + ((regionBlocks r).filter fun b => (s.blk b).excluded).length * 256 +
    ((regionBlocks r).filter fun b => s.hosting.contains b).length
  | .rgnMeshResend r => sat 32 (s.rgn r).meshResend
  | .rgnSticky r => (s.rgn r).sticky
  | .tlyBudget _ => if s.job.loaded then s.job.prec.sramBudget * 65536 + s.job.prec.arrayBudget else 0
  | .tlyLedger r =>
    let l := (regionBlocks r).map s.ledgerShare
    sat 16 (maxOf (l.map (·.2))) * 65536 + sat 16 (maxOf (l.map (·.1)))
  | .tlyPending r => sat 4 (maxOf (s.pendingOf r)) * 65536 + sat 16 s.pendingPairs
  | .tlyBaseline _ => b2n s.gov.baseline
  | .tlyStepBase r => sat 32 (maxOf ((regionBlocks r).map fun b => (s.blk b).tbase) / 1024)
  | .tlyLreplay r => sat 32 (s.rgn r).lreplay
  | .tlyVerdicts r => sat 16 (s.rgn r).stepReplay * 65536 + sat 16 (s.rgn r).stepSkip
  | .tlyWidth r =>
    let g := s.rgn r
    sat 8 g.ceiling * 2 ^ 24 + sat 8 g.size * 65536 + sat 8 g.narrowed * 256 + sat 8 g.granted
  | .quePoolFree r => if s.job.loaded then sat 20 (s.sharedPool r) else 0
  | .queResvOut r => sat 20 (s.owed r)
  | .queToCnt r => sat 32 (s.rgn r).toCnt
  | .queToLast r => b2n (s.rgn r).toValid * 65536 + (s.rgn r).toQueue
  | .queBroken r => b2n (s.rgn r).brkAny * 2 ^ 31 + (s.rgn r).brkFirst
  | .queDeadline r => sat 32 (s.rgn r).deadline
  | .queWdog r => if r = 0 then s.wdogCount else 0
  | .queDescSel r => (s.rgn r).descSel
  | .queDesc r n => (s.rgn r).descCap / 2 ^ (32 * n) % 2 ^ 32
  | .updLive _ => b2n (s.upd.awaiting || s.gov.sealedSteps.contains s.gov.step) * 2 + s.upd.live
  | .updCount _ => lo32 s.upd.count
  | .updQueue r => sat 13 (s.heldShards r) * 65536 + sat 13 (s.rgn r).work.length
  | .updSnap r =>
    let u := s.upd
    b2n u.snapBusy * 2 ^ 31 + b2n s.shipping * 2 ^ 30 + u.newest * 2 ^ 29 + b2n (u.slots.any fun e => slotComplete e.2) * 2 ^ 28 + sat 20 (s.doneMib r)
  | .updSnapStep _ => if s.upd.anyDone then lo32 (slotStep (s.slot s.upd.newest)) else 0
  | _ => 0

/-- Rows of a block's plan that spares replace, the lower first (R510). -/
def Block.badRows (x : Block) : List Nat := (x.rowBad.filter (· < 256)).foldl (fun l n => insertN n l) []

/-- Registers of a block window; an excluded block's clock, droop and stages read 0 (R510). -/
def State.blkWord (s : State) : RegId → Nat
  | .blkRepair g =>
    let x := s.blk g
    b2n x.excluded * 2 ^ 31 + b2n x.subst * 2 ^ 30 + sat 2 x.badRows.length * 2 ^ 24 + (if x.subst then x.hosted else g) * 65536 +
    (if x.excluded then 0 else x.width)
  | .blkBadCol g => sat 7 (s.blk g).colBad.length
  | .blkBadRow g =>
    match (s.blk g).badRows with
    | [] => 0
    | [a] => 32768 + a
    | a :: b :: _ => 2 ^ 31 + b * 65536 + 32768 + a
  | .blkClock g => let x := s.blk g; if x.excluded then 0 else x.mhz * 65536 + byteOf x.offset 5 * 256
  | .blkDroop g => if (s.blk g).excluded then 0 else sat 32 (s.blk g).droop
  | .blkStages g =>
    if (s.blk g).excluded then 0
    else ((s.stages g).map fun t => b2n (s.run g t.idx).atRest * 2 ^ (16 + t.idx) + 2 ^ t.idx).sum
  | .blkSticky g => (s.blk g).sticky
  | .blkCdc g => (s.cdcWord (srcBlock g)) / 65536 * 65536 + s.cdcFlags (srcBlock g) % 8
  | _ => 0

/-- The window of a register. -/
def RegId.win : RegId → Win
  | .glbSerial _ | .glbStart | .glbSigner | .glbJobLo | .glbJobHi | .glbId | .glbFw | .glbState | .glbTimeLo | .glbTimeHi | .glbSb
  | .glbCdcSel | .glbCdc => .glb
  | .hciSel | .hciSession | .hciSeq | .hciBad | .hciAborts => .hci
  | .pwrState | .pwrCtl | .pwrWakeLo | .pwrWakeHi | .pwrRefuse _ => .pwr
  | .engAccLo _ | .engAccHi _ | .engHeadLo | .engHeadHi | .engOldestLo | .engOldestHi | .engGaps | .engBacklog | .engHandleDrop
  | .engFlkCtl | .engFlkStage _ => .eng
  | .errFirst | .errFirstSrc | .errTimeLo | .errTimeHi | .errCtxLo | .errCtxHi | .errLogPtr | .errLogOvf | .errAlert | .errAlertEn
  | .errLog _ => .err
  | .ageCtl | .ageSummary | .ageLastLo | .ageLastHi | .ageMargin _ => .age
  | .trcStatus | .trcCtl | .trcTrigLo | .trcTrigHi | .trcDrop _ | .trcCount _ | .trcStop | .trcStopLo | .trcStopHi | .trcRound => .trc
  | .memCrcLast | .memCrcAddr | .memFreeHbm | .memFreeLp | .memTemp _ => .mem
  | .lnkPorts | .lnkSessions | .lnkState _ | .lnkDown _ | .lnkFec _ | .lnkReplay _ => .lnk
  | .drvRole | .drvForm | .drvEpoch | .drvOffsetLo | .drvOffsetHi | .drvOffsetErr | .drvFoldSel | .drvFoldTbl | .drvLost
  | .drvRestarts => .drv
  | .blkRepair _ | .blkBadCol _ | .blkBadRow _ | .blkClock _ | .blkDroop _ | .blkStages _ | .blkSticky _ | .blkCdc _ => .blk
  | _ => .rgn

/-- The word that a register shows: 0 while its window does not answer (R500). -/
def State.regWord (s : State) (r : RegId) : Nat :=
  if !s.winAnswers r.win then 0
  else match r.win with
    | .glb | .pwr | .eng | .err => s.heartWord r
    | .hci | .age | .trc | .mem | .lnk => s.mgmtWord r
    | .drv => s.drvWord r
    | .rgn => s.rgnWord r
    | .blk => s.blkWord r

end Sys2Proof.Machine
end

