-- ==== Sys2Proof/Machine/FaultCmds.lean ====
section
/-! DEFINITION. Faults that stop the module and the events that raise them (R33, R36, R37, R41, R326, R456-R464, R527). -/

namespace Sys2Proof.Machine

/-! ## What is powered -/

/-- The management controller runs: powered, out of reset, its firmware started, its clock not gated (R397, R399, R426, R527). -/
def State.mgmtUp (s : State) : Bool :=
  s.board.powerGood && s.glb.mstate != .off && !s.glb.bootRom && !s.board.gated && s.pwr.state == 0 &&
  (s.glb.mstate != .starting || 3 ≤ s.glb.order)

/-- The compute islands run (R399, R426, R459, R527). -/
def State.computeOn (s : State) : Bool :=
  s.mgmtUp && s.glb.trip.isNone && (s.glb.mstate != .starting || 4 ≤ s.glb.order)

/-- Whether the memory devices are trained and out of self-refresh (R335, R399, R426). -/
def State.memOn (s : State) : Bool := s.mgmtUp && s.glb.trip.isNone && 6 ≤ s.glb.order

/-- The nanoseconds that each controller has spent in band 2 since they were last counted (R345, R351). -/
def State.bankBands (s : State) : State :=
  if !s.memOn then s
  else
    let now := s.board.time
    (List.range 24).foldl (fun (s : State) c =>
      if look 0 c s.mem.band != 2 then s
      else ({ s with mem := { s.mem with bandSince := put c now s.mem.bandSince } } : State).count 17 c 7 (now - look now c s.mem.bandSince)) s

/-- What runs on with the clock in P0 is counted up to now: the cycles of each block, and the time in band 2 (R351, R476). -/
def State.bankCycles (s : State) : State :=
  if !s.computeOn then s
  else
    let s := s.bankBands
    let now := s.board.time
    (List.range 256).foldl (fun (s : State) b =>
      let x := s.blk b
      if x.excluded || x.mhz = 0 then s
      else (s.setBlk b { x with cycFrom := now }).count 4 b 0 (cyclesIn x.mhz (now - x.cycFrom))) s

/-- The blocks are clocked, and time in band 2 counts, from now on. -/
def State.markCycles (s : State) : State :=
  { s with mem := { s.mem with bandSince := s.mem.bandSince.map fun (e : Nat × Nat) => (e.1, s.board.time) },
           blocks := s.blocks.map fun (e : Nat × Block) => (e.1, { e.2 with cycFrom := s.board.time }) }

/-! ## Entering FAULTED -/

/-- An ageing measurement that runs is aborted, and runs again at the next eligible point (R466). -/
def State.ageAborts (s : State) : State :=
  if s.age.busy then { s with age := { s.age with busy := false, due := true } } else s

/-- The commands that a job fault completes (R418). -/
def State.faultCompletes (s : State) (code : Nat) : State :=
  let s := [0x10, 0x11, 0x13].foldl (fun s op => s.finishAll op stJobFault code) s
  s.finishTake stJobFault code

/-- The module enters FAULTED: the copy of a snapshot and a pause in progress end, and notice 0x02 is sent (R36, R418, R424). -/
def State.enterFaulted (s : State) (code dev : Nat) : State :=
  if s.glb.mstate == .faulted then s
  else
    let old := s.glb.mstate.code
    let s := s.stopWaits
    let s := (s.copyStops.ageAborts).setMode .faulted
    let s := { s with glb := { s.glb with halted := false, jobStarting := false }, stop := { s.stop with id := none },
                      err := { s.err with stopIssue := true } }
    let s := s.notify 0x02 old ModState.faulted.code code dev 0 0 0
    s.faultCompletes code

/-- STOP sent along the path of verdicts, with the first fault; later faults send nothing (R326). -/
def State.sendStop (s : State) (code dev : Nat) : State :=
  if s.drv.faultSent then s
  else
    let s := { s with drv := { s.drv with faultSent := true, firstFault := some (code, dev) } }
    let m : DMsg := { type := mStop, payload := le 2 code ++ le 2 dev }
    let s := if s.drv.role = 3 then s.otherManagers.foldl (fun s d => s.post { m with dst := d }) s else s
    s.flood s.job.flock.ctrlTree none (s.dmsg { m with mcast := true })

/-- A module's own fault reaches its manager: FAULT is sent, or the verdict manager sends STOP at once (R36, R326). -/
def State.tellManager (s : State) (code time : Nat) : State :=
  if s.isVerdictManager then s.sendStop code s.drv.device
  else if s.drv.role = 0 then s
  else s.post { type := mFault, dst := if s.drv.role = 2 then 0 else s.managerDev,
                payload := le 2 code ++ le 8 s.gov.step ++ le 8 time }

/-! ## The latch window (R463) -/

/-- Of two reports the one with the smaller timestamp, the lower source on a tie. -/
def earlier (a b : LogEnt) : LogEnt := if b.first < a.first || (b.first = a.first && b.source < a.source) then b else a

/-- Of some reports the module's own earliest, else the fault that STOP carried, with its device. -/
def chosenOf (l : List (LogEnt × Option Nat)) : Option (LogEnt × Option Nat) :=
  match (l.filter fun x => x.2.isNone).map (·.1) with
  | a :: r => some (r.foldl earlier a, none)
  | [] => l.head?

/-- What the closing window latches. -/
def Err.chosen (e : Err) : Option (LogEnt × Option Nat) := chosenOf e.window

/-- The first-fault register latches: FIRST is set, a lifetime record is written, and a trigger of kind 1 fires (R463, R464, R469,
R484). -/
def State.latchFirst (s : State) (x : LogEnt) (dev : Option Nat) : State :=
  let s := { s with err := { s.err with valid := true, remote := dev.isSome, code := x.code, source := x.source,
                                        device := dev.getD s.drv.device, time := x.first, ctx := x.ctx } }
  let s := addLife (s.alert 0) 0x0003 (logBytes x ++ le 1 (b2n dev.isSome))
  if s.trc.body.kind = 1 then s.fireTrigger else s

/-- FIRST_FAULT_WINDOW: 10 µs after the first report the window closes; the latch takes its report where it holds none, and a module
whose issue was stopped enters FAULTED and tells its manager (R36, R458, R463). A JOB_START that had not completed ends with
JOB_FAULT and the module stays READY (R416, R418, log 45). -/
def execFirstFaultWindow (s : State) : Host.Outcome State Fault Refusal :=
  match s.err.windowAt, s.err.chosen.or (chosenOf s.err.quiet) with
  | some _, some (x, dev) =>
    let stops := s.err.stopIssue && s.inState [.running, .paused]
    let always := (s.err.window ++ s.err.quiet).any fun y => alwaysFaults y.1.code
    let latch := !s.err.window.isEmpty && !s.err.valid
    let s := { s with err := { s.err with window := [], quiet := [], windowAt := none } }
    let s := if latch then s.latchFirst x dev else s
    if always || stops then
      if s.glb.mstate == .faulted then .next s
      else
        let t := s.enterFaulted x.code (dev.getD s.drv.device)
        .next (if stops then t.tellManager x.code x.first else t)
    else if s.glb.jobStarting then
      let s := { s with glb := { s.glb with jobStarting := false }, err := { s.err with stopIssue := false } }
      .next (s.finishAll 0x10 stJobFault x.code)
    else .next s
  | _, _ => .next { s with err := { s.err with window := [], quiet := [], windowAt := none } }

/-- REPORT: a report of some unit reaches the management controller (R454-R464). One of the load-refused disposition waits for the
latch as well (R463). A structural parity error breaks the queue that its context names (R231). -/
def execReport (code source context time : Nat) (s : State) : Host.Outcome State Fault Refusal :=
  let k := codeClass code
  if !s.mgmtUp || 65536 ≤ code || k = 0 || 0x14 < k || !srcLegal source then .next s
  else
    let fresh := s.glb.mstate != .faulted
    let s := if [faultCode 2 PARITY 2, faultCode 2 PARITY 3, faultCode 2 PARITY 4].contains code then s.markBroken context else s
    let s := reportAt s code source context time
    .next (if fresh && disposition s code context = .loadRefused then toWindow s code source context time none else s)

/-! ## Temperature (R456, R459) -/

/-- Context of THERMAL (R457). -/
def thermalCtx (temp i : Nat) : Nat := temp * 65536 + i

/-- Every byte that a predicate on block addresses picks reads as zero again. -/
def Mem.zeroed (m : Mem) (p : Nat → Bool) : Mem :=
  { m with data := m.data.filter fun c => !p (c.1 / 256), poison := m.poison.filter fun b => !p b }

/-- What the memory devices held is lost with their rails: data, slots, and the records not read out (R459, log 142). -/
def State.memoryLost (s : State) : State :=
  { s with mem := s.mem.zeroed fun _ => true,
           upd := { s.upd with slots := [], newest := 0, anyDone := false, snapBusy := false, snapArmed := false, snapWait := none, chunks := [] },
           eng := { s.eng with recs := [], queue := [], oldest := s.eng.nextSeq } }

/-- The rails of the dies, the memory devices and the optics are removed: every link is dark, every session closes, and the job is
lost with what held it (R371, R459). -/
def State.railsOff (s : State) : State :=
  let s := s.openSessions.foldl State.dropSession s
  let s := [0, 1, 2, 3].foldl (fun (s : State) r => s.modRgn r fun g => { g with powered := false }) s
  let s := (List.range 33).foldl (fun (s : State) p => s.setPort p { inUse := (s.port p).inUse, downValid := (s.port p).downValid,
                                                                      downDetail := (s.port p).downDetail }) s
  ({ s with glb := { s.glb with job := false, jobStarting := false }, hci := { s.hci with held := [] } } : State).memoryLost

/-- THERMAL_TRIP: a die at or above 125 °C (R459). -/
def execThermalTrip (die temp : Nat) (s : State) : Host.Outcome State Fault Refusal :=
  if 4 ≤ die || temp < 125 || 256 ≤ temp || !s.board.powerGood || s.glb.mstate == .off || s.glb.trip.isSome then .next s
  else
    let code := faultCode 3 THERMAL 0x02
    let t := s.stamp
    let s := s.bankCycles
    let s := { s with eng := { s.eng with lowPower := s.eng.lowPower || s.pwr.state != 0 },
                      pwr := { s.pwr with state := 0, busy := false, target := 0, wakeHeld := false } }
    let s := reportAt s.stamped code srcMgmt (thermalCtx temp die) t
    let ent : LogEnt := { code := code, source := srcMgmt, first := t, last := t, ctx := thermalCtx temp die }
    .next ({ s with glb := { s.glb with trip := some ent }, board := { s.board with thermTrip := true } } : State).railsOff

/-- DIE_OVERTEMPERATURE: a die at or above 110 °C for 1 ms (R456). -/
def execDieOvertemperature (die temp : Nat) (s : State) : Host.Outcome State Fault Refusal :=
  if 4 ≤ die || temp < 110 || 256 ≤ temp || !s.mgmtUp then .next s
  else .next (raise s (faultCode 3 THERMAL 0x01) (srcRegion die) (thermalCtx temp die))

/-- OPTICAL_ENGINE_OVERTEMPERATURE: a port's optical engine at or above 80 °C (R456). -/
def execOpticalEngineOvertemperature (port temp : Nat) (s : State) : Host.Outcome State Fault Refusal :=
  if 33 ≤ port || temp < 80 || 256 ≤ temp || !s.mgmtUp || !s.opticsOn then .next s
  else .next (raise s (faultCode 3 THERMAL 0x03) (srcPort port) (thermalCtx temp port))

/-! ## The management controller (R460) -/

/-- The management controller is reset and its firmware reloaded; the job does not survive it (R460). -/
def State.watchdog (s : State) (detail : Nat) : State :=
  if !s.mgmtUp then s else raise s (faultCode 3 WATCHDOG detail) srcMgmt 0

/-- FIRMWARE_WATCHDOG, LOCKSTEP_DIVERGENCE, IDENTITY_TIMEOUT (R456, R460). -/
def execFirmwareWatchdog (s : State) : Host.Outcome State Fault Refusal := .next (s.watchdog 0x01)
def execLockstepDivergence (s : State) : Host.Outcome State Fault Refusal := .next (s.watchdog 0x03)
def execIdentityTimeout (s : State) : Host.Outcome State Fault Refusal := .next (s.watchdog 0x04)

/-! ## The reference clock (R527) -/

/-- REFERENCE_CLOCK_LOSS: no edge for 1 µs. The time base goes on from the internal oscillator. -/
def execReferenceClockLoss (s : State) : Host.Outcome State Fault Refusal :=
  if !s.board.refRunning then .next s
  else
    let on := s.board.powerGood && s.glb.mstate != .off && !s.glb.bootRom && (s.glb.mstate != .starting || 3 ≤ s.glb.order)
    let s := { s with board := { s.board with refRunning := false, refLostAt := s.board.time } }
    .next (if on then raise s (faultCode 3 WATCHDOG 0x05) srcMgmt 0 else s)

/-- ISLAND_CLOCK_GATE: 100 µs after the loss the island clocks are gated. -/
def execIslandClockGate (s : State) : Host.Outcome State Fault Refusal :=
  if s.board.refRunning || !s.board.powerGood then .next s
  else
    let s := s.bankCycles
    .next { s with board := { s.board with gated := true } }

/-- REFERENCE_CLOCK_RETURN: the reference has been within its limits for 1 ms and is taken back; the module stays FAULTED, its
islands clocked again (log 46). -/
def execReferenceClockReturn (s : State) : Host.Outcome State Fault Refusal :=
  if s.board.refRunning then .next s
  else
    let s := { s with board := { s.board with refRunning := true, gated := false } }
    .next s.markCycles

/-! ## Droops, crossings and the mesh -/

/-- SUPPLY_DROOP: the current cycle of a block is lengthened (R37, R510). -/
def execSupplyDroop (blk : Nat) (s : State) : Host.Outcome State Fault Refusal :=
  if 256 ≤ blk || !s.computeOn || (s.blk blk).excluded then .next s
  else .next (s.modBlk blk fun x => { x with droop := satAdd max32 x.droop 1 })

/-- Event lines by kind of source (R512): how many of the eight are used. -/
def cdcLines (kind : Nat) : Nat := match kind with | 0 => 1 | 1 => 3 | 2 => 4 | 3 => 3 | 4 => 3 | 5 => 3 | 6 => 2 | _ => 0

/-- The level of a source's island (R33, R41): a block 1, a region 2, everything else 3 (DEDUCED, log 47). -/
def srcLevel (src : Nat) : Nat := match src / 4096 with | 1 => 1 | 2 => 2 | _ => 3

/-- What a lost event makes inexact: the next record of the source on its trace line, the next capture on a line of snapshot strobes; on a line
of notices only their timing is lost (R42, R512). -/
def State.markInexact (s : State) (source i : Nat) : State :=
  if source / 4096 = 6 then s
  else if i = 0 then
    s.modRgn (traceRegion source) fun g => g.modTrace fun (t : TraceBuf) => { t with inexact := insertN source t.inexact }
  else if i = 1 then s
  else { s with cdc := { s.cdc with inexact := insertN (source * 8 + i) s.cdc.inexact } }

/-- A rail sample lost on its crossing makes its period a gap, in ENG_GAPS and in every record whose interval holds it; the period counts once,
where RAIL_SAMPLE reports the sample missing too (R441). -/
def State.sampleLost (s : State) : State :=
  { s with eng := { s.eng with gaps := satAdd max32 s.eng.gaps 1, gapTotal := s.eng.gapTotal + 1, lost := true },
           hci := { s.hci with handles := s.hci.handles.map fun (h : Hnd) => { h with gaps := h.gaps + 1 } } }

/-- EVENT_OVERRUN: an event lost while its line's slot is pending: the flag, the count, and CDC_OVERRUN at the first loss since the flag
was cleared (R41, R476, R512, R513). A rail sample lost on line 0x30 is a sample gap too (R441, R512). -/
def execEventOverrun (source line : Nat) (s : State) : Host.Outcome State Fault Refusal :=
  let kind := source / 4096
  let i := line % 8
  if !srcLegal source || line / 8 != kind || cdcLines kind ≤ i || !s.board.powerGood || !s.srcPowered source then .next s
  else
    let x := s.cdcOf source i
    let s := { s with cdc := { s.cdc with lines := put (source * 8 + i) { flag := true, lost := satAdd 0xFFFF x.lost 1 } s.cdc.lines } }
    let s := s.count 11 (traceRegion source) 1 1
    let s := s.markInexact source i
    let s := if line = 0x30 then s.sampleLost else s
    .next (if x.flag then s else raise s (faultCode (srcLevel source) CDC_OVERRUN line) source line)

/-- MESH_FLIT_CRC_FAIL: a mesh flit fails its CRC at a hop. It is sent again, and CRC_EXHAUST follows the third failed re-send (R33,
R456, R510). Whether the flit is the one that failed before is a free choice (log 48). -/
def execMeshFlitCrcFail (blk : Nat) (s : State) : Host.Outcome State Fault Refusal :=
  if 256 ≤ blk || !s.computeOn then .next s
  else
    let r := regionOf blk
    let g := s.rgn r
    let (v, s) := takeFree s
    let n := (if v % 2 = 0 then 0 else g.meshTry) + 1
    if n < 4 then
      let s := s.modRgn r fun g => { g with meshTry := n, meshResend := satAdd max32 g.meshResend 1 }
      .next (s.rgnSticky r 5)
    else
      let s := s.modRgn r fun g => { g with meshTry := 0 }
      .next (raise s (faultCode 2 CRC_EXHAUST 0x10) (srcRegion r) blk)

end Sys2Proof.Machine
end

