-- ==== Sys2Proof/Machine/Flock.lean ====
section
/-! DEFINITION. The end of a start-up (R399, R404), formation of the flock and its time (R296-R298), faults that travel through it and
its restart (R326-R328), and lost peers (R325). -/

namespace Sys2Proof.Machine

/-! ## The end of a start-up -/

/-- The GLB_START word (R406). -/
def Glb.startWord (g : Glb) : Nat :=
  b2n g.failed * 2 ^ 31 + b2n g.recovery * 2 ^ 30 + b2n g.trimsLost * 2 ^ 29 + b2n g.mapLost * 2 ^ 28 + b2n g.planLost * 2 ^ 27 +
  g.startFault * 256 + g.order

/-- The lifetime record of a start (R469). -/
def State.startRecord (s : State) : State :=
  addLife s 0x0001 (le 4 s.glb.startWord ++ le 2 0x4202 ++ le 32 s.glb.imageDigest ++ le 4 s.glb.signer ++ le 1 (b2n !s.board.firstStart))

/-- READY (R399, order 15). -/
def State.startReady (s : State) : State :=
  (({ s with glb := { s.glb with order := 15 } } : State).setMode .ready).startRecord

/-- A start-up failure (R404): the sequence stops at the order begun last; the fault is shown in GLB_START and goes to the latch window of
ERR_FIRST (R463); the module is FAULTED with no job and the alert is set. -/
def State.startFail (s : State) (code src ctx : Nat) : State :=
  let t := s.stamp
  let s := logReport s.stamped code src ctx t
  let s := { s with err := { s.err with counts := adjust 0 ((codeClass code - 1) * 4 + codeLevel code) (· + 1) s.err.counts } }
  let s := toWindow s code src ctx t none
  let s := { s with glb := { s.glb with failed := true, startFault := code, job := false } }
  ((s.alert 1).setMode .faulted).startRecord

/-! ## Formation (R296) -/

/-- The agreement answer of FORM_ACK: nonce, serial number, stepping, agreement digest (R296, R300). -/
def State.formAck (s : State) (nonce : List Byte) : List Byte := nonce ++ le 16 Config.serial.toNat ++ le 2 0x4202 ++ le 32 s.job.agree

/-- Members with no probe of an exchange in flight and not yet 16 done, as many as 64 exchanges at once allow, are sent PROBE. -/
def State.launchProbes (s : State) : State :=
  s.drv.probes.foldl (fun s p =>
    let busy := (s.drv.probes.filter fun x => x.t1.isSome).length
    if p.t1.isSome || 16 ≤ p.done.length || 64 ≤ busy then s
    else
      let now := s.localTime (srcDrover 0) 1
      let s := { s with drv := { s.drv with probes := s.drv.probes.map fun (x : Probe) => if x.device = p.device then { x with t1 := some now } else x } }
      s.post { type := mProbe, dst := p.device }) s

/-- FORM sent to some devices. -/
def State.sendForm (s : State) (l : List Nat) : State := l.foldl (fun s d => s.post { type := mForm, dst := d, payload := s.drv.formNonce }) s

/-- The bound of a module's offset (R298): nothing was measured for the top or only manager, a worker of another tier-1 flock than the
top manager's has a composed offset, the others a measured one. -/
def State.offsetBound (s : State) : Nat :=
  if s.drv.device = 0 then 0 else if s.drv.role = 1 && 256 ≤ s.drv.device then 20 else 10

/-- The flock is formed here: the offset is stored, peers are known, and a start-up that waits at order 14 reaches READY. -/
def State.formDone (s : State) (o : Int) : State :=
  let s := { s with drv := { s.drv with form := 2, offset := o, offsetErr := s.offsetBound } }
  let s := (List.range 32).foldl State.bindPeer s
  if s.glb.mstate == .starting && s.glb.order == 14 then s.startReady else s

/-- A manager hands every member its offset to flock time, down the control tree (R296 order 6, R297). -/
def State.formMembers (s : State) (o : Int) : State :=
  let s := s.otherMembers.foldl (fun s d =>
    let mine := (((s.drv.probes.find? fun p => p.device == d).bind (·.offset)).getD 0) + o
    s.flood s.job.flock.ctrlTree none (s.dmsg { type := mFormed, dst := d, payload := le 8 (unsigned 64 mine) })) s
  s.formDone o

/-- The probes of some devices begin. -/
def State.probeAll (s : State) (l : List Nat) (phase : Nat) : State :=
  ({ s with drv := { s.drv with phase := phase, probes := s.drv.probes ++ l.map fun d => { device := d } } } : State).launchProbes

/-- Every probe has its offset. -/
def State.probed (s : State) : Bool := s.drv.probes.all fun p => p.offset.isSome

/-- One step of a manager's formation, once what it waits for has come (R296). -/
def State.formStep (s : State) : State :=
  let d := s.drv
  if d.form != 1 || !s.isManager then s
  else match d.phase with
    | 0 => if s.otherMembers.all d.formAcks.contains then s.probeAll s.otherMembers 1 else s
    | 1 =>
      if !s.probed then s
      else if s.job.flock.flocks ≤ 1 then s.formMembers 0
      else
        let s := { s with drv := { s.drv with phase := 2 } }
        if d.role = 3 then s else s.post { type := mFormed, dst := 0, payload := le 8 0 }
    | 2 =>
      if d.role = 3 && s.otherManagers.all d.formedBelow.contains then
        ({ s with drv := { s.drv with phase := 3 } } : State).sendForm s.otherManagers
      else s
    | 3 => if s.otherManagers.all d.formAcks.contains then s.probeAll s.otherManagers 4 else s
    | _ =>
      if !s.probed then s
      else
        let s := s.otherManagers.foldl (fun s m =>
          let o := ((s.drv.probes.find? fun p => p.device == m).bind (·.offset)).getD 0
          s.post { type := mFormed, dst := m, payload := le 8 (unsigned 64 o) }) s
        s.formMembers 0

/-- Formation as far as it goes. -/
def State.formRun : Nat → State → State
  | 0, s => s
  | n + 1, s => State.formRun n s.formStep

/-- Every fabric port in use is up. -/
def State.portsReady (s : State) : Bool := (List.range 32).all fun p => !(s.port p).inUse || (s.port p).st == 2

/-- A port of LNK_PORTS that is not in use and is not up when order 13 ends: LINK_DOWN is logged with what its attempt lacks, and the attempts
go on (R365, R402). -/
def State.darkPort (s : State) (p : Nat) : State :=
  let x := s.port p
  if bitAt s.lnkPorts p && !x.inUse && x.st == 1 then
    let d := if !x.signal then 0x01 else if !x.locked then 0x02 else 0x03
    raise (s.setPort p { x with downValid := true, downDetail := d }) (faultCode 3 LINK_DOWN d) (srcPort p) p
  else s

/-- FLOCK_FORMATION: link training has completed, and order 14 begins: the manager sends FORM to every member (R296, R399). A module
whose FORMED has come already is READY. -/
def execFlockFormation (s : State) : Host.Outcome State Fault Refusal :=
  if s.glb.mstate != .starting || s.glb.order != 13 || !s.portsReady then .next s
  else
    let s := (List.range 32).foldl State.darkPort { s with glb := { s.glb with order := 14 } }
    if s.drv.form = 2 then .next s.startReady
    else
      let s := { s with drv := { s.drv with form := 1 } }
      if !s.isManager then .next s
      else
        let (v, s) := takeFree s
        let s := { s with drv := { s.drv with formNonce := le 16 v } }
        .next ((s.sendForm s.otherMembers).formRun 6)

/-- FORM: a member answers with its nonce, serial number, stepping and agreement digest (R296). -/
def execForm (port : Nat) (m : DMsg) (s : State) : Host.Outcome State Fault Refusal :=
  .next (s.droverIn port m mForm fun s =>
    if s.drv.role = 0 then s
    else
      let s := { s with drv := { s.drv with form := if s.drv.form = 0 then 1 else s.drv.form } }
      s.post { type := mFormAck, dst := m.src, payload := s.formAck (slice m.payload 0 16) })

/-- Formation fails, and with it the start-up (R296). -/
def State.formFails (s : State) (code ctx : Nat) : State :=
  ({ s with drv := { s.drv with form := 3 } } : State).startFail code srcMgmt ctx

/-- FORM_ACK: serial number and digest are compared; once every answer is in, the probes run (R296). Of another manager the top manager
knows no serial number. -/
def execFormAck (port : Nat) (m : DMsg) (s : State) : Host.Outcome State Fault Refusal :=
  .next (s.droverIn port m mFormAck fun s =>
    let p := m.payload
    let awaited := (s.drv.phase == 0 && s.otherMembers.contains m.src) || (s.drv.phase == 3 && s.otherManagers.contains m.src)
    if s.drv.form != 1 || !s.isManager || !awaited || slice p 0 16 != s.drv.formNonce then s
    else
      let serialOk := s.drv.phase == 3 || s.job.flock.members.contains (m.src, leAt p 16 16)
      if !serialOk || leAt p 34 32 != s.job.agree then s.formFails (faultCode 3 IMAGE_FORMAT 0x40) m.src
      else ({ s with drv := { s.drv with formAcks := insertN m.src s.drv.formAcks } } : State).formRun 6)

/-! ## Probes (R297) -/

/-- PROBE: answered with the times of receipt and of sending. -/
def execProbe (port : Nat) (m : DMsg) (s : State) : Host.Outcome State Fault Refusal :=
  .next (s.droverIn port m mProbe fun s =>
    s.post { type := mProbeReply, dst := m.src, payload := le 8 (s.localTime (srcDrover 0) 2) ++ le 8 (s.localTime (srcDrover 0) 3) })

/-- The round trip of an exchange and its offset. -/
def roundTrip (x : Nat × Nat × Nat × Nat) : Int := ((x.2.2.2 : Int) - x.1) - ((x.2.2.1 : Int) - x.2.1)
def exchangeOffset (x : Nat × Nat × Nat × Nat) : Int := Int.tdiv (((x.2.1 : Int) - x.1) + ((x.2.2.1 : Int) - x.2.2.2)) 2

/-- The exchange with the smallest round trip, the earliest on a tie. -/
def bestExchange (l : List (Nat × Nat × Nat × Nat)) : Option (Nat × Nat × Nat × Nat) :=
  l.foldl (fun b x => match b with
    | none => some x
    | some y => if roundTrip x < roundTrip y then some x else some y) none

/-- A probe with one more exchange finished; the 16th gives the offset. -/
def Probe.finish (p : Probe) (x : Nat × Nat × Nat × Nat) : Probe :=
  let l := p.done ++ [x]
  { p with t1 := none, done := l, offset := if 16 ≤ l.length then (bestExchange l).map exchangeOffset else none }

/-- PROBE_REPLY: t4 is taken, and after 16 exchanges the offset stands. -/
def execProbeReply (port : Nat) (m : DMsg) (s : State) : Host.Outcome State Fault Refusal :=
  .next (s.droverIn port m mProbeReply fun s =>
    match s.drv.probes.find? fun p => p.device == m.src with
    | none => s
    | some p => match p.t1 with
      | none => s
      | some t1 =>
        let q := p.finish (t1, leAt m.payload 0 8, leAt m.payload 8 8, s.localTime (srcDrover 0) 4)
        let s := { s with drv := { s.drv with probes := s.drv.probes.map fun (x : Probe) => if x.device = p.device then q else x } }
        s.launchProbes.formRun 6)

/-- FORMED: the top manager counts the flocks that are formed, also before its own links are trained; every other module stores its offset, and a manager hands its members
theirs (R296, R297). -/
def execFormed (port : Nat) (m : DMsg) (s : State) : Host.Outcome State Fault Refusal :=
  .next (s.droverIn port m mFormed fun s =>
    let o := signed 64 (leAt m.payload 0 8)
    if s.drv.role = 3 then
      if s.drv.form ≤ 1 && s.otherManagers.contains m.src then
        ({ s with drv := { s.drv with formedBelow := insertN m.src s.drv.formedBelow } } : State).formRun 6
      else s
    else if s.drv.form != 1 then s
    else if s.drv.role = 2 then (if s.drv.phase = 2 && m.src = 0 then s.formMembers o else s)
    else if m.src = s.managerDev then s.formDone o else s)

/-! ## Faults that travel (R326) -/

/-- The fault that STOP carries acts on this module: it is logged with the source device, and a module with a job stops (R326, R463). -/
def State.takeStop (s : State) (code dev : Nat) : State :=
  let t := s.stamp
  let s := logReport s.stamped code srcMgmt dev t
  if s.inState [.running, .paused] then (toWindow s code srcMgmt dev t (some dev)).enterFaulted code dev
  else if s.glb.jobStarting then
    quietStop s code srcMgmt dev t (some dev)
  else s

/-- FAULT: the verdict manager sends STOP with the first one it receives and stops itself; later ones are logged; another manager sends it
on to the top manager (R326). -/
def execFault (port : Nat) (m : DMsg) (s : State) : Host.Outcome State Fault Refusal :=
  .next (s.droverIn port m mFault fun s =>
    let code := leAt m.payload 0 2
    if s.isVerdictManager then
      if s.drv.faultSent then logReport s.stamped code srcMgmt m.src s.stamp
      else (s.sendStop code m.src).takeStop code m.src
    else if s.drv.role = 2 then s.passOn none { m with dst := 0 }
    else s)

/-- STOP (R326). -/
def execStop (port : Nat) (m : DMsg) (s : State) : Host.Outcome State Fault Refusal :=
  .next (s.droverIn port m mStop fun u => (u.sendDown port m (s.gone port m)).takeStop (leAt m.payload 0 2) (leAt m.payload 2 2))

/-! ## Restart (R327, R328) -/

/-- A module restarts: the slot is read and checked, the islands of the regions are reset (R43; which ones is the model's choice, log 136), queues and
tables are cleared, the state is restored, the epoch adopted, and the job runs from
the slot's resume step (R289, R327, R343). The result code is 0, or the status a JOB_START of the slot would have had (log 50). -/
def State.restartHere (s : State) (slot epoch : Nat) (ups : Upsets) : State × Nat :=
  let s := { s with drv := { s.drv with restartSeen := true } }
  if s.glb.mstate != .faulted || !s.glb.job || s.glb.trip.isSome || s.board.gated then (s, stWrong)
  else
    let (s, bad) := s.slotChecked ups slot
    match bad with
    | some st => (s, st)
    | none =>
      let s := { s with err := { s.err with stopIssue := false },
                        stop := { s.stop with round := 0, id := none, kind := 0, complete := false },
                        ports := s.ports.map fun (e : Nat × Port) => (e.1, { e.2 with rounds := [] }) }
      let s := (s.crossDown false (islandSources [1, 2, 3])).crossUp (islandSources [1, 2, 3])
      let used := s.drv.restartsUsed
      let s := (s.emptyQueues s.gov.step).beginJob (slotOf slot) epoch ups
      let s := { s with drv := { s.drv with restartsUsed := used + 1 } }
      let s := s.setMode .running
      let s := addLife s 0x000B (le 1 slot ++ le 4 epoch ++ le 8 s.glb.resumeStep)
      ((s.retryStalled ups).admitHeads, 0)

/-- The flock stays FAULTED: the verdict manager stops it again with its first fault, and restarts it no more (R328, log 50). -/
def State.restartFails (s : State) : State :=
  let (code, dev) := s.drv.firstFault.getD (faultCode 3 PEER_LOST 0x06, s.drv.device)
  let s := { s with drv := { s.drv with restartFrom := none, faultSent := false, restartOver := true } }
  (s.enterFaulted code dev).sendStop code dev

/-- Whose RESTART_ACK a manager waits for: its members', and the top manager the other managers'. -/
def State.restartAwaited (s : State) : List Nat :=
  ((s.drv.device :: s.otherMembers) ++ (if s.drv.role = 3 then s.otherManagers else [])).filter fun d => !s.drv.restartAcks.contains d

/-- An answer to RESTART: once every one is in, a manager answers for its flock, and the verdict manager reports the restart
(R327, R328). -/
def State.restartAck (s : State) (dev result : Nat) : State :=
  if s.drv.restartFrom.isNone then s
  else if result != 0 then
    if s.isVerdictManager then s.restartFails
    else ({ s with drv := { s.drv with restartFrom := none } } : State).post { type := mRestartAck, dst := 0, payload := le 1 result }
  else
    let s := { s with drv := { s.drv with restartAcks := insertN dev s.drv.restartAcks } }
    if !s.restartAwaited.isEmpty then s
    else
      let s := { s with drv := { s.drv with restartFrom := none } }
      if s.isVerdictManager then
        s.notify 0x03 ModState.faulted.code ModState.running.code 0 s.drv.device s.glb.resumeStep s.drv.restartSlot s.drv.epoch
      else s.post { type := mRestartAck, dst := 0, payload := le 1 0 }

/-- A manager restarts and begins to wait for its flock. -/
def State.managerRestart (s : State) (slot epoch : Nat) (ups : Upsets) : State :=
  let first := s.drv.firstFault
  let (s, r) := s.restartHere slot epoch ups
  let s := { s with drv := { s.drv with restartFrom := some s.board.time, restartAcks := [], restartSlot := slot,
                                        firstFault := s.drv.firstFault.or first } }
  s.restartAck s.drv.device r

/-- What the reads of a slot meet where no operand of a command says it: fetches that fail, a free number of each block's (R341; log 166). -/
def State.slotUpsets (s : State) (slot : Nat) : Upsets :=
  match slotOf slot with
  | none => {}
  | some k => { crc := (s.slotBlocks k (s.slot k).length).zipIdx.map fun (b, i) => (b, Config.free s.fresh (2 ^ 32 + i) % 5) }

/-- AUTOMATIC_RESTART: the verdict manager of a stopped flock restarts it from the newest complete slot, or from the image contents, under
the next epoch (R324, R327). With no complete slot RESTART carries 0xFF, as the argument of JOB_START does (DESIGN CHOICE, log 163). -/
def execAutomaticRestart (s : State) : Host.Outcome State Fault Refusal :=
  if !s.isVerdictManager || s.glb.mstate != .faulted || !s.glb.job || s.glb.trip.isSome || s.board.gated || !s.drv.faultSent ||
     s.drv.restartMax ≤ s.drv.restartsUsed || s.drv.restartFrom.isSome || s.drv.restartSeen || s.drv.restartOver || s.pwr.state != 0 then .next s
  else
    let slot := if s.upd.anyDone then s.upd.newest else 0xFF
    let epoch := s.drv.epoch + 1
    let ups := s.slotUpsets slot
    let m : DMsg := { type := mRestart, payload := le 1 slot ++ le 4 epoch }
    let s := if s.drv.role = 3 then s.otherManagers.foldl (fun s d => s.post { m with dst := d }) s else s
    let s := s.flood s.job.flock.ctrlTree none (s.dmsg { m with mcast := true })
    let s := s.managerRestart slot epoch ups
    .next { s with fresh := s.fresh + 1 }

/-- RESTART: sent on, carried out, and answered to the manager (R327). -/
def execRestart (port : Nat) (m : Met DMsg) (s : State) : Host.Outcome State Fault Refusal :=
  .next (s.droverIn port m.it mRestart (i := .restart port m) fun u =>
    let s := u.sendDown port m.it (s.gone port m.it)
    let slot := leAt m.it.payload 0 1
    let epoch := leAt m.it.payload 1 4
    if s.isVerdictManager then s
    else if s.drv.role = 2 then s.managerRestart slot epoch m.ups
    else
      let (s, r) := s.restartHere slot epoch m.ups
      s.post { type := mRestartAck, dst := s.managerDev, payload := le 1 r })

/-- RESTART_ACK (R327, R328). -/
def execRestartAck (port : Nat) (m : DMsg) (s : State) : Host.Outcome State Fault Refusal :=
  .next (s.droverIn port m mRestartAck fun s =>
    if s.isManager && s.restartAwaited.contains m.src then s.restartAck m.src (leAt m.payload 0 1) else s)

/-! ## Lost peers (R325) -/

/-- The devices that an entry's sum still waits for in this tier-1 flock. -/
def State.entryAwaits (s : State) (e : Reorder) : List Nat :=
  match s.fold? e.fold with
  | none => []
  | some f =>
    let segs := s.segmentsOf e.tensor e.first e.count s.drv.device
    (s.foldMembers f).filter fun d => segs.any fun x => !e.seen.contains (x.1, d)

/-- Devices whose answer a manager's formation waits for (R296). -/
def State.formAwaited (s : State) : List Nat :=
  let d := s.drv
  match d.phase with
  | 0 => s.otherMembers.filter fun x => !d.formAcks.contains x
  | 1 | 4 => (d.probes.filter fun p => p.offset.isNone).map (·.device)
  | 2 => if d.role = 3 then s.otherManagers.filter fun x => !d.formedBelow.contains x else [0]
  | _ => s.otherManagers.filter fun x => !d.formAcks.contains x

/-- The owners, other than this module, whose elements of a copy of a master have not all come in a step (R260, R325). -/
def State.copyAwaits (s : State) (layer t k step c : Nat) : List Nat :=
  let d := s.desc t
  let x := s.ten c
  let got (dev : Nat) : Nat := if x.fillStep = step then look 0 dev x.fillFrom else 0
  if d.owner = none20 || x.desc.count ≤ x.fillCount && x.fillStep = step then []
  else
    (((List.range d.granules).map (s.granuleOwner d.owner)).eraseDups).filter fun dev =>
      dev != s.drv.device &&
        got dev < (s.copyElems (s.liveView c) d (s.copyDim layer t k) fun i => s.granuleOwner d.owner (i / d.granuleElems) == dev).length

/-- Devices awaited under a detail of R325, by what this module waits for. -/
def State.awaited (s : State) (detail : Nat) : List Nat :=
  match detail with
  | 0x01 => (s.drv.reorder.filter fun e => !e.tier1).flatMap s.entryAwaits
  | 0x02 => (s.drv.outHeads.filter fun h => h.sent).map (·.owner)
  | 0x03 =>
    if s.flocksN ≤ 1 || !(s.drv.reorder.any fun e => e.tier1 && !s.summed e) then []
    else [(s.flockIdx + s.flocksN - 1) % s.flocksN * 256 + s.drv.device % 256]
  | 0x04 =>
    if !s.isManager || s.drv.voteFrom.isNone then []
    else ((s.drv.device :: s.otherMembers) ++ (if s.drv.role = 3 then s.otherManagers else [])).filter fun d =>
      !(s.drv.votes.any fun v => v.device == d)
  | 0x05 => if !s.upd.awaiting || s.isVerdictManager then [] else [if s.drv.role = 2 then 0 else s.managerDev]
  | 0x06 =>
    if s.glb.mstate == .starting then (if s.drv.form == 1 && s.isManager then s.formAwaited else [])
    else if s.drv.restartFrom.isSome then s.restartAwaited else []
  | 0x07 =>
    s.drv.paramFrom.flatMap fun x => (s.mastersOf x.1).flatMap fun t => (s.copiesOf x.1 t).zipIdx.flatMap fun c =>
      s.copyAwaits x.1 t c.2 x.2.1 (bufOf c.1 (s.paramBuf x.2.1))
  | _ => []

/-- PEER_LOST: a wait on another module has reached its bound. The lowest device awaited is named (R325). In formation the start-up fails, and
after a restart that was not answered none follows by itself (R296, R328). -/
def execPeerLost (detail device : Nat) (s : State) : Host.Outcome State Fault Refusal :=
  let l := s.awaited detail
  let low := l.all fun d => device ≤ d
  if !l.contains device || !low then .next s
  else
    let forming := s.glb.mstate == .starting
    if !forming && !(s.glb.mstate == .running || s.glb.jobStarting || detail = 0x06) then .next s
    else
      let s := { s with drv := { s.drv with lostValid := true, lostDetail := detail, lostDevice := device,
                                            restartOver := s.drv.restartOver || (!forming && detail == 0x06) } }
      if forming then .next (s.formFails (faultCode 3 PEER_LOST detail) device)
      else .next (raise s (faultCode 3 PEER_LOST detail) (srcDrover 0) device)

end Sys2Proof.Machine
end

