-- ==== Sys2Proof/Machine/StopJob.lean ====
section
/-! DEFINITION. Pause, halt, resume and the end of a job (R165, R490-R497; JOB_PAUSE, JOB_HALT, JOB_RESUME and JOB_ABORT of R418). -/

namespace Sys2Proof.Machine

/-! ## Stop points (R491) -/

/-- Whether a stage stands at its stop point: at rest, before the first instruction of its step, or on a block that waits at SEAL STEP for
a verdict. -/
def State.stageAtStop (s : State) (b : Nat) (g : Stage) : Bool :=
  let r := s.run b g.idx
  r.atRest || (s.blk b).sealWait || (r.oldest == 0 && r.doneAt.isEmpty && !r.replayPass && !((s.blk b).xfer.any fun x => x.stage == g.idx))

/-- Every stage of the module stands at its stop point. -/
def State.allStopped (s : State) : Bool := s.hosting.all fun b => (s.stages b).all (s.stageAtStop b)

/-- The stages that stand at their stop points close the tails of the queues they write (R491). -/
def State.stopStages (s : State) : State :=
  s.hosting.foldl (fun s b => (s.stages b).foldl (fun s g => if s.stageAtStop b g then s.stageStops g else s) s) s

/-! ## Records (R481, R493, R497) -/

/-- The newest step sealed. -/
def State.newestSealed (s : State) : Nat := s.gov.sealedSteps.foldl Nat.max (s.gov.step - 1)

/-- The stages of a block at rest, as a mask. -/
def State.restMask (s : State) (b : Nat) : Nat := ((s.stages b).map fun g => b2n (s.run b g.idx).atRest * 2 ^ g.idx).sum

/-- The layer that is live on a block. -/
def State.layerNow (s : State) (b : Nat) : Nat := let q := s.seqOf b; q.getD ((s.blk b).pos % Nat.max 1 q.length) 0

/-- The record of a stop (kind 0x32): requester, kind, handle and the newest step sealed. -/
def State.stopRec (s : State) (kind dev handle : Nat) : TRec :=
  { kind := 0x32, flags := 4, src := srcMgmt, start := s.localTime srcMgmt 0x32, awDev := dev, detail := kind,
    obj := handle + s.newestSealed % 2 ^ 32 * 2 ^ 32 }

/-- The record of a block at a pause cut (kind 0x33). -/
def State.cutRec (s : State) (b : Nat) : TRec :=
  { kind := 0x33, src := srcBlock b, start := s.localTime (srcBlock b) 0x33, detail := s.restMask b,
    obj := (s.blk b).step % 2 ^ 32 + s.layerNow b * 2 ^ 32 }

/-- Words that the stages of a block could still read, and cells that the queues they write hold. -/
def State.unreadWords (s : State) (b : Nat) : Nat :=
  ((s.queues.filter fun e => match e.2.ent.consumer with | some (.stage c _) => c == b | _ => false).map fun e =>
    (e.2.ready.map fun u => u.words.length).sum).sum

def State.heldCells (s : State) (b : Nat) : Nat :=
  ((s.queues.filter fun e => e.2.ent.producers.any fun p => match p with | some (.stage c _) => c == b | _ => false).map fun e => e.2.held).sum

/-- The halt pair of a block: between commands only a transfer stalled on a page is in flight (R266, R497). -/
def State.haltPair (s : State) (b : Nat) : List TRec :=
  let cursor := (s.blk b).xfer.map (·.cursor)
  let instr := match (s.blk b).xfer with
    | some x => x.stage * 4096 + 2048 + (match s.stage? b x.stage with | some g => (g.locate x.pos).1 % 1024 | none => 0)
    | none => 0
  let n := cursor.getD 0
  let words := Nat.min max32 (s.unreadWords b)
  [{ kind := 0x30, flags := if cursor.isSome then 12 else 0, src := srcBlock b, stage := 0, awStage := 0, start := s.localTime (srcBlock b) 0x30, dur := instr,
     awDev := n % 65536, detail := n / 65536 % 65536 },
   { kind := 0x31, src := s.restMask b, stage := words % 256, awStage := words / 256 % 256, awSrc := words / 65536,
     start := Nat.min max32 (s.heldCells b) + (s.blk b).step % 2 ^ 32 * 2 ^ 32, dur := s.drv.epoch % 2 ^ 32, awDev := s.layerNow b }]

/-- The blocks of a region that host stages. -/
def State.hostingIn (s : State) (r : Nat) : List Nat := s.hosting.filter fun b => regionOf b == r

/-! ## Markers (R492) -/

/-- The fabric ports in use. -/
def State.portsInUse (s : State) : List Nat := (List.range 32).filter fun p => (s.port p).inUse

/-- Round markers sent on every port in use. -/
def State.sendMarkers (s : State) (round : Nat) : State :=
  match s.stop.id with
  | none => s
  | some (dev, handle) =>
    let s := { s with stop := { s.stop with round := round } }
    s.sendAll (s.portsInUse.map fun p => .linkCtl p (markerBytes round dev handle))

/-- A message of a port that is partly received, or that waits to be handed on; link control is no message of Drover's. -/
def Port.hasMessages (x : Port) : Bool := !x.asm.isEmpty || x.delivered.any fun d => d.1 % 128 != 66

/-- The round in progress has arrived on every port in use, and no message is partly received or awaits forwarding: none is to be handed on,
and no block of one waits to be sent (R492). -/
def State.roundIn (s : State) : Bool :=
  s.portsInUse.all fun p => (s.port p).rounds.contains s.stop.round && !(s.port p).hasMessages && (s.port p).txq.all fun f => 65 ≤ f.key

/-- The records of a cut, always written: behind those that wait in a region's FIFO (R482, R493). -/
def State.cutRecords (s : State) (r : Nat) (l : List TRec) : State := l.foldl (fun s x => s.writeTrace r [x]) (s.drainFifo r (traceFifo + 1))

/-- The cut (R493): the waits that it ends, the stop records, PAUSED, and the JOB_PAUSE that is complete. -/
def State.pauseCut (s : State) : State :=
  let (dev, handle) := s.stop.id.getD (s.drv.device, 0)
  let s := s.stopWaits
  let s := [0, 1, 2, 3].foldl (fun (s : State) r => s.cutRecords r (s.stopRec 1 dev handle :: (s.hostingIn r).map s.cutRec)) s
  let s := { s with stop := { s.stop with kind := 1, complete := true, device := dev, time := s.now } }
  (s.setMode .paused).finishAll 0x11 stDone 0 (le 8 s.now)

/-- Every packet written is visible (R222, R493). -/
def State.allVisible (s : State) : Bool := s.queues.all fun e => e.2.broken || !(e.2.units.any fun u => u.written)

/-- The rounds as far as they go; the eighth one in, with every packet visible, completes the pause. A module that is PAUSED already only sends them (R490, R492). -/
def State.tryRounds (s : State) : Nat → State
  | 0 => s
  | n + 1 =>
    if s.stop.round = 0 || !s.roundIn then s
    else if 8 ≤ s.stop.round then (if s.glb.mstate == .running && s.allVisible then s.pauseCut else s)
    else (s.sendMarkers (s.stop.round + 1)).tryRounds n

/-- Whether the module may send its round-1 marker: every stage stopped, no shard left that is not held, every message produced sent
(R492, orders 3 and 4). -/
def State.roundOneReady (s : State) : Bool :=
  s.stop.id.isSome && s.glb.mstate == .running && !s.err.stopIssue && s.allStopped && s.gov.squash.isNone &&
  [0, 1, 2, 3].all (fun r => (s.rgn r).work.all s.shardHeld) &&
  s.portsInUse.all fun p => (s.port p).txq.all fun f => f.key == 66

/-- PAUSE_ROUND_ONE: the round-1 markers are sent; rounds that waited for messages to be handed on go on (R492). -/
def execPauseRoundOne (s : State) : Host.Outcome State Fault Refusal :=
  .next (if s.stop.round != 0 then s.tryRounds 9 else if s.roundOneReady then (s.sendMarkers 1).tryRounds 9 else s)

/-! ## Learning of a pause (R490, R491) -/

/-- Whether an identifier (device, handle) is lower than another. -/
def idBefore (a b : Nat × Nat) : Bool := a.1 < b.1 || (a.1 == b.1 && a.2 < b.2)

/-- The identifier of the pause changes: markers of another identifier no longer count. -/
def State.pauseId (s : State) (id : Nat × Nat) : State :=
  { s with stop := { s.stop with id := some id, round := 0 }, ports := s.ports.map fun (e : Nat × Port) => (e.1, { e.2 with rounds := [] }) }

/-- The module learns of a pause. Its ageing measurement is aborted (R466), its stages stop at their stop points; a lower identifier
replaces the one in force, and a PAUSED module sends the rounds of it. -/
def State.learnPause (s : State) (id : Nat × Nat) : State :=
  let lower := match s.stop.id with
    | some old => idBefore id old
    | none => true
  if !lower then s
  else if s.glb.mstate == .running then (if s.stop.id.isSome then s.pauseId id else (s.pauseId id).ageAborts.stopStages)
  else if s.glb.mstate == .paused && !s.glb.halted && s.stop.id.isSome then ((s.pauseId id).sendMarkers 1).tryRounds 9
  else s

/-- PAUSE_MARKER: counted for the identifier in force (R492). -/
def execPauseMarker (port round device handle : Nat) (s : State) : Host.Outcome State Fault Refusal :=
  if port < 32 && s.heldAt port then .next (s.hold (.pauseMarker port round device handle))
  else if 32 ≤ port || !s.portUp port || round = 0 || 8 < round then .next s
  else
    let s := s.taken port (markerBytes round device handle)
    if s.glb.halted then .next s
    else
      let s := s.learnPause (device, handle)
      if s.stop.id != some (device, handle) then .next s
      else .next ((s.modPort port fun x => { x with rounds := insertN round x.rounds }).tryRounds 9)

/-! ## Halt (R496, R497) -/

/-- The blocks of Drover's that a port has not sent: a message partly sent ends with an abort-flagged block, the others are dropped; the chunks
of the management bulk lane go on (R357, R496). -/
def Port.abortSends (x : Port) : Port :=
  { x with txq := (x.txq.filter fun f => f.kind != 1 || 65 ≤ f.key) ++
                  (x.partway.filter fun e => e.1 < 65).map fun e => abortFlit e.1 (e.2 % 64) (e.2 / 64), onward := [] }

/-- Every fabric port's unsent blocks dropped; the buffers those had come in by return their credits (R361, R496). -/
def State.abortAll (s : State) : State :=
  let l := (List.range 32).flatMap fun p => (s.port p).txq.filter fun f => f.rx.isSome && f.kind == 1 && f.key < 65
  let s := { s with ports := s.ports.map fun (e : Nat × Port) => (e.1, if e.1 < 32 then e.2.abortSends else e.2) }
  let s := l.eraseDups.foldl State.leave s
  (List.range 32).foldl (fun s p => if (s.port p).txq.isEmpty then s else s.flush p) s

/-- The module stops at once: halt records in every region, PAUSED and halted; a pause in progress is overtaken (R494, R496, R497). -/
def State.haltNow (s : State) (dev handle : Nat) : State :=
  if !s.inState [.running, .paused] then s
  else
    let s := s.finishAll 0x11 stAborted
    let s := s.stopWaits
    let s := [0, 1, 2, 3].foldl (fun (s : State) r =>
      s.stopRecords r (s.stopRec 2 dev handle :: (s.hostingIn r).flatMap s.haltPair)) s
    let s := s.abortAll
    let s := { s.ageAborts with glb := { s.ageAborts.glb with halted := true } }
    -- an aborted measurement runs again at once, PAUSED being an eligible point
    let s := (s.setMode .paused).ageBegins
    { s with stop := { s.stop with kind := 2, complete := true, device := dev, time := s.now, id := none, round := 0 } }

/-! ## Resume (R495) -/

/-- The timers of R325 start again from now. -/
def State.restartTimers (s : State) : State :=
  let now := s.board.time
  { s with drv := { s.drv with reorder := s.drv.reorder.map fun (e : Reorder) => { e with since := now },
                               outHeads := s.drv.outHeads.map fun (h : OutHead) => { h with since := now },
                               voteFrom := s.drv.voteFrom.map fun _ => now,
                               paramFrom := s.drv.paramFrom.map fun (x : Nat × Nat × Nat) => (x.1, x.2.1, now) } }

/-- No pause is in progress any more; its markers are discarded. -/
def State.dropPause (s : State) : State :=
  { s with stop := { s.stop with id := none, round := 0 }, ports := s.ports.map fun (e : Nat × Port) => (e.1, { e.2 with rounds := [] }) }

/-- What a pause held back goes on: verdicts, rings, messages and heads. -/
def State.goOn (s : State) : State :=
  let s := s.tryVerdict.startRings.retryStalled.admitHeads
  s.job.folds.foldl (fun s f => s.sendHeads f.fold) s

/-- A PAUSED module that is not halted runs on; one that still pauses abandons the pause, and its JOB_PAUSE ends ABORTED (R495, log 52). -/
def State.resumeNow (s : State) : State :=
  if s.glb.mstate == .paused && !s.glb.halted then
    let s := s.dropPause.restartTimers
    (s.setMode .running).goOn
  else if s.glb.mstate == .running && s.stop.id.isSome then (s.dropPause.finishAll 0x11 stAborted).goOn
  else s

/-! ## Stop requests (R490) -/

/-- A stop request acted on here. -/
def State.stopAct (s : State) (action dev handle : Nat) : State :=
  match action with
  | 1 => s.learnPause (dev, handle)
  | 2 => s.haltNow dev handle
  | 3 => s.resumeNow
  | _ => s

/-- A stop request, accepted here or received: sent on every fabric port in use but the one it came from, once, and acted on. A request is a
repeat when its requester's time base is the same too: a session opened again numbers its handles from 1 (DEDUCED, log 52). -/
def State.stopRequest (s : State) (from' : Option Nat) (action dev handle time : Nat) : State :=
  if from'.isSome && s.stop.seen.contains (action, dev, handle, time) then s
  else
    let s := { s with stop := { s.stop with seen := (action, dev, handle, time) :: s.stop.seen } }
    let s := s.sendAll ((s.portsInUse.filter fun p => some p != from').map fun p => .linkCtl p (stopRequestBytes action dev handle time))
    s.stopAct action dev handle

/-- STOP_REQUEST. -/
def execStopRequest (port action device handle time : Nat) (s : State) : Host.Outcome State Fault Refusal :=
  if port < 32 && s.heldAt port then .next (s.hold (.stopRequest port action device handle time))
  else if 32 ≤ port || !s.portUp port || action = 0 || 3 < action then .next s
  else .next ((s.taken port (stopRequestBytes action device handle time)).stopRequest (some port) action device handle time)

/-! ## The commands (R418) -/

/-- A command without arguments: anything inline is a bad argument. -/
def noArgs (c : Cmd) : Bool := c.args.isEmpty && c.bulkLen == 0

/-- JOB_PAUSE: completes at the cut (R492). -/
def execJobPause (c : Cmd) (s : State) : Host.Outcome State Fault Refusal :=
  .next (s.command c 0x11 fun s h =>
    if !noArgs c then s.finish h stBad else s.stopRequest none 1 s.drv.device h.handle s.now)

/-- JOB_HALT: completes once the halt records are written (R496). -/
def execJobHalt (c : Cmd) (s : State) : Host.Outcome State Fault Refusal :=
  .next (s.command c 0x12 fun s h =>
    if !noArgs c then s.finish h stBad
    else (s.stopRequest none 2 s.drv.device h.handle s.now).finish h stDone (le 8 s.now))

/-- JOB_RESUME: completes when the module is RUNNING (R495). -/
def execJobResume (c : Cmd) (s : State) : Host.Outcome State Fault Refusal :=
  .next (s.command c 0x13 fun s h =>
    if !noArgs c then s.finish h stBad
    else (s.stopRequest none 3 s.drv.device h.handle s.now).finish h stDone (le 8 s.now))

/-- The job is over: its queues are empty (log 62), nothing of it is left in the Drover tables, and no stop of issue stands (R416, R418). -/
def State.endJob (s : State) : State :=
  let s := s.copyStops.finishTake stAborted
  let s := { s.dropPause with drv := { s.drv.begun s.drv.epoch with waitHeads := [], stalled := [] }, glb := { s.glb with halted := false },
                              err := { s.err with stopIssue := false }, upd := { s.upd with awaiting := false },
                              gov := { s.gov with sealedSteps := [] } }
  let s := [0, 1, 2, 3].foldl (fun (s : State) r => s.modRgn r fun g => { g with work := [] }) s
  (s.emptyQueues 0).setMode .ready

/-- JOB_ABORT: READY (R416, R418). -/
def execJobAbort (c : Cmd) (s : State) : Host.Outcome State Fault Refusal :=
  .next (s.command c 0x14 fun s h =>
    if !noArgs c then s.finish h stBad else s.endJob.finish h stDone (le 8 s.now))

end Sys2Proof.Machine
end

