-- ==== Sys2Proof/Machine/Observe.lean ====
section
/-! DEFINITION. Counter captures and trace commands (R476-R485, R498; COUNTERS_READ, TRACE_ARM and TRACE_READ of R418). -/

namespace Sys2Proof.Machine

/-! ## Counter groups (R476) -/

/-- Counters of a group; none for a reserved bit. -/
def groupSize (g : Nat) : Option Nat :=
  match g with
  | 0 => some 10 | 1 => some 10 | 2 => some 6 | 3 => some 5 | 4 => some 5 | 8 => some 10 | 9 => some 4 | 10 => some 6 | 11 => some 4
  | 16 => some 10 | 17 => some 8 | 18 => some 11 | _ => none

/-- The groups of a mask, in rising order. -/
def groupsOf (mask : Nat) : List Nat := (List.range 32).filter fun g => bitAt mask g

/-- Instances of a group within the regions of a scope mask; module groups ignore the scope. -/
def instancesOf (g scope : Nat) : List Nat :=
  let rs := (List.range 4).filter fun r => bitAt scope r
  if g < 8 then rs.flatMap regionBlocks
  else if g < 16 then rs
  else if g = 16 then [0] else if g = 17 then List.range 24 else List.range 33

/-- The source number of an instance (R454); the one Drover instance stands under the slice of region 0 (log 53). -/
def instanceSrc (g i : Nat) : Nat :=
  if g < 8 then srcBlock i else if g < 16 then srcRegion i else if g = 16 then srcDrover 0 else if g = 17 then srcMem i else srcPort i

/-- The values of an instance in the order of its capture block. -/
def State.capture (s : State) (g i : Nat) : List Nat := (List.range ((groupSize g).getD 0)).map fun k => s.ctr g i k

/-- The lost snapshot strobes of an instance (R478, R512). -/
def strobeOf (g i key : Nat) : Bool := 2 ≤ key % 8 && if g = 16 then key / 8 / 4096 == 3 else key / 8 == instanceSrc g i

/-- Whether a snapshot strobe of an instance was lost since its last capture (R42, R478). -/
def State.strobeLost (s : State) (g i : Nat) : Bool := s.cdc.inexact.any (strobeOf g i)

/-- Captures of some instances made: their lost strobes have been marked. -/
def State.strobesMarked (s : State) (l : List (Nat × Nat)) : State :=
  { s with cdc := { s.cdc with inexact := s.cdc.inexact.filter fun k => !l.any fun x => strobeOf x.1 x.2 k } }

/-- The message of a group on VC 24 (R478): every instance is captured in one step, its timestamp late by 0 to 4 ns (R38); one whose strobe was
lost is inexact. -/
def State.groupMsg (s : State) (g scope : Nat) : List Byte :=
  let l := instancesOf g scope
  let times := l.map fun i => s.localTime (instanceSrc g i) g
  let first := times.foldl Nat.min (s.board.time + 4)
  let last := times.foldl Nat.max s.board.time
  le 1 g ++ le 1 0 ++ le 2 ((groupSize g).getD 0) ++ le 4 l.length ++ le 8 first ++ le 8 last ++ le 8 0 ++
  l.flatMap fun i =>
    le 2 i ++ le 2 (b2n (s.strobeLost g i) + 2 * b2n (!bitAt s.job.ctrMask g)) ++ le 4 0 ++ le 8 s.clearTime ++ (s.capture g i).flatMap (le 8)

/-! ## Data on the bulk VCs -/

/-- The messages of a command sent on a VC of its session, the handle holding its result until the last block is gone (R409). -/
def State.sendData (s : State) (h : Hnd) (vc : Nat) (l : List (List Byte)) (result : List Byte) : State :=
  let s := s.setHnd { h with sending := some (32, 2 * vc), result := result }
  (s.sendOwned h.handle 32 (2 * vc) (l.map fun m => .bulk h.sess vc m)).settleSends

/-- COUNTERS_READ (R478). -/
def execCountersRead (c : Cmd) (s : State) : Host.Outcome State Fault Refusal :=
  .next (s.command c 0x50 fun s h =>
    let mask := leAt c.args 0 4
    let scope := leAt c.args 4 4
    if c.args.length != 8 || c.bulkLen != 0 || 16 ≤ scope || !((groupsOf mask).all fun g => (groupSize g).isSome) then s.finish h stBad
    else
      let s := s.bankCycles
      let l := (groupsOf mask).map fun g => s.groupMsg g scope
      let s := s.strobesMarked ((groupsOf mask).flatMap fun g => (instancesOf g scope).map fun i => (g, i))
      s.sendData h 24 l (le 4 l.length ++ le 8 (l.map List.length).sum))

/-- PERIODIC_CAPTURE: every counter of every enabled group becomes a record of kind 0x21 in the buffer of its region (R479). -/
def execPeriodicCapture (s : State) : Host.Outcome State Fault Refusal :=
  if !s.computeOn || s.job.ctrMs = 0 || s.pwr.busy then .next s
  else
    let s := s.bankCycles
    let groups := (groupsOf s.job.ctrMask).filter fun g => (groupSize g).isSome
    let s := groups.foldl (fun s g =>
      (instancesOf g 15).foldl (fun s i =>
        let src := instanceSrc g i
        if !(s.rgn (traceRegion src)).trace.capturing then s
        else (s.capture g i).zipIdx.foldl (fun (s : State) (v, k) =>
          s.trace (traceRegion src) { kind := 0x21, src := src, start := s.localTime src (g * 256 + k), flags := b2n (s.strobeLost g i),
                                       detail := g * 256 + k, obj := v }) s) s) s
    let s := s.strobesMarked (groups.flatMap fun g => (instancesOf g 15).map fun i => (g, i))
    .next { s with trc := { s.trc with lastCapture := s.board.time } }

/-! ## Trace buffers -/

/-- The 32 bytes of a record (R481). -/
def TRec.bytes' (r : TRec) : List Byte :=
  le 1 r.kind ++ le 1 r.flags ++ le 2 r.src ++ le 1 r.stage ++ le 1 r.awStage ++ le 2 r.awSrc ++ le 8 r.start ++ le 4 r.dur ++
  le 2 r.awDev ++ le 2 r.detail ++ le 8 r.obj

/-- The message of a region on VC 22 (R485): header, then the records, the oldest first. -/
def State.traceMsg (s : State) (r : Nat) : List Byte :=
  let t := (s.rgn r).trace
  le 1 r ++ le 1 (b2n t.armed + 2 * b2n t.triggered + 4 * b2n t.frozen + 8 * b2n t.wrapped) ++ le 2 s.drv.device ++ le 4 t.recs.length ++
  le 8 t.drops ++ le 8 t.trigTime ++ le 8 t.freezeTime ++ le 8 (unsigned 64 s.drv.offset) ++ le 2 s.drv.offsetErr ++ le 6 0 ++
  le 16 Config.serial.toNat ++ t.recs.flatMap TRec.bytes'

/-- TRACE_READ (R485). -/
def execTraceRead (c : Cmd) (s : State) : Host.Outcome State Fault Refusal :=
  .next (s.command c 0x52 fun s h =>
    let mask := leAt c.args 0 4
    let rs := (List.range 4).filter fun r => bitAt mask r
    if c.args.length != 4 || c.bulkLen != 0 || 16 ≤ mask then s.finish h stBad
    else if rs.any fun r => (s.rgn r).trace.armed && !(s.rgn r).trace.frozen then s.finish h stWrong
    else
      let l := rs.map s.traceMsg
      s.sendData h 22 l (le 8 (l.map List.length).sum ++ le 8 (rs.map fun r => (s.rgn r).trace.drops).sum))

/-- Every armed region of a mask freezes, without a trigger (R483). -/
def State.freezeArmed (s : State) (mask : Nat) : State :=
  [0, 1, 2, 3].foldl (fun (s : State) r =>
    if bitAt mask r then s.modRgn r fun g => g.modTrace (·.freeze (s.freezeTime r)) else s) s

/-- Whether a TRACE_POLICY body is in its ranges (R394, R484). -/
def TraceBody.legal (b : TraceBody) : Bool := b.regions < 16 && b.depth ≤ 8192 && b.kind < 7

/-- TRACE_ARM: the regions of its mask are cleared and armed, or frozen (R483). -/
def execTraceArm (c : Cmd) (s : State) : Host.Outcome State Fault Refusal :=
  .next (s.command c 0x51 fun s h =>
    let b := readTrace c.args
    if c.args.length != 32 || c.bulkLen != 0 || leAt c.args 25 7 != 0 || !b.legal then s.finish h stBad
    else (if bitAt b.flags 1 then s.freezeArmed b.regions else s.armTrace b).finish h stDone)

/-- TRACE_RECORD: a record, or a watch pair with its second slot, reaches the input FIFO of a capturing region (R480, R487). -/
def execTraceRecord (region : Nat) (r : TraceEvent) (s : State) : Host.Outcome State Fault Refusal :=
  let whole := match r.second with
    | none => r.fst.kind != 0x28 && r.fst.kind != 0x29
    | some x => r.fst.kind == 0x28 && x.kind == 0x29
  if 4 ≤ region || !whole || !s.computeOn then .next s else .next (s.offer region (r.fst :: r.second.toList))

/-- TRACE_FREEZE: the records after the trigger are all written, and the region freezes (R484). -/
def execTraceFreeze (region : Nat) (s : State) : Host.Outcome State Fault Refusal :=
  if 4 ≤ region || !(s.rgn region).trace.ended then .next s
  else .next (s.modRgn region fun g => g.modTrace (·.freeze (s.freezeTime region)))

/-- TRACE_TIME_TRIGGER: the time base has reached the argument of a trigger of kind 5 (R484). -/
def execTraceTimeTrigger (s : State) : Host.Outcome State Fault Refusal :=
  if s.trc.body.kind = 5 && s.trc.body.arg ≤ s.board.time && s.computeOn then .next s.fireTrigger else .next s

/-- FORCE in TRC_CTL (R484, R498). -/
def State.force (s : State) : State := if s.winAnswers .trc then s.fireTrigger else s

/-- DISARM in TRC_CTL (R483, R498). -/
def State.disarm (s : State) : State := if s.winAnswers .trc then s.freezeArmed 15 else s

/-- FORCE. -/
def execForce (s : State) : Host.Outcome State Fault Refusal := .next (s.rowWrite .trcCtl State.force)

/-- DISARM. -/
def execDisarm (s : State) : Host.Outcome State Fault Refusal := .next (s.rowWrite .trcCtl State.disarm)

end Sys2Proof.Machine
end

