-- ==== Sys2Proof/Machine/Host.lean ====
section
/-! DEFINITION. Sessions (R411, R412), the commands that name the module, start its job or move its snapshots (R418, R421-R423), input
streams (R420) and aborts (R419). -/

namespace Sys2Proof.Machine

/-! ## Sessions -/

/-- OPEN: the session is open in its role, or the open is refused (R411). -/
def execOpenSession (sess : Nat) (msg : List Byte) (s : State) : Host.Outcome State Fault Refusal :=
  if s.heldAt 32 then .next (s.hold (.openSession sess msg))
  else if !s.hostUp || leAt msg 0 1 != 0x01 || msg.length < 16 || 64 ≤ sess then .next s
  else
    let s := s.taken 32 msg
    let role := leAt msg 1 1
    let answer (st : Nat) (s : State) : Host.Outcome State Fault Refusal := .next (s.send (.openReply sess st s.now))
    if (s.sess sess).isOpen || 1 < role then answer stBad s
    else if role = 1 && 4 ≤ (s.openSessions.filter fun n => (s.sess n).oper).length then answer stNotPerm s
    else answer stDone (s.setSess sess { isOpen := true, oper := role == 1, next := 1 })

/-- CLOSE (R412). -/
def execCloseSession (sess : Nat) (s : State) : Host.Outcome State Fault Refusal :=
  if s.heldAt 32 then .next (s.hold (.closeSession sess))
  else if !s.hostUp then .next s else .next ((s.taken 32 (le 1 0x02 ++ le 15 0)).dropSession sess)

/-- Whether a head-lane message has a listed kind and its whole header (R407). -/
def headLegal (msg : List Byte) : Bool :=
  match leAt msg 0 1 with
  | 0x01 | 0x02 => 16 ≤ msg.length
  | 0x03 => 32 ≤ msg.length
  | _ => false

/-- HCI_BAD_MESSAGE: discarded and counted (R407). -/
def execHciBadMessage (sess : Nat) (msg : List Byte) (s : State) : Host.Outcome State Fault Refusal :=
  if s.heldAt 32 then .next (s.hold (.hciBadMessage sess msg))
  else if !s.hostUp || headLegal msg then .next s
  else
    let s := s.taken 32 msg
    .next { s with hci := { s.hci with bad := satAdd max32 s.hci.bad 1 } }

/-- UNLISTED_OPCODE: acknowledged BAD_ARGUMENT, without a handle (R408). -/
def execUnlistedOpcode (opcode : Nat) (c : Cmd) (s : State) : Host.Outcome State Fault Refusal :=
  let listed := [0x01, 0x02, 0x10, 0x11, 0x12, 0x13, 0x14, 0x20, 0x21, 0x30, 0x40, 0x41, 0x50, 0x51, 0x52, 0x60, 0x70, 0x71, 0x7F]
  if listed.contains opcode then .next s
  else if s.heldAt 32 then .next (s.hold (.unlistedOpcode opcode c))
  else if !s.hostUp || !(s.sess c.sess).isOpen then .next s
  else .next ((s.taken 32 (cmdBytes opcode c)).send (.ack c.sess stBad 0 c.tag))

/-! ## Identity (R418, R421) -/

/-- "VT4M-1088-B" in ASCII, padded to 16 bytes. -/
def partNumber : List Byte := [0x56, 0x54, 0x34, 0x4D, 0x2D, 0x31, 0x30, 0x38, 0x38, 0x2D, 0x42, 0, 0, 0, 0, 0]

/-- The result of IDENTIFY. -/
def State.identity (s : State) : List Byte :=
  le 16 Config.serial.toNat ++ partNumber ++ le 2 0x4202 ++ le 1 s.glb.mstate.code ++ le 1 s.pwr.state ++ le 4 s.glb.fwVersion ++
  le 8 s.glb.jobId ++ le 2 s.drv.device ++ le 1 s.drv.role ++ le 1 (b2n s.glb.recovery + 2 * b2n s.glb.halted) ++ le 4 s.glb.signer ++
  le 8 s.now

/-- IDENTIFY. -/
def execIdentify (c : Cmd) (s : State) : Host.Outcome State Fault Refusal :=
  .next (s.command c 0x01 fun s h => if !noArgs c then s.finish h stBad else s.finish h stDone s.identity)

/-- Bytes 0x000 to 0x0EF of an attestation (R421). -/
def State.attestBody (s : State) (nonce : List Byte) : List Byte :=
  le 16 Config.serial.toNat ++ le 64 Config.deviceKey.toNat ++ le 64 Config.endorsement.toNat ++ nonce ++ le 32 s.glb.imageDigest ++
  le 8 s.glb.jobId ++ le 4 s.glb.signer ++ le 4 s.glb.fwVersion ++ le 2 0x4202 ++ le 1 s.glb.mstate.code ++ le 1 s.pwr.state ++ le 4 0 ++
  le 8 s.now

/-- ATTEST. -/
def execAttest (c : Cmd) (s : State) : Host.Outcome State Fault Refusal :=
  .next (s.command c 0x02 fun s h =>
    if c.args.length != 32 || c.bulkLen != 0 then s.finish h stBad
    else let b := s.attestBody c.args; s.finish h stDone (b ++ le 64 (Config.sm2Sign b).toNat))

/-! ## JOB_START -/

/-- JOB_START: the slot is checked, the state restored or loaded, and the refresh run; it completes with the first instruction fired
(R289, R418), under epoch 0 (R324). A reload that failed at the exit from P3 ends it with JOB_FAULT (R437). -/
def execJobStart (c : Met Cmd) (s : State) : Host.Outcome State Fault Refusal :=
  .next (s.command c.it 0x10 (i := .jobStart c) fun s h =>
    let k := leAt c.it.args 0 1
    if c.it.args.length != 8 || c.it.bulkLen != 0 || !([0, 1, 0xFF].contains k) || leAt c.it.args 1 7 != 0 then s.finish h stBad
    else match s.glb.reloadFault with
      | some code => s.finish h stJobFault [] 0 code
      | none =>
        if s.glb.jobStarting || !s.job.loaded then s.finish h stWrong
        else
          -- a block that fails here is a job fault of the starting job, which ends the command with its code
          let s := s.setHnd { h with arg := k }
          let x := ({ s with glb := { s.glb with jobStarting := true }, err := { s.err with stopIssue := false } } : State).slotChecked c.ups k
          match x.2 with
          | some st => if st = stJobFault then x.1 else (({ x.1 with glb := { x.1.glb with jobStarting := false } } : State)).finish h st
          | none => x.1.beginJob (slotOf k) 0 c.ups)

/-! ## Snapshots (R286, R422) -/

/-- Whether a snapshot is being taken or written under another handle. -/
def State.snapRunning (s : State) (h : Hnd) : Bool :=
  s.upd.snapBusy || s.upd.snapArmed || s.hci.handles.any fun x => x.opcode == 0x20 && x.handle != h.handle

/-- Whether the slot that a snapshot would write is being shipped. -/
def State.nextShipped (s : State) : Bool := s.hci.handles.any fun x => x.opcode == 0x21 && x.sending.isSome && x.arg == s.nextSlot

/-- Arguments of SNAPSHOT: operation and 7 reserved bytes. -/
def snapArgs (c : Cmd) : Option Nat :=
  let op := leAt c.args 0 1
  if c.args.length != 8 || leAt c.args 1 7 != 0 || 2 ≤ op then none else some op

/-- SNAPSHOT take: the next commit verdict is marked, or the copy of a PAUSED job starts at once (R286). -/
def execSnapshotTake (c : Cmd) (s : State) : Host.Outcome State Fault Refusal :=
  if snapArgs c = some 1 then .next s
  else
    .next (s.command c 0x20 fun s h =>
      match snapArgs c with
      | none => s.finish h stBad
      | some _ =>
        if !(s.glb.mstate == .running || (s.glb.mstate == .paused && !s.glb.halted)) then s.finish h stWrong
        else if !s.isVerdictManager then s.finish h stNotPerm
        else if c.bulkLen != 0 then s.finish h stBad
        else if s.snapRunning h || s.nextShipped then s.finish h stNoRes
        else if s.glb.mstate == .paused then s.snapBegins s.gov.step
        else { s with upd := { s.upd with snapArmed := true } })

/-- SNAPSHOT write: the slot is opened for the bulk argument (R422). -/
def execSnapshotWrite (c : Cmd) (s : State) : Host.Outcome State Fault Refusal :=
  if snapArgs c != some 1 then .next s
  else
    .next (s.command c 0x20 (i := .snapshotWrite c) fun s h =>
      if s.glb.mstate != .ready || s.glb.jobStarting then s.finish h stWrong
      else if c.bulkLen < 256 then s.finish h stBad
      else if s.snapRunning h || s.nextShipped || s.slotBytes < c.bulkLen then s.finish h stNoRes
      else
        let s := s.setHnd { h with arg := 1, bulkLen := c.bulkLen }
        { s with upd := { s.upd with slots := drop s.nextSlot s.upd.slots } })

/-- The acceptance check of R58 over a section of a slot image: elements, then scale bytes; and the elements rounded to zero. -/
def State.acceptSection (s : State) (formats : List (Nat × Nat)) (ty t : Nat) (body : List Byte) : List Byte × Nat :=
  let fw := ((formats.find? fun x => x.1 == t).map (·.2)).getD (s.desc t).fmtw
  let d := s.laidIn t fw
  let n := (s.ownedElems { t := t, d := d }).length
  if ty = 0x05 || ty = 0x06 || d.bs = 0 then (body, 0)
  else
    let nb := ceilDiv (n * d.w) 8
    let els := unpackBits d.w n body
    let done := (pieces d.bs els).zipIdx.map fun (l, k) => Machine.acceptBlock (fwFmt fw) (body.getD (nb + k) 0).toNat l
    (packBits d.w (done.flatMap (·.2.1)) ++ done.map (fun (x : Nat × List Nat × Nat) => BitVec.ofNat 8 x.1) ++
      body.drop (nb + done.length), (done.map (·.2.2)).sum)

/-- A slot image as the module stores it: every section accepted, the header with the digest, the complete flag and the module's
signature (R58, R422); and the elements rounded to zero. -/
def State.acceptSlot (s : State) (image : List Byte) : List Byte × Nat :=
  let formats := slotFormats image
  let done := (slotParts image).map fun (ty, t, b) => (ty, t, s.acceptSection formats ty t b)
  let parts := done.map fun (ty, t, x) => (ty, t, x.1)
  let body := slotBody parts
  let head := slotHead parts.length (leAt image 6 2 + 1) (leAt image 8 16) (leAt image 0x18 8) (leAt image 0x20 8) (leAt image 0x28 8)
    (leAt image 0x30 8) (leAt image 0x40 32) (Config.sm3 body).toNat
  (signedSlot head body, (done.map fun x => x.2.2.2).sum)

/-- The bulk argument is in: the image is checked, its format words too (R64), and the slot signed complete (R422). -/
def State.writeSlot (s : State) (h : Hnd) (ups : Upsets) : State :=
  let l := h.bulk
  if leAt l 0 4 != 0x00005301 || bitAt (leAt l 6 2) 0 || leAt l 0x60 32 != 0 || leAt l 0x80 64 != 0 then s.finish h stBad
  else if leAt l 8 16 != Config.serial.toNat || leAt l 0x40 32 != s.job.layout then s.finish h stSig
  else if !(slotFormats l).all (fun x => fwLegal x.2) then s.finish h stBad
  else
    let k := s.nextSlot
    let (image, rz) := s.acceptSlot l
    let s := { s with glb := { s.glb with acceptRz := s.glb.acceptRz + rz } }
    let x := s.writeSlotBlocks ups k image.length
    if x.2 then x.1.finish h stJobFault [] 0 (faultCode 3 CRC_EXHAUST 0x04)
    else (x.1.slotDone k image).finish h stDone (le 1 k ++ le 8 (slotStep image))

/-- BULK_ARGUMENT: matched by tag to the session's oldest command that awaits one (R422). -/
def execBulkArgument (sess tag rsv : Nat) (data : Met (List Byte)) (s : State) : Host.Outcome State Fault Refusal :=
  if s.heldAt 32 then .next (s.hold (.bulkArgument sess tag rsv data))
  else if !s.hostUp || !(s.sess sess).isOpen then .next s
  else
    let s := s.taken 32 (bulkBytes tag rsv data.it)
    match s.hci.handles.find? fun h => h.sess == sess && h.opcode == 0x20 && h.arg == 1 with
    | none => .next s
    | some h =>
      let bulk := h.bulk ++ data.it
      if h.tag != tag || rsv != 0 || 2 ^ 24 < data.it.length + 8 || h.bulkLen < bulk.length then .next (s.finish h stBad)
      else
        let h := { h with bulk := bulk }
        let s := s.setHnd h
        .next (if bulk.length = h.bulkLen then s.writeSlot h data.ups else s)

/-! ## Shipping (R288, R423) -/

/-- Bytes of a chunk. -/
def chunkSize : Nat := 2 ^ 20

/-- The chunks of a slot, each with its header. -/
def chunksOf (image : List Byte) : List (List Byte) :=
  let l := pieces chunkSize image
  l.zipIdx.map fun (b, k) => chunkBytes k l.length b.length (crc32c b) b

/-- The slot that a ship names: the newest one by default. -/
def State.shipSlot (s : State) (k : Nat) : Option Nat :=
  let k := if k = 0xFF then s.upd.newest else k
  if slotComplete (s.slot k) then some k else none

/-- SNAPSHOT_SHIP: every chunk is sent to the session on VC 25, or to a device on the management bulk lane of its route. The slot's blocks are
read first; one that fails for good leaves the slot not complete, and nothing is sent (R341, R343, log 115). -/
def execSnapshotShip (c : Met Cmd) (s : State) : Host.Outcome State Fault Refusal :=
  .next (s.command c.it 0x21 (i := .snapshotShip c) fun s h =>
    let k := leAt c.it.args 0 1
    let kind := leAt c.it.args 1 1
    let dev := leAt c.it.args 2 2
    if c.it.args.length != 8 || c.it.bulkLen != 0 || !([0, 1, 0xFF].contains k) || 2 ≤ kind || leAt c.it.args 4 4 != 0 ||
       (kind = 1 && !(s.job.flock.routes.any fun r => r.1 == dev)) then s.finish h stBad
    else if s.shipping then s.finish h stNoRes
    else match s.shipSlot k with
      | none => s.finish h stNoRes
      | some k =>
        let image := s.slot k
        let l := chunksOf image
        let result := le 4 l.length ++ le 8 image.length
        let x := s.readSlot c.ups k
        let s := x.1
        let h := { h with arg := k }
        if x.2 then s.finish h stJobFault (le 12 0) 0 (faultCode 3 CRC_EXHAUST (if s.mem.crcFrame < lpFrames then 0x02 else 0x03))
        else if kind = 0 then s.sendData h 25 l result
        else
          let p := s.route dev
          let s := s.setHnd { h with sending := some (p, 65), result := result }
          (s.sendOwned h.handle p 65 (l.map fun m => .chunk p dev m)).settleSends)

/-- The blocks of a slot that chunk `index` takes (R288, R347). -/
def State.chunkBlocks (s : State) (k index len : Nat) : List Nat :=
  (s.slotBlocks k (index * chunkSize + len)).drop (index * (chunkSize / 256))

/-- A chunk for this module: kept where its CRC holds and its blocks are written (R342); once every chunk is in and the header's signature
verifies against the sender's attested key, the slot is complete. It is not the newest snapshot of this module (R423). -/
def State.keepChunk (s : State) (src index count len crc : Nat) (data : List Byte) (ups : Upsets) : State :=
  let busy := s.upd.snapBusy || s.nextShipped || s.hci.handles.any fun h => h.opcode == 0x20 && h.arg == 1
  if busy || len != data.length || crc != crc32c data || chunkSize < len || count ≤ index || s.slotBytes < count * chunkSize then s
  else
    let k := s.nextSlot
    let old := if index = 0 then [] else s.upd.chunks
    let x := ({ s with upd := { s.upd with slots := drop k s.upd.slots, chunks := old } } : State).writeBlocks ups (s.chunkBlocks k index len)
    if x.2 then x.1
    else
      let got := put index data old
      let s := { x.1 with upd := { x.1.upd with chunks := got } }
      if !((List.range count).all fun i => has i got) then s
      else
        let image := (List.range count).flatMap fun i => look [] i got
        let s := { s with upd := { s.upd with chunks := [] } }
        if slotComplete image && Config.sm2Verify (Config.peerKey src) (image.take 0x80) (BitVec.ofNat 512 (leAt image 0x80 64)) then
          { s with upd := { s.upd with slots := put k image s.upd.slots } }
        else s

/-- SNAPSHOT_CHUNK: a chunk for this module is kept; one for another device goes on along ROUTES, on the same lane (R301, R423). -/
def execSnapshotChunk (port src index count len crc : Nat) (data : Met Chunk) (s : State) : Host.Outcome State Fault Refusal :=
  if port < 32 && s.heldAt port then .next (s.hold (.snapshotChunk port src index count len crc data))
  else if 32 ≤ port || !s.portUp port then .next s
  else
    let s := s.taken port (chunkBytes index count len crc data.it.data)
    if data.it.dst = s.drv.device then .next (s.keepChunk src index count len crc data.it.data data.ups)
    else if s.job.flock.routes.any fun r => r.1 == data.it.dst then .next (s.sendAll [.chunk (s.route data.it.dst) data.it.dst (chunkBytes index count len crc data.it.data)])
    else .next s

/-! ## Input streams (R420) -/

/-- The ingress queue of a stream number (R386, R415). -/
def State.streamQueue (s : State) (k : Nat) : Option QEntry :=
  (s.job.queues.find? fun e => fromIngress e.2 && e.2.stream == k).map (·.2)

/-- The stream number of a command, where it is in range and names an ingress queue. -/
def State.streamArg (s : State) (c : Cmd) : Option (Nat × QEntry) :=
  let k := leAt c.args 0 1
  if c.args.length != 8 || c.bulkLen != 0 || leAt c.args 1 7 != 0 || 16 ≤ k then none else (s.streamQueue k).map fun e => (k, e)

/-- STREAM_OPEN: bound to the session until close; t_open is now (R239). -/
def execStreamOpen (c : Cmd) (s : State) : Host.Outcome State Fault Refusal :=
  .next (s.command c 0x70 fun s h =>
    match s.streamArg c with
    | none => s.finish h stBad
    | some (k, e) =>
      if has k s.hci.streams then s.finish h stNoRes
      else (s.setStream k { sess := c.sess, queue := e.qid, topen := s.now }).finish h stDone (le 8 s.now))

/-- STREAM_CLOSE: completes once every message accepted before it is visible. -/
def execStreamClose (c : Cmd) (s : State) : Host.Outcome State Fault Refusal :=
  .next (s.command c 0x71 fun s h =>
    match s.streamArg c with
    | none => s.finish h stBad
    | some (k, _) =>
      match find? k s.hci.streams with
      | none => s.finish h stWrong
      | some x =>
        if x.closing then s.finish h stWrong
        else ((s.setHnd { h with arg := k }).setStream k { x with closing := true }).streamSettles k)

/-- STREAM_MESSAGE: one packet of the queue, which the port asks cells for; rejected for its session or its length (R223, R420). -/
def execStreamMessage (sess stream : Nat) (data : List Byte) (s : State) : Host.Outcome State Fault Refusal :=
  if s.heldAt 32 then .next (s.hold (.streamMessage sess stream data))
  else if !s.hostUp || 16 ≤ stream then .next s
  else
    let s := s.taken 32 data
    match find? stream s.hci.streams with
    | none => .next s
    | some x =>
      if x.closing then .next s
      else if x.sess != sess then .next (s.setStream stream { x with rejected := x.rejected + 1 })
      else if (s.queue? x.queue).any fun q => q.ent.len == data.length then
        .next (s.setStream stream { x with accepted := x.accepted + 1, waiting := x.waiting ++ [data] })
      else .next ((s.setStream stream { x with rejected := x.rejected + 1 }).count 8 (qRegion x.queue) 6 1)

/-! ## ABORT_HANDLE (R419) -/

/-- The blocks of a handle that a port has not sent: a message of it partly sent ends with an abort-flagged block, the others are
dropped (R419). -/
def State.cutOwn (s : State) (p k handle : Nat) : State :=
  let x := s.port p
  let mine (f : Flit) : Bool := f.own == handle % 2 ^ 32
  let cut (f : Flit) : List Flit := [{ abortFlit k f.sess 0 with own := 0 }]
  let l := match x.txq.find? mine with
    | some f => if f.som then [] else cut f
    | none => []
  (s.setPort p { x with txq := l ++ x.txq.filter fun f => !mine f }).catchUp p

/-- Messages of a handle that a port has not sent whole. -/
def State.unsentMsgs (s : State) (p handle : Nat) : Nat := ((s.port p).txq.filter fun f => f.own == handle % 2 ^ 32 && f.eom).length

/-- The target stops at its abort point and completes ABORTED; none where it has no abort point. -/
def State.abortNow (s : State) (t : Hnd) : Option State :=
  match t.sending with
  | some (p, k) =>
    let sent := leAt t.result 0 4 - s.unsentMsgs p t.handle
    let result := if t.opcode = 0x21 then le 4 sent ++ le 8 (sent * chunkSize) else []
    some ((s.cutOwn p k t.handle).finish t stAborted result)
  | none =>
    if t.opcode = 0x10 && s.glb.jobStarting then
      some (({ s with glb := { s.glb with jobStarting := false }, upd := { s.upd with refresh := false, refreshLeft := [], restoring := none } } : State).finish t stAborted)
    else if t.opcode = 0x11 && s.glb.mstate == .running then some ((s.dropPause.finish t stAborted).goOn)
    else if t.opcode = 0x20 then some ((if t.arg = 0 then s.copyStops else s).finish t stAborted)
    else if t.opcode = 0x30 && s.pwr.busy then some ((s.entryUndone.countRefusal 0x06).finish t stAborted)
    else none

/-- The outstanding target that a 32-bit handle names; a closed session's, where no open one has it. -/
def State.target (s : State) (n : Nat) : Option Hnd :=
  (s.hci.handles.find? fun x => x.handle == n).or (s.hci.handles.find? fun x => x.handle % 2 ^ 32 == n)

/-- ABORT_HANDLE: the abort sets the target's latch and the target stops at its abort point; or the target's completion had it first; or
the target has no abort point, and its completion will have it. -/
def execAbortHandle (c : Cmd) (s : State) : Host.Outcome State Fault Refusal :=
  .next (s.command c 0x7F fun s h =>
    let n := leAt c.args 0 4
    if c.args.length != 8 || c.bulkLen != 0 || leAt c.args 4 4 != 0 || n = h.handle then s.finish h stBad
    else if !(s.sess c.sess).oper && n / 2 ^ 26 != c.sess then s.finish h stNotPerm
    else match s.target n with
      | some t =>
        let s := s.setHnd { h with arg := t.handle }
        match s.abortNow t with
        | some s => { s with hci := { s.hci with won := satAdd 0xFFFF s.hci.won 1 } }
        | none => s
      | none =>
        match find? n (s.sess (n / 2 ^ 26)).remembered with
        | some st =>
          let s := { s with hci := { s.hci with late := satAdd 0xFFFF s.hci.late 1 } }
          s.finish h stAlready (le 1 st ++ le 7 0)
        | none => s.finish h stBad)

end Sys2Proof.Machine
end

