-- ==== Sys2Proof/Machine/Energy.lean ====
section
/-! DEFINITION. Energy: rail samples and their shares (R440-R443), base records by time (R442), the signing of the chain and its head
(R445-R448), flock records (R450, R453) and ENERGY_REPORT (R449). -/

namespace Sys2Proof.Machine

/-! ## Samples (R440, R441, R443) -/

/-- A share of `e` among `n` consumers added to a fraction. -/
def addShare (f : Nat × Nat) (e n : Nat) : Nat × Nat :=
  let a := f.1 * n + e * f.2
  let b := f.2 * n
  let g := Nat.gcd a b
  if g = 0 then (a, b) else (a / g, b / g)

/-- The energy that one sample adds to a domain, in nJ: the sample, and for each missing period before it the mean of its neighbours. -/
def sampleEnergy (last missing nj : Nat) : Nat := nj + missing * ((last + nj) / 2)

/-- A sample of one domain: accumulator and fraction, the last sample, the periods missing. -/
def Eng.sample (e : Eng) (d : Nat) : Option Nat → Eng
  | none => { e with missing := e.missing.set d (e.missing.getD d 0 + 1) }
  | some nj =>
    let sum := e.frac.getD d 0 + sampleEnergy (e.lastSample.getD d 0) (e.missing.getD d 0) nj
    { e with acc := e.acc.set d ((e.acc.getD d 0 + sum / 1000000) % 2 ^ 64), frac := e.frac.set d (sum % 1000000),
             lastSample := e.lastSample.set d nj, missing := e.missing.set d 0 }

/-- The shares of a handle after a sample: of each domain sampled its share of this period among `n`, and of every period that was missing its
share of the mean among those present at that period's end (R441, R443). -/
def Eng.sharesOf (e : Eng) (h : Hnd) (nj : List (Option Nat)) (n : Nat) : List (Nat × Nat) :=
  h.shares.zipIdx.map fun (f, d) => match nj.getD d none with
    | none => f
    | some x =>
      (e.absent.filter fun a => a.1 == d && a.2.1.contains h.handle).foldl (fun f a => addShare f ((e.lastSample.getD d 0 + x) / 2) a.2.2) (addShare f x n)

/-- Whether the rail of a domain is switched off, so that it reads 0 without sampling (R426, R440, R459, log 140): the dies' rails before
order 4 and in P2 without retention, with the stacks' and the optics' in P3, and with the packages' after a trip. -/
def State.railOff (s : State) (d : Nat) : Bool :=
  let dormant := s.pwr.state == 3 || s.glb.trip.isSome
  match d with
  | 0 | 1 => !(s.rgn 0).powered || (s.pwr.state == 2 && !s.job.retain) || dormant
  | 2 | 4 => dormant
  | 3 => s.glb.trip.isSome
  | _ => false

/-- The bin of a temperature: below 5 °C, 5 °C each, 125 °C or above. -/
def tempBin (c : Int) : Nat := Nat.min 25 (c.toNat / 5)

/-- The bin of a supply in mV: below 0.60 V, 0.01 V each, 0.90 V or above. -/
def voltBin (mv : Nat) : Nat := if mv < 600 then 0 else Nat.min 31 ((mv - 600) / 10 + 1)

/-- The seconds that a die spent at a temperature and a supply, counted in their bins: 26 temperature counts of each die come before the 32
voltage counts of each. -/
def Age.spent (a : Age) (d : DieRead) : Age :=
  if 4 ≤ d.die then a
  else
    let add (l : List Nat) (k : Nat) : List Nat := l.set k (l.getD k 0 + d.secs)
    { a with hist := add (add a.hist (26 * d.die + tempBin d.temp)) (104 + 32 * d.die + voltBin d.mv) }

/-- RAIL_SAMPLE: one sample of every domain, in nJ, none where a monitor's is missing. A period with a missing sample is a gap, counted
once; the period's energy is shared among the job that runs and the outstanding handles (R440, R441, R443); the seconds that came full with it
count in the bins of their dies (R470). -/
def execRailSample (nj : RailRead) (s : State) : Host.Outcome State Fault Refusal :=
  if !s.board.powerGood || nj.nj.length != 6 then .next s
  else
    let s := { s with age := nj.dies.foldl Age.spent s.age }
    let nj := nj.nj.zipIdx.map fun (x, d) => if s.railOff d then some 0 else x
    let r := nj.zipIdx.foldl (fun (e : Eng) (x, d) => e.sample d x) s.eng
    let gap := nj.any (·.isNone) && !s.eng.lost
    let e := if gap then { r with gaps := satAdd max32 r.gaps 1, gapTotal := r.gapTotal + 1 } else r
    let n := s.hci.handles.length + b2n (s.glb.mstate == .running)
    let miss := (nj.zipIdx.filter fun x => x.1.isNone).map fun x => (x.2, s.hci.handles.map (·.handle), n)
    let e := { e with lost := false, absent := (s.eng.absent.filter fun x => (nj.getD x.1 none).isNone) ++ miss }
    let hs := s.hci.handles.map fun (h : Hnd) => { h with shares := s.eng.sharesOf h nj n, gaps := h.gaps + b2n gap }
    let s : State := { s with eng := e, hci := { s.hci with handles := hs } }
    .next (if s.pwr.state = 0 then s.admitRecs else s)

/-! ## Base records and the chain (R442, R445-R448) -/

/-- INTERVAL_RECORD_TIMER: an interval that has lasted 60 s in P0 closes. -/
def execIntervalRecordTimer (s : State) : Host.Outcome State Fault Refusal :=
  if s.eng.isRange || s.pwr.state != 0 || !s.mgmtUp then .next s else .next (closeBase s)

/-- The next body in sequence order signed: its previous digest is that of the newest signed record (R445, R448). -/
def State.signNext (s : State) : State :=
  match s.eng.queue with
  | [] => s
  | q :: rest =>
    let e := { s.eng with queue := rest }
    match find? q e.recs with
    | none => { s with eng := e }
    | some r =>
      let r := { r with prev := e.headDigest }
      let r := { r with sig := some (Config.sm2Sign r.body).toNat }
      { s with eng := { e with recs := put q r e.recs, head := q, headDigest := (Config.sm3 r.bytes).toNat } }

/-- Every body that awaits signature signed. -/
def State.signAll (s : State) : Nat → State
  | 0 => s
  | n + 1 => s.signNext.signAll n

/-- RECORD_SIGNED. -/
def execRecordSigned (s : State) : Host.Outcome State Fault Refusal :=
  if s.pwr.state != 0 || !s.mgmtUp then .next s else .next s.admitRecs.signNext

/-- The chain head saved: a lifetime record, and the head from which a genesis continues after power is lost (R446, R469). -/
def State.saveHead (s : State) : State :=
  let s := addLife s 0x0005 (le 8 s.eng.head ++ le 32 s.eng.headDigest)
  { s with flash := { s.flash with chainSeq := s.eng.head, chainDigest := s.eng.headDigest }, eng := { s.eng with lastSave := s.board.time } }

/-- CHAIN_HEAD_SAVE: every 60 s in P0; an entry into a power state defers it (R430). -/
def execChainHeadSave (s : State) : Host.Outcome State Fault Refusal :=
  if s.pwr.state != 0 || s.pwr.busy || !s.mgmtUp || !s.eng.started then .next s else .next s.saveHead

/-- The chain starts with a genesis record, 65,536 after the saved head; the first interval starts at time 0 (R446). -/
def State.genesis (s : State) : State :=
  let f := s.flash
  let q := f.chainSeq + 65536
  let e := { s.eng with started := true, head := f.chainSeq, headDigest := f.chainDigest, oldest := q, nextSeq := q, recs := [], queue := [],
                        baseStart := 0, baseAcc := [0, 0, 0, 0, 0, 0], baseGaps := 0 }
  writeRec { s with eng := e } { kind := 0, flags := 8, start := s.board.time, stop := s.board.time }

/-! ## Flock records (R450, R453) -/

/-- Slots that an annex of `n` entries takes. -/
def annexSlots (n : Nat) : Nat := ceilDiv (16 + 48 * n) 256

/-- SIGN in ENG_FLK_CTL: a manager whose policy sets flag [1] writes a flock record over the staged entries; otherwise ignored. No record
is written in P1 to P3 (R442, R450). -/
def State.signFlock (s : State) : State :=
  let n := s.eng.entries.length
  if !s.mgmtUp || !s.eng.started || !(s.drv.role = 2 || s.drv.role = 3) || !bitAt s.job.energyFlags 1 || n = 0 then s
  else
    let t := unsigned 64 ((s.board.time : Int) - s.drv.offset)
    let s' := writeRec s { kind := 4, flags := 16, start := t, stop := t, annex := annexBytes s.eng.entries, annexSlots := annexSlots n }
    { s' with eng := { s'.eng with entries := [] } }

/-- SIGN. -/
def execSign (s : State) : Host.Outcome State Fault Refusal := .next (s.rowWrite .engFlkCtl State.signFlock)

/-- CLEAR in ENG_FLK_CTL: the staged entries are discarded (R453). -/
def State.clearFlock (s : State) : State :=
  if !s.winAnswers .eng then s else { s with eng := { s.eng with entries := [] } }

/-- CLEAR. -/
def execClear (s : State) : Host.Outcome State Fault Refusal := .next (s.rowWrite .engFlkCtl State.clearFlock)

/-- Entries that can be staged (R453). -/
def stageMax : Nat := 256

/-- A write of word 11: the entry is appended, and ignored at 256 (R453). -/
def State.stageAppend (s : State) (v : Nat) : State :=
  if !s.winAnswers .eng || stageMax ≤ s.eng.entries.length then s
  else { s with eng := { s.eng with entries := s.eng.entries ++ [s.eng.stage.take 11 ++ [v]] } }

/-- ENG_FLK_STAGE_APPEND. -/
def execEngFlkStageAppend (value : Reg) (s : State) : Host.Outcome State Fault Refusal := .next (s.rowWrite (.engFlkStage 11) (·.stageAppend value.toNat))

/-! ## ENERGY_REPORT (R449) -/

/-- A signed record as a message: a flock record travels with its annex, padded to whole slots. -/
def ERec.message (r : ERec) : List Byte :=
  r.bytes ++ (if r.annexSlots = 0 then [] else slice r.annex 0 (256 * r.annexSlots))

/-- Signed records from a sequence number on, those of one session's handles where asked. -/
def State.reportOf (s : State) (first : Nat) (only : Option Nat) : List ERec :=
  (s.eng.recs.map (·.2)).filter fun r =>
    r.sig.isSome && first ≤ r.seq && (match only with
      | some n => r.kind == 3 && r.handle % 2 ^ 32 / 2 ^ 26 == n
      | none => true)

/-- ENERGY_REPORT. -/
def execEnergyReport (c : Cmd) (s : State) : Host.Outcome State Fault Refusal :=
  .next (s.command c 0x60 fun s h =>
    let first := leAt c.args 0 8
    let n := leAt c.args 8 4
    let fl := leAt c.args 12 4
    let none' := !(s.eng.recs.any fun e => e.2.sig.isSome)
    if c.args.length != 16 || c.bulkLen != 0 || n = 0 || 65536 < n || 2 ≤ fl || none' || s.eng.head < first then s.finish h stBad
    else
      let l := (s.reportOf first (if fl = 1 then some c.sess else none)).take n
      s.sendData h 23 (l.map ERec.message) (le 4 l.length))

end Sys2Proof.Machine
end

