-- ==== Sys2Proof/Machine/Journal.lean ====
section
/-! DEFINITION. The journal store (R375-R377, R468, R472): the copies of its areas, what makes one intact, and the device's bytes as the
pass-through reads them. -/

namespace Sys2Proof.Machine

/-! ## Copies of an area (R375, R376) -/

/-- A copy is intact when its area code is right and its digest matches its body. -/
def Copy.intact (code : Nat) (enc : α → List Byte) (c : Copy α) : Bool :=
  c.code == code && c.digest == (Config.sm3 (enc c.body)).toNat

/-- The intact copy with the higher sequence number, and whether it is copy A. -/
def Area.held (code : Nat) (enc : α → List Byte) (m : Area α) : Option (Copy α × Bool) :=
  match m.a.filter (Copy.intact code enc), m.b.filter (Copy.intact code enc) with
  | some x, some y => some (if x.seq < y.seq then (y, false) else (x, true))
  | some x, none => some (x, true)
  | none, some y => some (y, false)
  | none, none => none

/-- The version of an area that is read; none when the area is lost (R377). -/
def Area.read (code : Nat) (enc : α → List Byte) (m : Area α) : Option α := (m.held code enc).map (·.1.body)

/-- A new version, in the copy that does not hold the one read, with its sequence number raised by 1; the first is version 1 in copy A
(DESIGN CHOICE, log 152). -/
def Area.write (code : Nat) (enc : α → List Byte) (m : Area α) (body : α) : Area α :=
  let new (seq : Nat) : Copy α := { code := code, seq := seq, len := (enc body).length, digest := (Config.sm3 (enc body)).toNat, body := body }
  match m.held code enc with
  | some (x, true) => { m with b := some (new (x.seq + 1)) }
  | some (x, false) => { m with a := some (new (x.seq + 1)) }
  | none => { m with a := some (new 1) }

/-- The bytes of a copy: its 64-byte header and its body. -/
def Copy.bytes (enc : α → List Byte) (c : Copy α) : List Byte :=
  le 4 c.code ++ le 4 0 ++ le 8 c.seq ++ le 8 c.len ++ le 8 0 ++ le 32 c.digest ++ enc c.body

/-! ## Bodies: the manual gives their contents and no layout (DESIGN CHOICE, log 152) -/

def trimBytes (l : List Trim) : List Byte := l.flatMap fun t => le 8 t.blk ++ le 8 t.word ++ le 8 t.ring

def repairBytes (l : List BadBlk) : List Byte :=
  l.flatMap fun x =>
    le 2 x.blk ++ le 2 x.rows.length ++ le 2 x.cols.length ++ le 4 x.staves.length ++ x.rows.flatMap (le 2) ++ x.cols.flatMap (le 2) ++
    x.staves.flatMap fun y => le 2 y.1 ++ le 2 y.2

def planBytes (l : List PlanBlk) : List Byte := l.flatMap fun x => le 2 x.blk ++ le 2 (unsigned 16 x.offset) ++ le 2 x.cap

/-- The three areas: their codes with the encoding of their bodies. -/
def Flash.trimsNow (f : Flash) : Option (List Trim) := f.trims.read 1 trimBytes
def Flash.repairNow (f : Flash) : Option (List BadBlk) := f.repair.read 2 repairBytes
def Flash.planNow (f : Flash) : Option (List PlanBlk) := f.margin.read 3 planBytes
def Flash.writeTrims (f : Flash) (l : List Trim) : Flash := { f with trims := f.trims.write 1 trimBytes l }
def Flash.writeRepair (f : Flash) (l : List BadBlk) : Flash := { f with repair := f.repair.write 2 repairBytes l }
def Flash.writePlan (f : Flash) (l : List PlanBlk) : Flash := { f with margin := f.margin.write 3 planBytes l }

/-! ## The device's bytes (R375, R468, R472) -/

/-- The 64-byte header of a segment. -/
def SegHead.bytes (h : SegHead) : List Byte := le 4 h.code ++ le 4 0 ++ le 8 h.seq ++ le 4 h.powerOn ++ le 44 0

/-- A lifetime record as stored, its body padded to a multiple of 64 bytes. -/
def LifeRec.stored (r : LifeRec) : List Byte := lifeBytes r ++ le (lifeSize r.body - 64 - r.body.length) 0

/-- The programmed ranges of the journal store: offset and bytes. -/
def Flash.pieces (f : Flash) : List (Nat × List Byte) :=
  let copy {α : Type} (enc : α → List Byte) (o : Nat) (c : Option (Copy α)) : List (Nat × List Byte) := (c.map fun x => (o, x.bytes enc)).toList
  copy trimBytes 0 f.trims.a ++ copy trimBytes 0x100000 f.trims.b ++
  copy repairBytes 0x200000 f.repair.a ++ copy repairBytes 0x300000 f.repair.b ++
  copy planBytes 0x400000 f.margin.a ++ copy planBytes 0x600000 f.margin.b ++
  f.lifeHeads.map fun h =>
    (0x800000 + 65536 * h.segment, h.bytes ++ (f.life.filter fun r => r.segment == h.segment).flatMap LifeRec.stored)

/-- A byte of the journal store; what is erased reads as ones (PRESUMED, log 152). -/
def Flash.journalByte (f : Flash) (a : Nat) : Byte :=
  match f.pieces.find? fun p => p.1 ≤ a && a < p.1 + p.2.length with
  | some p => p.2.getD (a - p.1) 0xFF
  | none => 0xFF

/-- A byte of the image store: the main image, and the recovery image from 480 MiB on (R374). -/
def Flash.imageByte (f : Flash) (a : Nat) : Byte :=
  if a < 0x1E000000 then f.image.getD a 0xFF else f.recovery.getD (a - 0x1E000000) 0xFF

/-- Bytes read through the pass-through: device 0 is the image store and device 1 the journal store, 512 MiB each. -/
def Flash.readOut (f : Flash) (dev at' n : Nat) : List Byte :=
  (List.range (Nat.min n (0x20000000 - at'))).map fun k => if dev = 0 then f.imageByte (at' + k) else f.journalByte (at' + k)

end Sys2Proof.Machine
end

