-- ==== Sys2Proof/Machine/Ageing.lean ====
section
/-! DEFINITION. Ageing: when a measurement runs, what it plans (R465-R467), and the lifetime summary (R470). -/

namespace Sys2Proof.Machine

/-! ## Planning (R467), times in ps and offsets in mV -/

/-- The slack that the plan requires, and its hysteresis. -/
def slackReq : Int := 30
def slackHyst : Int := 10

/-- A predicted slack as a fraction of ps over a denominator: `s10` tenths of a ps at `f0`, at a frequency of `f`. -/
def slackAt (s10 f0 f : Int) : Int × Int := (s10 * f * f0 + 10000000 * (f0 - f), 10 * f * f0)

/-- Whether a fraction lies below a number of ps. -/
def slackBelow (x : Int × Int) (ps : Int) : Bool := x.1 < ps * x.2

/-- The frequency lowered by 25 MHz until the slack suffices or 600 MHz is reached. -/
def lowerFreq (s10 f0 : Int) : Nat → Int → Int
  | 0, f => f
  | n + 1, f => if slackBelow (slackAt s10 f0 f) slackReq && 600 < f then lowerFreq s10 f0 n (f - 25) else f

/-- What a measurement plans for a block: offset, cap, predicted slack in whole ps, and whether it is left short. -/
structure Replan where
  offset : Int
  cap : Nat
  slack : Int
  short : Bool
  deriving DecidableEq, Repr

/-- The plan of R467 from the least slack at the present offset, the least slack 10 mV above it, or below it where +60 mV would be passed,
and the POWER_POLICY frequency. -/
def replan (off : Int) (cap mhz : Nat) (slack0 slack1 : Int) : Replan :=
  let k10 := Max.max (if off + 10 ≤ 60 then slack1 - slack0 else slack0 - slack1) 2
  let f0 : Int := Nat.min mhz (if cap = 0 then 1900 else cap)
  let want :=
    if slack0 < slackReq then off + 5 * ((2 * (slackReq - slack0) + k10 - 1) / k10)
    else if 2 * (slackReq + slackHyst) ≤ 2 * slack0 - k10 then off - 5
    else off
  let off' := Min.min (Max.max want (-20)) 60
  let s10 := 10 * slack0 + k10 * (off' - off)
  let f :=
    if s10 < 10 * slackReq then lowerFreq s10 f0 52 f0
    else if f0 < mhz && !slackBelow (slackAt s10 f0 (f0 + 25)) (slackReq + slackHyst) then f0 + 25
    else f0
  let x := slackAt s10 f0 f
  { offset := off', cap := if f < mhz then f.toNat else 1900, slack := x.1 / x.2, short := slackBelow x slackReq }

/-! ## A measurement (R466, R467) -/

/-- The frequency a block runs at: the lower of the POWER_POLICY frequency and its cap. -/
def State.blockMhz (s : State) (cap : Nat) : Nat := if cap = 0 then s.job.mhz else Nat.min s.job.mhz cap

/-- One block planned. A lowered cap, and a block left short, raise AGEING_MARGIN (R455, R457). -/
def State.planBlock (s : State) (r : AgeRead) : State :=
  let x := s.blk r.blk
  if 256 ≤ r.blk || x.excluded then s
  else
    let p := replan x.offset x.cap s.job.mhz (leastSlack r.at0) (leastSlack r.at1)
    let old := if x.cap = 0 then 1900 else x.cap
    let s := s.setBlk r.blk { x with offset := p.offset, cap := p.cap, slack := p.slack, short := p.short, mhz := s.blockMhz p.cap }
    let ctx := byteOf p.slack 2 * 2 ^ 32 + p.cap * 65536 + r.blk
    let s := if p.cap < old then raise s (faultCode 1 AGEING_MARGIN 0x01) (srcBlock r.blk) ctx else s
    if p.short then raise s (faultCode 1 AGEING_MARGIN 0x02) (srcBlock r.blk) ctx else s

/-- The margin plan of every block. -/
def State.marginPlan (s : State) : List PlanBlk :=
  (List.range 256).map fun b => let x := s.blk b; { blk := b, offset := x.offset, cap := x.cap }

/-- The drift of a block's ring oscillator: its change from the baseline in the trims, in 0.01 %, rounded toward zero; 0 without a baseline
(R465; DESIGN CHOICE, log 153). -/
def State.drift (s : State) (b ring : Nat) : Int :=
  match (s.flash.trimsNow.getD []).find? fun t => t.blk == b with
  | some t => Int.tdiv (10000 * ((ring : Int) - t.ring)) t.ring
  | none => 0

/-- The body of an ageing record (R469). -/
def State.ageBody (s : State) (reads : List AgeRead) : List Byte :=
  (List.range 256).flatMap fun b =>
    let x := s.blk b
    let drift := ((reads.find? fun r => r.blk == b).map fun r => s.drift b r.ring).getD 0
    le 1 (byteOf x.slack 2) ++ le 1 (byteOf x.offset 5) ++ le 2 x.cap ++ le 2 (unsigned 16 drift) ++
    le 1 (b2n (s.derated x) + 2 * b2n x.short) ++ le 1 0

/-- A measurement completes: every block is planned, the plan is written to the journal, and an ageing record follows. -/
def State.ageEnds (s : State) (reads : List AgeRead) : State :=
  let s := reads.foldl State.planBlock s.bankCycles
  let s := { s with age := { s.age with busy := false, due := false, last := s.board.time, p0ns := 0 },
                    flash := s.flash.writePlan s.marginPlan }
  addLife s 0x0004 (s.ageBody reads)

/-- A measurement is due: it begins at once where no job runs, and waits for its step seal otherwise (R466). -/
def State.ageDue (s : State) : State :=
  if s.age.busy then s else ({ s with age := { s.age with due := true } } : State).ageBegins

/-- AGEING_DUE: 24 h have been spent in P0 since the last completed measurement. -/
def execAgeingDue (s : State) : Host.Outcome State Fault Refusal := if s.pwr.state != 0 || !s.mgmtUp then .next s else .next s.ageDue

/-- NOW in AGE_CTL (R466, R474). -/
def State.ageNow (s : State) : State := if s.winAnswers .age then s.ageDue else s

/-- NOW. -/
def execNow (s : State) : Host.Outcome State Fault Refusal := .next (s.rowWrite .ageCtl State.ageNow)

/-- AGEING_MEASUREMENT_END. -/
def execAgeingMeasurementEnd (reads : List AgeRead) (s : State) : Host.Outcome State Fault Refusal :=
  if !s.age.busy || !s.computeOn then .next s else .next (s.ageEnds reads)

/-! ## Lifetime summary (R470) -/

/-- The 1,648 bytes of a summary: temperature and voltage counts, residency in seconds, reports by class and level. -/
def State.summaryBody (s : State) : List Byte :=
  s.age.hist.flatMap (le 4) ++ (s.age.resid.map (· / 1000000000)).flatMap (le 8) ++
  ((List.range 80).map fun k => look 0 k s.err.counts).flatMap (le 8)

/-- A summary written (R470). -/
def State.writeSummary (s : State) : State :=
  let s := { s with age := { s.age with lastSummary := s.board.time } }
  addLife s 0x0002 s.summaryBody

/-- SUMMARY_TIMER: every hour in P0; an entry into a power state defers it (R430). -/
def execSummaryTimer (s : State) : Host.Outcome State Fault Refusal :=
  if s.pwr.state != 0 || s.pwr.busy || !s.mgmtUp then .next s else .next s.writeSummary

/-- The totals go on from the newest summary in the journal (R470). -/
def State.loadSummary (s : State) : State :=
  match (s.flash.life.filter fun r => r.kind == 0x0002).getLast? with
  | none => s
  | some r =>
    let b := r.body
    let hist := (List.range 232).map fun k => leAt b (4 * k) 4
    let resid := s.age.resid.zipIdx.map fun (n, k) => n + leAt b (928 + 8 * k) 8 * 1000000000
    let counts := (List.range 80).foldl (fun (m : Map Nat) k =>
      let n := leAt b (1008 + 8 * k) 8
      if n = 0 then m else adjust 0 k (· + n) m) s.err.counts
    { s with age := { s.age with hist := hist, resid := resid }, err := { s.err with counts := counts } }

/-! ## Time passes -/

/-- The place of a power state and of a module state among the residency totals. -/
def residOf (pwr : Nat) (m : ModState) : List Nat :=
  [pwr, 4 + (match m with | .off => 0 | .starting => 1 | .ready => 2 | .running => 3 | .paused => 4 | .faulted => 5)]

/-- One nanosecond of time base (R11, R38): residency and the time in P0 count with it (R466, R470). -/
def State.tick (s : State) : State :=
  let resid := (residOf s.pwr.state s.glb.mstate).foldl (fun (l : List Nat) k => l.set k (l.getD k 0 + 1)) s.age.resid
  { s with board := { s.board with time := (s.board.time + 1) % 2 ^ 64 },
           age := { s.age with resid := resid, p0ns := s.age.p0ns + b2n (s.pwr.state == 0 && s.glb.mstate != .off) } }

end Sys2Proof.Machine
end

