-- ==== Sys2Proof/Machine/Array.lean ====
section
/-! DEFINITION. The stave array: MMA and CONV (R83-R117, R186-R196, R535). Operands are cut into the digits the array sees, because
the group window is placed by the largest term and floors each term that reaches below it (R99). -/

namespace Sys2Proof.Machine

/-! ## Operands as the array sees them -/

/-- Special values travel as flags (R79, R88). -/
inductive OFlag where
  | fin | nan | pinf | ninf
  deriving DecidableEq, Repr

/-- An operand element presented: flag, sign, signed digits (least significant first), the exponent of digit 0 with all scales,
the 4-bit patterns its staves hold, poison, and whether its scale block is a zero block. -/
structure Opd where
  flag : OFlag := .fin
  neg : Bool := false
  digits : List Int := []
  exp : Int := 0
  pats : List Nat := []
  pois : Bool := false
  zeroBlk : Bool := false
  deriving Repr

/-- The value is zero. -/
def Opd.zero (o : Opd) : Bool := o.flag == .fin && o.digits.all (· == 0)

/-- Signed radix-16 digits of an integer activation (R86). -/
def recode : Nat → Int → List Int
  | 0, _ => []
  | 1, v => [v]
  | n + 2, v => let d := (v + 8) % 16 - 8; d :: recode (n + 1) ((v - d) / 16)

/-- Digits of an integer weight: plain two's complement, the top one signed (R87). -/
def splitInt : Nat → Int → List Int
  | 0, _ => []
  | 1, v => [v]
  | n + 2, v => v % 16 :: splitInt (n + 1) (v / 16)

/-- Unsigned 4-bit digits of a magnitude (R88). -/
def splitMag : Nat → Nat → List Int
  | 0, _ => []
  | n + 1, m => ((m % 16 : Nat) : Int) :: splitMag n (m / 16)

/-- Sign, M′ and e′ of a finite element presented on a floating path (R55, R88). -/
def presentFloat (code : Nat) (scaled : Bool) (bits : Nat) : Bool × Nat × Int :=
  let bits := if code = E2M3 || code = E3M2 then encodeElem E4M3 false (decodeElem code true bits) else bits
  let code := if code = E2M3 || code = E3M2 then E4M3 else code
  if code = INT4 then
    let v := signed 4 (bits % 16)
    (v < 0, v.natAbs, if scaled then -2 else 0)
  else
    let (eb, mb, bias) := floatFields code
    let s := bitAt bits (eb + mb)
    let e := bits >>> mb % 2 ^ eb
    let m := bits % 2 ^ mb + (if e = 0 then 0 else 2 ^ mb)
    let es := Nat.max e 1
    if code = E2M1 then (s, if e = 0 then m else m * 2 ^ (es - 1), -1)
    else if code = BF16 then (s, m, (es : Int) - 134)
    else (s, m * 2 ^ (es % 4), (es : Int) - (es % 4 : Nat) - bias - mb)

/-- An element presented to the array: `code` its format, `intPath` an integer pairing, `act` an activation, `nd` the digits of the
blank class, `sc` its scale byte if block-scaled (R86-R88, R193). The staves of an infinite or NaN weight hold the pattern 0, and a
nonzero integer has the sign of its value, a zero integer the sign + (both DESIGN CHOICE, log 119, log 120). -/
def present (code : Nat) (sc : Option Nat) (intPath act : Bool) (nd bits : Nat) (pois : Bool) : Opd :=
  let scaled := sc.isSome
  let x := sc.getD 127
  if x = 0xFF then { flag := .nan, digits := List.replicate nd 0, pats := List.replicate nd 0, pois := pois }
  else
    let v := decodeElem code scaled bits
    if x = 0 then
      { neg := act && v.sign, digits := List.replicate nd 0, pats := List.replicate nd 0, pois := pois, zeroBlk := true }
    else
      let se : Int := (x : Int) - 127
      match v with
      | .nan => { flag := .nan, digits := List.replicate nd 0, pats := List.replicate nd 0, pois := pois }
      | .inf s => { flag := if s then .ninf else .pinf, neg := s, digits := List.replicate nd 0, pats := List.replicate nd 0,
                    pois := pois }
      | .fin .. =>
        if intPath then
          let i := signed (widthOf code) (bits % 2 ^ widthOf code)
          let ds := if act then recode nd i else splitInt nd i
          { neg := i < 0, digits := ds, exp := se + (if scaled then implicitExp code else 0),
            pats := ds.map fun d => (d % 16).toNat, pois := pois }
        else
          let (s, m, e) := presentFloat code scaled bits
          let ds := splitMag nd m
          let pats := if nd = 1 then [bits % 16] else ds.map Int.toNat
          { neg := s, digits := if s then ds.map Int.neg else ds, exp := e + se, pats := pats, pois := pois }

/-! ## The group window -/

/-- A term: a signed magnitude and its exponent. -/
abbrev Term := Int × Int

/-- The terms of one product: every digit of the activation with every digit of the weight (R90, R99). -/
def termsOf (a w : Opd) : List Term :=
  a.digits.zipIdx.flatMap fun (x, d) => w.digits.zipIdx.filterMap fun (y, i) =>
    if x * y = 0 then none else some (x * y, a.exp + w.exp + 4 * ((d + i : Nat) : Int))

/-- The window of a group: its value in units of 2^lsb, lsb, and the sticky bit (R99). -/
def windowOf (W : Nat) (terms : List Term) : Int × Int × Bool :=
  match terms with
  | [] => (0, 0, false)
  | t :: r =>
    let top (x : Term) : Int := (Nat.log2 x.1.natAbs : Int) + x.2
    let msb := r.foldl (fun m x => Max.max m (top x)) (top t)
    let lsb := msb + 10 - W
    let cut (x : Term) : Int × Bool :=
      if lsb ≤ x.2 then (x.1 * 2 ^ (x.2 - lsb).toNat, false)
      else let k := 2 ^ (lsb - x.2).toNat; (x.1 / k, x.1 % k != 0)
    let sum := (terms.map fun x => (cut x).1).sum
    (signed W (unsigned W sum), lsb, terms.any fun x => (cut x).2)

/-- The window rounded to FP32; a sticky bit adds a positive amount below every unit that matters (R100). -/
def drainRound (w : Int × Int × Bool) : Number :=
  let (v, lsb, st) := w
  let (v, e) := if st then (v * 2 ^ 400 + 1, lsb - 400) else (v, lsb)
  (Number.fin (v < 0) v.natAbs e).r32

/-- What a group delivers for one output: the rounded window with the special values of R79, poison (R34), and the sticky bit, which
the finite terms set whatever special values stand beside them (R99). The sign of a product is that of its operands, each with the
sign `present` gives it (log 119). -/
def groupOut (W : Nat) (ps : List (Opd × Opd)) : Val × Bool :=
  let pois := ps.any fun (a, w) => a.pois || w.pois
  let isInf (o : Opd) : Bool := o.flag == .pinf || o.flag == .ninf
  let nan := ps.any fun (a, w) => a.flag == .nan || w.flag == .nan || (isInf a && w.zero) || (isInf w && a.zero)
  let infs := (ps.filter fun (a, w) => isInf a || isInf w).map fun (a, w) => a.neg != w.neg
  let w := windowOf W (ps.flatMap fun (a, w) => termsOf a w)
  let num : Number :=
    if nan || (infs.contains true && infs.contains false) then .nan
    else match infs with
      | s :: _ => .inf s
      | [] =>
        let r := drainRound w
        let allNeg := !ps.isEmpty && ps.all fun (a, w) => (a.zero || w.zero) && (a.neg != w.neg)
        if r.isZero then .fin (w.1 = 0 && !w.2.2 && allNeg) 0 0 else r
  (⟨num, pois⟩, w.2.2)

/-! ## A whole instruction -/

/-- An instruction laid out for the array: blank staves, window width, reduction indices of a K tile, kept values, segments, groups
and outputs of a segment, and its operands: activation (segment, output, group, row) and weight (segment, output, row). -/
structure Lay where
  b : Nat
  W : Nat
  span : Nat
  K : Nat
  segs : Nat
  groups : Nat
  outs : Nat
  /-- a row carries a second reduction index, 256 above its first, for the right half (R108) -/
  rect : Bool := false
  /-- rows of a tap chain (R106); 1 where there is none -/
  chain : Nat := 1
  /-- cycles of a plane load (R103, R188) -/
  load : Nat
  /-- values of a row's group for one segment and index: 1, or the 4 of its quad under sparse storage (R186) -/
  rowVals : Nat → Nat → Nat → List Opd
  /-- which of them the staves of an output select (R187) -/
  sel : Nat → Nat → Nat → Nat
  /-- poison anywhere in the activation scale blocks behind those values (R194) -/
  blkPois : Nat → Nat → Nat → Bool
  act : Nat → Nat → Nat → Nat → Opd
  wt : Nat → Nat → Nat → Opd

/-- The reduction indices of K tile `t`. -/
def Lay.idxs (l : Lay) (t : Nat) : List Nat := (List.range l.K).filter fun k => k / l.span == t

/-- The logical rows of K tile `t`, each with the indices it carries: one, or in rectangular mode one for each half (R83, R84, R108). -/
def Lay.rows (l : Lay) (t : Nat) : List (List Nat) :=
  (List.range 256).filterMap fun r =>
    let ks := ((if l.rect then [r, 256 + r] else [r]).map (t * l.span + ·)).filter (· < l.K)
    if ks.isEmpty then none else some ks

def Lay.kTiles (l : Lay) : Nat := ceilDiv l.K l.span

/-- The values one row-chuck load brings a row: for every segment, every index of the row, every value of its quad (R84, R186). -/
def Lay.vals (l : Lay) (m : Nat) (ks : List Nat) : List Opd :=
  (List.range l.segs).flatMap fun g => ks.flatMap fun k => l.rowVals g m k

/-- The table, among those of the row's group, that the staves of output `n` of a segment read for index `k` of the row: the number
of its value in the order of `Lay.vals` (R187). -/
def Lay.tableOf (l : Lay) (ks : List Nat) (g n h k : Nat) : Nat :=
  let per := (l.rowVals g 0 k).length
  (g * ks.length + h) * per + l.sel g n k

/-- The weights of a plane: a K tile, some outputs, every segment. -/
def Lay.plane (l : Lay) (t : Nat) (outs : List Nat) : List Opd :=
  (List.range l.segs).flatMap fun g => outs.flatMap fun n => (l.idxs t).map fun k => l.wt g n k

/-- A plane holds no infinite or NaN weight and no NaN block; ARR_PLANE_UNCLEAN counts those that do (R208). -/
def Lay.finite (l : Lay) (t : Nat) (outs : List Nat) : Bool := (l.plane t outs).all fun w => w.flag == .fin

/-- A plane is clean when it holds no infinite or NaN weight, no NaN block and no poison (R194). -/
def Lay.clean (l : Lay) (t : Nat) (outs : List Nat) : Bool := (l.plane t outs).all fun w => w.flag == .fin && !w.pois

/-- Every activation scale block of a group is a zero block, and no word of those blocks is poisoned (R194). -/
def Lay.zeroGroup (l : Lay) (t m : Nat) : Bool :=
  (List.range l.segs).all fun g => (l.idxs t).all fun k =>
    (l.rowVals g m k).all (fun a => a.zeroBlk && !a.pois) && !l.blkPois g m k

/-- The planes of a K tile in the order they run, as lists of outputs, and whether each is a carry-over plane (R113): `per` blanks of
a full tile, `narrow` blanks presented. -/
def planesOf (outs per narrow : Nat) : List (List Nat × Bool) :=
  let tiles := pieces per (List.range outs)
  let carry := (tiles.flatMap fun t => t.drop narrow)
  (tiles.map fun t => (t.take narrow, false)) ++ (pieces narrow carry).map fun t => (t, true)

/-- One run of a plane over its groups: the K tile, the outputs, carry-over or not, whether the plane is clean, and whether it holds
finite weights only. -/
structure Run where
  tile : Nat
  outs : List Nat
  carry : Bool
  clean : Bool
  finite : Bool

def Lay.runs (l : Lay) (per narrow : Nat) : List Run :=
  (List.range l.kTiles).flatMap fun t => (planesOf l.outs per narrow).map fun (o, c) => ⟨t, o, c, l.clean t o, l.finite t o⟩

/-- Whether pass `d` of a row's group runs: some value outside a zero block has a nonzero digit there (R94, R95). -/
def Lay.live (l : Lay) (m : Nat) (ks : List Nat) (d : Nat) : Bool :=
  (l.vals m ks).any fun a => !a.zeroBlk && a.digits.getD d 0 != 0

/-- Non-skipped passes of a row in a group. -/
def Lay.passes (l : Lay) (m : Nat) (ks : List Nat) : Nat := ((List.range l.b).filter (l.live m ks)).length

/-! ## Elastic completion -/

/-- The array's clock through an instruction, in cycles from its fire (R96-R98, R103, R104): when the last outputs were taken, newest
first; the end of each row's last group and the cycle in which it began; the waits of R96; when the live plane was loaded; and when
the plane before it was released. -/
structure Elastic where
  takes : List Nat := []
  ends : List Nat := []
  starts : List Nat := []
  waits : Nat := 0
  ready : Nat := 0
  freed : Nat := 0

/-- One group run by every row: its passes, and the cycles in which a pass waited for a table (R95-R97, R116). A row starts when its
last group has ended, fewer than 4 of its entries are held, the live plane is loaded, and, in a tap chain, the row before it began its
last group in an earlier cycle (R106; log 121). -/
def Elastic.group (x : Elastic) (chain : Nat) (first : Bool) (rows : List (Nat × Nat)) : Elastic :=
  let gate := x.takes.getD 3 0
  let step := rows.zipIdx.map fun ((n, w), r) =>
    let free := x.ends.getD r 0
    let tap := if chain ≤ 1 || first || r % chain = 0 then 0 else x.starts.getD (r - 1) 0
    let base := Nat.max (Nat.max free gate) (Nat.max x.ready tap)
    (base + 1, base + Nat.max 1 n + w, Nat.max free gate - free)
  let ends := step.map (·.2.1)
  let take := Nat.max (ends.foldl Nat.max 0) (x.takes.headD 0 + 1)
  { x with takes := (take :: x.takes).take 4, ends := ends, starts := step.map (·.1), waits := x.waits + (step.map (·.2.2)).sum }

/-- A tile ends: its plane is released once the last row has posted, and the next one, whose load began when the plane before it was
released and the load before it was done, becomes the live plane (R98, R104). -/
def Elastic.nextTile (x : Elastic) (load : Nat) : Elastic :=
  { x with freed := Nat.max (Nat.max x.freed x.ready) (x.ends.foldl Nat.max 0), ready := Nat.max x.freed x.ready + load }

/-! ## Counters and cycles -/

/-- What an instruction's runs count. -/
structure ArrCount where
  issued : Nat := 0
  skipped : Nat := 0
  allSkip : Nat := 0
  elided : Nat := 0
  unclean : Nat := 0
  carryCyc : Nat := 0
  el : Elastic := {}

/-- Passes of a row that wait one cycle because the parity of their table was found wrong in an earlier pass of the group (R116). -/
def tableWaits (hits : List TableHit) (run m row : Nat) : Nat :=
  ((hits.filter fun h => h.run == run && h.group == m && h.row == row && h.found < h.pass).map (·.pass)).eraseDups.length

/-- The runs of an instruction counted, group by group (R93-R98, R104, R113, R117, R194). -/
def Lay.countRuns (l : Lay) (runs : List Run) (hits : List TableHit) : ArrCount :=
  runs.zipIdx.foldl (fun x (r, i) =>
    let rows := l.rows r.tile
    let before := x.el.takes.headD 0
    let y := (List.range l.groups).foldl (fun (x, first) m =>
      if r.clean && l.zeroGroup r.tile m then ({ x with elided := x.elided + 1 }, first)
      else
        let p := rows.map (l.passes m) ++ List.replicate (256 - rows.length) 0
        ({ x with issued := x.issued + 256 * l.b, skipped := x.skipped + 256 * l.b - p.sum,
                  allSkip := x.allSkip + (p.filter (· == 0)).length,
                  el := x.el.group l.chain first (p.zipIdx.map fun (n, row) => (n, tableWaits hits i m row)) }, false)) (x, true)
    { y.1 with unclean := y.1.unclean + b2n (!r.finite),
               carryCyc := y.1.carryCyc + (if r.carry then y.1.el.takes.headD 0 - before else 0),
               el := y.1.el.nextTile l.load }) {}

/-- Cycles from the fire to the completion: 13 beyond the last output taken, 14 in rectangular mode, and 13 where every group was
elided (R97, R105, R108, R196). -/
def Lay.cycles (l : Lay) (n : ArrCount) : Nat := if n.el.takes.isEmpty then 13 else 13 + b2n l.rect + n.el.takes.headD 0

/-- The run that holds output `n` of a K tile. -/
def runOf (runs : List Run) (t n : Nat) : Option Run := runs.find? fun r => r.tile == t && r.outs.contains n

/-- Whether a parity hit poisons output `n` of a segment in a group: the table its staves select, in a pass that runs, held the entry
one of them reads there (R116). -/
def Lay.hit (l : Lay) (runs : List Run) (hits : List TableHit) (g t m n : Nat) : Bool :=
  hits.any fun h =>
    h.group == m && h.found == h.pass && (match runs[h.run]? with
      | some r => r.tile == t && r.outs.contains n
      | none => false) &&
    match (l.rows t)[h.row]? with
    | some ks => l.live m ks h.pass && ks.zipIdx.any fun (k, i) => l.tableOf ks g n i k == h.value && (l.wt g n k).pats.contains h.entry
    | none => false

/-- What an output has come to: its sum, whether a group of it was elided, and the windows that discarded bits. -/
structure OutSum where
  sum : Option Val := none
  elided : Bool := false
  sticky : Nat := 0

/-- One output: the drains of its K tiles added in order, the addition of tile `t` rounded as `rnd t` says; nothing where every group
was elided (R99, R100, R194). ARR_WINDOW_STICKY counts the windows: one for each output and group (R117, log 122). -/
def Lay.output (l : Lay) (runs : List Run) (hits : List TableHit) (rnd : Nat → Rnd) (g m n : Nat) : OutSum :=
  (List.range l.kTiles).foldl (fun x t =>
    let clean := match runOf runs t n with
      | some r => r.clean
      | none => false
    if clean && l.zeroGroup t m then { x with elided := true }
    else
      let (v, s) := groupOut l.W ((l.idxs t).map fun k => (l.act g m n k, l.wt g n k))
      let v := { v with pois := v.pois || l.hit runs hits g t m n }
      { x with sum := some (match x.sum with
                 | none => v
                 | some a => addRnd (rnd t) a v),
               sticky := x.sticky + b2n s }) {}

/-- The sum of an output: +0 where nothing was added, and where the sum is zero and some group was elided (R194, R195). -/
def OutSum.val (x : OutSum) : Val :=
  match x.sum with
  | none => Val.zero
  | some v => if x.elided && v.num.isZero then { v with num := .zero } else v

/-! ## Layouts of MMA and CONV -/

/-- Whether a pairing runs on the integer path (R89). -/
def intPair (fa fw : Nat) : Bool := (fmtOf fa true).isInt && (fmtOf fw true).isInt

/-- Element `n` of a view presented. -/
def State.opd (s : State) (v : View) (intPath act : Bool) (nd n : Nat) : Opd :=
  let (bits, sc, q) := s.rawElem v n
  present (fwFmt v.d.fmtw) (if v.d.bs = 0 then none else some sc) intPath act nd bits q

/-- An absent activation: padding and rows beyond the reduction read as +0 (log 19). -/
def Opd.pad (nd : Nat) : Opd := { digits := List.replicate nd 0, pats := List.replicate nd 0, zeroBlk := true }

/-- Staves of a blank: the wider operand's class (R54, R93). -/
def blankOf (fa fw : Nat) : Nat := Nat.max (widthClass fa) (widthClass fw) / 4

/-- Cycles of a plane load: `small` where the weights take 4 bits of one stave each or the pairing is integer (R103, R188). -/
def planeLoad (sparse intPath : Bool) (b : Nat) : Nat :=
  if !sparse then (if intPath || b = 1 then 4 else if b = 2 then 12 else 8)
  else if b = 1 then 6
  else if intPath then 5
  else if b = 2 then 13 else 9

/-- The elements of a view presented. -/
def State.opds (s : State) (v : View) (intPath act : Bool) (nd : Nat) : Array Opd :=
  ((List.range v.count).map (s.opd v intPath act nd)).toArray

/-- Poison of each scale block of a view, over its scale byte and all its element words (R194). -/
def State.blkPoisons (s : State) (v : View) : Array Bool :=
  ((pieces (Nat.max 1 v.d.bs) (List.range v.count)).map fun ns => ns.any fun n => (s.rawElem v n).2.2).toArray

/-- The weights of a view presented: poison anywhere in a zero block is that of every blank it gives (R193); under sparse storage the poison
of a position is that of its weight too (R34, R183), and the positions stand beside them. -/
def State.sparseOpds (s : State) (w : View) (store : Nat) (intPath : Bool) (nd : Nat) : Array Opd × Array Nat :=
  let bad := s.blkPoisons w
  let l := (List.range w.count).map fun n =>
    let o := s.opd w intPath false nd n
    let o := if o.zeroBlk then { o with pois := o.pois || bad.getD (n / Nat.max 1 w.d.bs) false } else o
    if store = 0 then (o, 0)
    else
      let (p, q) := s.keptPos w (w.index n)
      ({ o with pois := o.pois || q }, p)
  ((l.map (·.1)).toArray, (l.map (·.2)).toArray)

/-- MMA laid out (R83, R84, R107, R108, R186): activations (K, tokens …), weights (K, N …), the outermost dimension of a packed
problem its segment. -/
def State.mmaLay (s : State) (c : Ctx) : Lay :=
  let a := s.srcView c c.i.srcA
  let w := s.srcView c c.i.srcB
  let store := c.i.imm / 64 % 4
  let shape := c.i.imm % 4
  let segs := if shape = 1 then c.i.imm / 4 % 16 + 1 else 1
  let nd := blankOf (fwFmt a.d.fmtw) (fwFmt w.d.fmtw)
  let ip := intPair (fwFmt a.d.fmtw) (fwFmt w.d.fmtw)
  let ka := a.ext.getD 0 1
  let kw := w.ext.getD 0 1
  let toks := a.count / ka / segs
  let outs := w.count / kw / segs
  let acts := s.opds a ip true nd
  let (wts, pos) := s.sparseOpds w store ip nd
  let bad := s.blkPoisons a
  let wi (g n k : Nat) : Nat := (g * outs + n) * kw + k
  let ai (g m k : Nat) : Nat := (g * toks + m) * ka + k
  let sel (g n k : Nat) : Nat := pos.getD (wi g n k) 0
  { b := nd, W := 32 * nd, span := if shape = 2 then 512 else 256, K := kw, segs := segs, groups := toks, outs := outs,
    rect := shape = 2, load := planeLoad (store != 0) ip nd,
    rowVals := fun g m k =>
      (List.range (if store = 0 then 1 else 4)).map fun j => acts.getD (ai g m (denseIdx store k 0 + j)) (Opd.pad nd),
    sel := sel,
    blkPois := fun g m k =>
      (List.range (if store = 0 then 1 else 4)).any fun j => bad.getD (ai g m (denseIdx store k 0 + j) / Nat.max 1 a.d.bs) false,
    act := fun g m n k => acts.getD (ai g m (denseIdx store k (sel g n k))) (Opd.pad nd),
    wt := fun g n k => wts.getD (wi g n k) (Opd.pad nd) }

/-- CONV laid out (R106): input (channel, x, y, image), filter (channel, x, y, output feature); reduction index = kept channel value ×
taps + tap, so that the taps of one channel stand in consecutive rows (log 19). -/
def State.convLay (s : State) (c : Ctx) : Lay :=
  let a := s.srcView c c.i.srcA
  let w := s.srcView c c.i.srcB
  let d := s.dstView c
  let store := c.i.imm / 64 % 4
  let nd := blankOf (fwFmt a.d.fmtw) (fwFmt w.d.fmtw)
  let ip := intPair (fwFmt a.d.fmtw) (fwFmt w.d.fmtw)
  let stride : Nat := c.i.imm / 2 ^ 12 % 16
  let dil : Nat := c.i.imm / 2 ^ 16 % 16
  let padding : Nat := c.i.imm / 2 ^ 20 % 256
  let e (v : View) (i : Nat) : Nat := v.ext.getD i 1
  let fx := e w 1
  let taps := fx * e w 2
  let kc := e w 0
  let outs := e w 3
  let acts := s.opds a ip true nd
  let (wts, pos) := s.sparseOpds w store ip nd
  let bad := s.blkPoisons a
  let wi (n k : Nat) : Nat := k / taps + kc * (k % taps) + kc * taps * n
  let sel (n k : Nat) : Nat := pos.getD (wi n k) 0
  -- the input element of group m at a channel and tap; none in the padding
  let at? (m ch tap : Nat) : Option Nat :=
    let ox := m % e d 1
    let oy := m / e d 1 % e d 2
    let im := m / (e d 1 * e d 2)
    let px : Nat := ox * stride + tap % fx * dil
    let py : Nat := oy * stride + tap / fx * dil
    let x : Int := (px : Int) - (padding : Int)
    let y : Int := (py : Int) - (padding : Int)
    if x < 0 || y < 0 || (e a 1 : Int) ≤ x || (e a 2 : Int) ≤ y then none else some (linear a.ext [ch, x.toNat, y.toNat, im])
  let opd (i : Option Nat) : Opd := (i.bind fun n => acts[n]?).getD (Opd.pad nd)
  let row (k j : Nat) : Nat := denseIdx store (k / taps) 0 + j
  { b := nd, W := 32 * nd, span := 256, K := kc * taps, segs := 1, groups := d.count / Nat.max 1 outs, outs := outs,
    chain := c.i.imm / 2 ^ 8 % 16 + 1, load := planeLoad (store != 0) ip nd,
    rowVals := fun _ m k => (List.range (if store = 0 then 1 else 4)).map fun j => opd (at? m (row k j) (k % taps)),
    sel := fun _ n k => sel n k,
    blkPois := fun _ m k => (List.range (if store = 0 then 1 else 4)).any fun j =>
      match at? m (row k j) (k % taps) with
      | some n => bad.getD (n / Nat.max 1 a.d.bs) false
      | none => false,
    act := fun _ m n k => opd (at? m (denseIdx store (k / taps) (sel n k)) (k % taps)),
    wt := fun _ n k => wts.getD (wi n k) (Opd.pad nd) }

/-! ## Effects -/

/-- The physical row of a logical one (R111, R114). -/
def physRow (bad : List Nat) (row : Nat) : Nat :=
  ((List.range 258).filter fun r => !bad.contains r).getD row row

/-- The table parity errors of a firing, reported and recorded (R116, R457, R469). -/
def State.tableFaults (s : State) (c : Ctx) (hits : List TableHit) : State :=
  hits.foldl (fun s h =>
    let s := (s.count 0 c.b 6 1).blkSticky c.b 0
    raise s (faultCode 0 PARITY 0x01) (srcBlock c.b)
      (h.pass % 256 * 2 ^ 32 + physRow (s.blk c.b).rowBad h.row * 2 ^ 16 + c.b)) s

/-- Cycles of an array instruction noted for the widen cost (R174). -/
def State.noteCycles (s : State) (c : Ctx) (cyc : Nat) : State :=
  s.modBlk c.b fun x =>
    let old := (x.arrNow.find? fun e => e.1 == c.g.idx && e.2.1 == c.idx).map (·.2.2)
    { x with arrNow := (c.g.idx, c.idx, old.getD 0 + cyc) :: x.arrNow.filter fun e => !(e.1 == c.g.idx && e.2.1 == c.idx) }

/-- The presented width of a block (R82, R112). -/
def Block.presented (x : Block) : Nat := if x.width = 0 then 256 else x.width

/-- Blanks of a full tile and blanks presented (R108, R113): packed and rectangular tiles are never split, and a rectangular half
presents what R108 gives it. -/
def Lay.blanks (l : Lay) (shape U : Nat) : Nat × Nat :=
  let two := if shape = 1 then (l.outs, l.outs)
    else if shape = 2 then (let w := (if U < 256 then U / 2 / l.b else 128 / l.b); (w, w))
    else (256 / l.b, U / l.b)
  (Nat.max 1 two.1, Nat.max 1 two.2)

/-- Terms an array instruction sums for one output: its reduction extent, filter taps included, and the bias (R139, R535). -/
def State.arrayTerms (s : State) (c : Ctx) : Nat :=
  let wx := (s.srcView c c.i.srcB).ext
  let kd := (s.srcView c c.i.srcA).ext.getD 0 1
  (if c.i.op = opConv then kd * wx.getD 1 1 * wx.getD 2 1 else kd) + b2n c.i.srcC.isT

/-- The effect of MMA or CONV on a layout: sums, the bias (R535), the addition into the destination with ACC (R138), and the
conversion at the drain (R125). The additions into an accumulator count from 0: a drain for each K tile, the bias, the destination
(R143, log 123). -/
def arrayRun (lay : State → Ctx → Lay) (ups : Upsets) (c : Ctx) (s : State) : Effect :=
  let s := if c.i.acc then s.accBase c else s
  let l := lay s c
  let shape := if c.i.op = opConv then 0 else c.i.imm % 4
  let (per, narrow) := l.blanks shape (s.blk c.b).presented
  let runs := l.runs per narrow
  let hits := ups.table
  let bias := c.i.srcC.isT
  let k := s.arrayTerms c
  let adds := l.kTiles + b2n bias + b2n c.i.acc
  let rnd (o j : Nat) : Rnd := s.accRnd c k adds o j
  let order := (List.range l.segs).flatMap fun g => (List.range l.groups).flatMap fun m => (List.range l.outs).map fun n => (g, m, n)
  let sums : List OutSum := order.zipIdx.map fun ((g, m, n), o) => l.output runs hits (rnd o) g m n
  let bv := if bias then s.operand c c.i.srcC (s.dstView c).ext order.length else []
  let big := if bias then s.operandBigs c [c.i.srcC] (s.dstView c).ext order.length else []
  let old := if c.i.acc then s.dstVals c else []
  let out := sums.zipIdx.map fun (v, o) =>
    let x := if bias then addRnd (rnd o l.kTiles) v.val (bv.getD o Val.zero) else v.val
    if c.i.acc then
      let d := old.getD o Val.zero
      if v.sum.isNone && !bias then d else addRnd (rnd o (adds - 1)) d x
    else x
  let n := l.countRuns runs hits
  let sticky : Nat := (sums.map (·.sticky)).sum
  let s := s.tableFaults c hits
  let s := ((((s.count 0 c.b 0 n.issued).count 0 c.b 1 n.skipped).count 0 c.b 2 n.allSkip).count 0 c.b 3 n.el.waits).count 0 c.b 4 n.carryCyc
  let s := if sticky = 0 then s else s.blkSticky c.b 4
  let s := ((s.count 0 c.b 5 sticky).count 0 c.b 8 n.elided).count 0 c.b 9 n.unclean
  let s := if c.i.imm / 64 % 4 = 0 then s else s.count 0 c.b 7 (runs.filter fun r => !r.carry).length
  ((s.countAdds c k adds order.length).noteCycles c (l.cycles n)).writeDst c out big

def execMma (f : Fire) (s : State) : Host.Outcome State Fault Refusal :=
  .next (s.fire f (·.op == opMma) (arrayRun State.mmaLay f.ups))

def execConv (f : Fire) (s : State) : Host.Outcome State Fault Refusal :=
  .next (s.fire f (·.op == opConv) (arrayRun State.convLay f.ups))

end Sys2Proof.Machine
end

