-- ==== Sys2Proof/Machine/RegOps.lean ====
section
/-! DEFINITION. Access to registers (R12-R14, R463, R500, R505, R513): what a read latches and clears, what a write does. -/

namespace Sys2Proof.Machine

/-! ## Reading -/

/-- The registers named `_LO`; each `_HI` stands at the next offset (R505). -/
def RegId.isLo : RegId → Bool
  | .glbJobLo | .glbTimeLo | .pwrWakeLo | .engAccLo _ | .engHeadLo | .engOldestLo | .errTimeLo | .errCtxLo | .ageLastLo | .trcTrigLo
  | .trcStopLo | .drvOffsetLo => true
  | _ => false

/-- Whether a register holds an RC field. -/
def RegId.isRc : RegId → Bool
  | .glbSb | .glbCdc | .hciBad | .hciAborts | .pwrRefuse _ | .engGaps | .engHandleDrop | .errLogOvf | .trcDrop _ | .drvFoldTbl
  | .rgnMeshResend _ | .tlyLreplay _ | .tlyVerdicts _ | .tlyWidth _ | .queToCnt _ | .queDeadline _ | .blkDroop _ | .blkCdc _ => true
  | _ => false

/-- The losses of a source's lines set to 0 (R513). -/
def State.cdcReadLost (s : State) (src : Nat) : State :=
  if !srcLegal src || !s.srcPowered src then s
  else { s with cdc := { s.cdc with lines := s.cdc.lines.map fun (e : Nat × CdcLine) => if e.1 / 8 = src then (e.1, { e.2 with lost := 0 }) else e } }

/-- The RC fields of a register cleared by the read that returned them (R14). -/
def State.clearRc (s : State) : RegId → State
  | .glbSb => { s with sb := { s.sb with pecErr := 0, badAccess := 0 } }
  | .glbCdc => s.cdcReadLost s.cdc.sel
  | .hciBad => { s with hci := { s.hci with bad := 0 } }
  | .hciAborts => { s with hci := { s.hci with late := 0, won := 0 } }
  | .pwrRefuse n => { s with pwr := { s.pwr with refuse := s.pwr.refuse.set (n - 1) 0 } }
  | .engGaps => { s with eng := { s.eng with gaps := 0 } }
  | .engHandleDrop => { s with eng := { s.eng with handleDrop := 0 } }
  | .errLogOvf => { s with err := { s.err with dropped := 0, overwritten := 0 } }
  | .trcDrop r => s.modRgn r fun g => { g with trcDrop := 0 }
  | .drvFoldTbl => { s with drv := { s.drv with peak := drop s.drv.foldSel s.drv.peak } }
  | .rgnMeshResend r => s.modRgn r fun g => { g with meshResend := 0 }
  | .tlyLreplay r => s.modRgn r fun g => { g with lreplay := 0 }
  | .tlyVerdicts r => s.modRgn r fun g => { g with stepReplay := 0, stepSkip := 0 }
  | .tlyWidth r => s.modRgn r fun g => { g with ceiling := 0, size := 0, narrowed := 0, granted := 0 }
  | .queToCnt r => s.modRgn r fun g => { g with toCnt := 0 }
  | .queDeadline r => s.modRgn r fun g => { g with deadline := 0 }
  | .blkDroop g => if (s.blk g).excluded then s else s.modBlk g fun x => { x with droop := 0 }
  | .blkCdc g => s.cdcReadLost (srcBlock g)
  | _ => s

/-- What a read latches: the `_HI` partner of a `_LO`, and words 1 to 7 of the log entry for ERR_LOG_0 (R473, R505). -/
def State.latched (s : State) (a : Nat) (r : RegId) (l : Map Nat) : Map Nat :=
  if r.isLo then
    match regAt (a + 4) with
    | some h => put (a + 4) (s.regWord h) l
    | none => l
  else if r = .errLog 0 then (List.range 7).foldl (fun (l : Map Nat) k => put (a + 4 * (k + 1)) (s.logWord (k + 1)) l) l
  else l

/-- One register read through a path with its latches: the value, the state after it, and the latches. An unmapped offset, and a register
that does not answer, read 0 (R499, R500). A read of LNK_FEC takes a free value. -/
def State.readReg (s : State) (l : Map Nat) (a : Nat) : Nat × State × Map Nat :=
  match regAt a with
  | none => (0, s, l)
  | some r =>
    if !s.winAnswers r.win then (0, s, l)
    else
      let v := match find? a l with
        | some v => v
        | none => s.regWord r
      let l := s.latched a r l
      let s := match r with
        | .lnkFec _ => { s with fresh := s.fresh + 1 }
        | _ => s
      (v, s.clearRc r, l)

/-- Registers read in order. -/
def State.readRegs (s : State) (l : Map Nat) (as : List Nat) : List Nat × State × Map Nat :=
  as.foldl (fun (x : List Nat × State × Map Nat) a =>
    let (v, s, l) := x.2.1.readReg x.2.2 a
    (x.1 ++ [v], s, l)) ([], s, l)

/-! ## Writing -/

/-- A sticky field with the bits of a write of 1 cleared. -/
def clear1 (old v : Nat) : Nat := old - Nat.land old v

/-- Overrun flags of a source cleared: the next loss on such a line is reported again (R41, R513). -/
def State.clearCdc (s : State) (src mask : Nat) : State :=
  if !srcLegal src || !s.srcPowered src then s
  else
    let clear (e : Nat × CdcLine) : Nat × CdcLine :=
      if e.1 / 8 = src && bitAt mask (e.1 % 8) then (e.1, { e.2 with flag := false }) else e
    { s with cdc := { s.cdc with lines := s.cdc.lines.map clear } }

/-- A write to RD: a distance forward from the present RD, never back, and never beyond WR (R463). -/
def State.consumeLog (s : State) (v : Nat) : State :=
  let e := s.err
  let ahead := (v + 2048 - e.rd) % 2048
  { s with err := { e with rd := if ahead ≤ e.unread then v % 2048 else e.wr } }

/-- A write of 1 to VALID re-arms the first-fault latch (R463). -/
def State.rearmFirst (s : State) : State :=
  if s.err.valid then { s with err := { s.err with valid := false, window := [], quiet := s.err.quiet ++ s.err.window } } else s

/-- A write of QUE_DESC_SEL captures the descriptor of the local queue; one that QUEUE_TABLE does not declare reads 0 (R241). -/
def State.captureDesc (s : State) (r v : Nat) : State :=
  let q := r * 65536 + v % 65536
  let bits := match s.queue? q with
    | some x => x.bits
    | none => 0
  s.modRgn r fun g => { g with descSel := v % 65536, descCap := bits }

/-- A write to a register, but for WAKE in PWR_CTL: RW fields take the value, RW1C bits are cleared, WO fields act, the rest is ignored
(R12). -/
def State.writePlain (s : State) (r : RegId) (v : Nat) : State :=
  match r with
  | .glbCdcSel => { s with cdc := { s.cdc with sel := v % 65536 } }
  | .glbCdc => s.clearCdc s.cdc.sel (v % 256)
  | .blkCdc g => s.clearCdc (srcBlock g) (v % 8)
  | .hciSel => { s with hci := { s.hci with sel := v % 64 } }
  | .engFlkCtl =>
    let s := if bitAt v 31 then s.signFlock else s
    if bitAt v 30 then s.clearFlock else s
  | .engFlkStage n => if n = 11 then s.stageAppend v else { s with eng := { s.eng with stage := s.eng.stage.set n v } }
  | .errFirst => if bitAt v 31 then s.rearmFirst else s
  | .errLogPtr => s.consumeLog (field v 26 16)
  | .errAlert => { s with err := { s.err with alert := clear1 s.err.alert (v % 16) } }
  | .errAlertEn => { s with err := { s.err with alertEn := v % 16 } }
  | .ageCtl => if bitAt v 0 then s.ageNow else s
  | .trcCtl =>
    let s := if bitAt v 0 then s.force else s
    if bitAt v 1 then s.disarm else s
  | .memCrcLast => if bitAt v 31 then { s with mem := { s.mem with crcValid := false } } else s
  | .lnkDown p => if bitAt v 31 then s.modPort p fun x => { x with downValid := false } else s
  | .drvFoldSel => { s with drv := { s.drv with foldSel := v % 16 } }
  | .drvLost => if bitAt v 31 then { s with drv := { s.drv with lostValid := false } } else s
  | .rgnSticky r => s.modRgn r fun g => { g with sticky := clear1 g.sticky (v % 128) }
  | .queToLast r => if bitAt v 16 then s.modRgn r fun g => { g with toValid := false } else s
  | .queBroken r => if bitAt v 31 then s.modRgn r fun g => { g with brkAny := false } else s
  | .queDescSel r => s.captureDesc r v
  | .blkSticky g => s.modBlk g fun x => { x with sticky := clear1 x.sticky (v % 256) }
  | _ => s

end Sys2Proof.Machine
end

