-- ==== Sys2Proof/Machine/LoadProg.lean ====
section
/-! DEFINITION. The load rules of stage programs (order 7 of R399): form, operands, shapes, rounding and random streams (R118-R149, R181-R184,
R189, R199, R203, R244, R245, R253-R257, R535). -/

namespace Sys2Proof.Machine

/-- The error where a check fails. -/
def need (ok : Bool) (e : LoadErr) : List LoadErr := if ok then [] else [e]

/-- An instruction in its place: block, stage and index within the stage program. -/
structure InPlace where
  b : Nat
  g : Stage
  k : Nat
  i : IWord
  deriving DecidableEq, Repr

/-- Every stage of the job with its block. -/
def State.allStages (s : State) : List (Nat × Stage) := s.job.stages.flatMap fun e => e.2.map fun g => (e.1, g)

/-- The instructions of a stage in their places. -/
def inPlaces (b : Nat) (g : Stage) : List InPlace := g.prog.zipIdx.map fun (i, k) => ⟨b, g, k, i⟩

/-- Every instruction of the job. -/
def State.allInstrs (s : State) : List InPlace := s.allStages.flatMap fun x => inPlaces x.1 x.2

/-! ## Form of a program (R118-R121) -/

/-- The form of one stage: 2 to 1,024 instructions, header ranges, one SEAL LAYER, a SEAL STEP that ends the last stage and no other. The body
may be empty, as the tail may (R120; DESIGN CHOICE, log 158). -/
def Stage.formOk (g : Stage) (last : Bool) : Bool :=
  2 ≤ g.prog.length && g.prog.length ≤ 1024 && g.idx ≤ 15 && 1 ≤ g.repeats && g.repeats ≤ 256 && g.fold ≤ 15 &&
  (g.prog.filter IWord.isSealLayer).length == 1 &&
  (g.prog.filter IWord.isSealStep).length == b2n last &&
  (!last || (g.prog.getLast?.map IWord.isSealStep).getD false)

/-- The stages of a block: ascending, 4,096 instructions in all, their layers those of the block's sequence (R118, R121). -/
def State.blockStagesOk (s : State) (b : Nat) (l : List Stage) : Bool :=
  let rb := look {} b s.job.rblocks
  rising (l.map (·.idx)) && (l.map fun g => g.prog.length).sum ≤ 4096 && l.length == rb.hosted &&
  l.zipIdx.all (fun (g, k) => g.formOk (k + 1 == l.length) && (g.stream == 0xFFFF || g.stream < s.job.streams.length)) &&
  (l.all fun g => rb.seq.contains g.layer) && rb.seq.all fun y => l.any fun g => g.layer == y

/-! ## Operand forms (R123, R124, R126) -/

/-- Kinds allowed in an operand place, as the codes of R123; 0 is none. -/
abbrev Kinds := List Nat

/-- What R126 allows of an operation: kinds of SRC_A, SRC_B, SRC_C and DST, the flags ACC, SPEC, SCL, WATCH, and the IMM bits in use. -/
structure Form where
  a : Kinds
  b : Kinds := [0]
  c : Kinds := [0]
  d : Kinds
  acc : Bool := false
  spec : Bool := false
  scl : Bool := false
  watch : Bool := false
  imm : Nat := 0

/-- Sources of a VEC variant (R129); none for a code the table does not list. -/
def vecOperands (v : Nat) : Option Nat :=
  if [0x00, 0x07, 0x08, 0x09, 0x10, 0x11, 0x12, 0x13, 0x14, 0x15, 0x16, 0x18, 0x19, 0x1A].contains v then some 1
  else if [0x01, 0x02, 0x03, 0x05, 0x06, 0x0B, 0x20, 0x21, 0x22].contains v then some 2
  else if v = 0x04 || v = 0x0A then some 3
  else none

/-- The form of an opcode and variant (R124, R126); none where R124 lists none. -/
def formOf (op var : Nat) : Option Form :=
  let m32 := 2 ^ 32 - 1
  let hi := m32 * 2 ^ 32
  match op, var with
  | 0x01, 0 => some { a := [1], b := [1], c := [0, 1], d := [1], acc := true, spec := true, scl := true, watch := true, imm := 0xFF }
  | 0x02, 0 => some { a := [1], b := [1], c := [0, 1], d := [1], acc := true, spec := true, scl := true, watch := true, imm := 0xFFFFFC3 }
  | 0x10, v => (vecOperands v).map fun n =>
      { a := [1, 3], b := if 2 ≤ n then [1, 3] else [0], c := if n = 3 then [1, 3] else [0], d := [1], acc := v == 1,
        spec := true, scl := true, watch := true, imm := if v = 0 then 0x3FFFF else if v = 9 then m32 else 0 }
  | 0x11, 0x01 => some { a := [1], b := [1], c := [0, 1], d := [1], spec := true, scl := true, watch := true, imm := m32 }
  | 0x11, 0x02 => some { a := [1], b := [1], d := [1], spec := true, scl := true, watch := true, imm := m32 }
  | 0x11, 0x11 => some { a := [1], b := [1], c := [1], d := [1], spec := true, scl := true, watch := true, imm := m32 }
  | 0x11, 0x12 => some { a := [1], b := [1], c := [1], d := [1], spec := true, scl := true, watch := true, imm := m32 }
  | 0x12, 0x01 => some { a := [1], d := [1], spec := true, scl := true, watch := true, imm := hi }
  | 0x12, 0x02 => some { a := [1], d := [1], spec := true, scl := true, watch := true, imm := hi + m32 }
  | 0x12, 0x11 => some { a := [1], b := [1], d := [1], spec := true, scl := true, watch := true, imm := hi }
  | 0x13, v => if 1 ≤ v && v ≤ 6 then
      some { a := [1], d := [1, 3], acc := true, spec := true, scl := true, watch := true, imm := 0x3F } else none
  | 0x20, 0 => some { a := [1], b := [1], d := [1], spec := true, watch := true }
  | 0x21, 0 => some { a := [1], b := [1], d := [1], acc := true }
  | 0x22, 0x01 => some { a := [1], c := [0, 1], d := [1], watch := true, imm := 0xFFFF000F }
  | 0x22, 0x02 => some { a := [1], d := [1], watch := true, imm := 0xFFFF000F }
  | 0x30, 0 => some { a := [1], d := [1], spec := true, scl := true, watch := true }
  | 0x31, 0 => some { a := [1], d := [1], spec := true, watch := true }
  | 0x40, 0x01 => some { a := [0], c := [4], d := [1], spec := true, watch := true }
  | 0x40, 0x02 => some { a := [0], c := [4], d := [1], spec := true, watch := true, imm := hi + m32 }
  | 0x40, 0x03 => some { a := [1], c := [4], d := [1], spec := true, watch := true, imm := m32 }
  | 0x41, 0x01 => some { a := [1], b := [1], c := [3], d := [1], watch := true, imm := hi + m32 }
  | 0x41, 0x02 => some { a := [1], b := [1], c := [3], d := [1], watch := true, imm := m32 }
  | 0x50, v => if v < 2 then some { a := [1, 3], d := [2] } else none
  | 0x51, v => if v < 2 then some { a := [2], d := [1] } else none
  | 0x60, v => if v = 1 || v = 2 then some { a := [0], d := [0], imm := 0xFFFF } else none
  | _, _ => none

/-- The reserved bits of an operand reference are 0 (R123). -/
def OpRef.plain (r : OpRef) : Bool :=
  match r.kind with
  | 0 => r.value == 0
  | 1 => r.value / 2 ^ 20 % 64 == 0
  | 2 => r.value < 2 ^ 18
  | 3 => r.value < 16
  | 4 => r.value < 4096
  | _ => false

/-- The four operand references of an instruction. -/
def IWord.refs (i : IWord) : List OpRef := [i.srcA, i.srcB, i.srcC, i.dst]

/-- The tensors an instruction names. -/
def IWord.tensors (i : IWord) : List Nat := i.refs.flatMap OpRef.slots

/-- Its sources. -/
def IWord.srcs (i : IWord) : List OpRef := [i.srcA, i.srcB] ++ (if i.op = opRoute || i.op = opLoss then [] else [i.srcC])

/-- A value of FP32 bits in a range of non-negative numbers, given by its bounds' bits; a zero of either sign counts as 0. -/
def f32In (lo hi v : Nat) : Bool := let v := if v = 0x80000000 then 0 else v; lo ≤ v && v ≤ hi

/-- The FP32 bits of 1 and of +∞. -/
def f32One : Nat := 0x3F800000
def f32Inf : Nat := 0x7F800000

/-- IMM within R126: reserved bits 0, and every field in its range. -/
def IWord.immOk (i : IWord) (f : Form) (layer : Nat) : Bool :=
  Nat.land i.imm f.imm == i.imm &&
  match i.op with
  | 0x01 => field i.imm 7 6 ≤ 2 && field i.imm 1 0 ≤ 2
  | 0x02 => field i.imm 1 0 == 0 && 1 ≤ field i.imm 11 8 && 1 ≤ field i.imm 15 12 && 1 ≤ field i.imm 19 16 && field i.imm 7 6 ≤ 2
  | 0x11 => f32In 1 f32Inf i.imm
  | 0x22 => field i.imm 3 0 ≤ 7
  | 0x40 => i.var != 3 || f32In 1 f32One i.imm
  | 0x41 => i.var != 1 || f32In 0 f32One (i.imm / 2 ^ 32)
  | 0x60 => i.imm == layer
  | _ => true

/-- An instruction word that R122 to R126 allow. -/
def InPlace.formOk (p : InPlace) : Bool :=
  let i := p.i
  match formOf i.op i.var with
  | none => false
  | some f =>
    i.rsv == 0 && f.a.contains i.srcA.kind && f.b.contains i.srcB.kind && f.c.contains i.srcC.kind && f.d.contains i.dst.kind &&
    i.refs.all OpRef.plain && (!i.acc || f.acc) && (!i.spec || f.spec) && (!i.scl || f.scl) && (!i.watch || f.watch) &&
    (i.op != opScatter || i.acc) && i.immOk f p.g.layer

/-! ## Tensors an instruction names (R123, R127, R128, R130, R138, R244) -/

/-- An index format (R128). -/
def indexFw (w : Nat) : Bool := fwBsz w == 0 && (fwFmt w == INT16 || fwFmt w == FP32)

/-- An FP6 format. -/
def isFp6 (w : Nat) : Bool := fwFmt w == E2M3 || fwFmt w == E3M2

/-- Whether an operand place of an instruction may hold FP6 (R55, R130). -/
def IWord.fp6At (i : IWord) (place : Nat) : Bool :=
  i.unit != .vector || (i.op == opDequant && place == 0) || (i.op == opQuant && place == 3)

/-- Whether an instruction may name tensors of the memory tiers (R127). -/
def IWord.memOk (i : IWord) : Bool := i.op == opGather || i.op == opScatter || (i.op == opVec && i.var == 0)

/-- Whether the tensor table lists `t`, and not as the tail of a pair (R282). -/
def State.named (s : State) (t : Nat) : Bool := has t s.job.tensors && !(look {} t s.job.tensors).pairTail

/-- The words a governed tensor can take: those of its reachable classes (R157). -/
def State.wordsOf (s : State) (t : Nat) : List Nat :=
  let d := s.desc t
  match s.policy d.layer d.role with
  | none => [d.fmtw]
  | some e => if 3 < d.role then [d.fmtw] else d.fmtw :: ((List.range 3).filter fun c => e.lowest ≤ c && c ≤ e.highest).map e.fmtAt

/-- One tensor operand: it exists; both slots of ROT alike; REP's extent; tier, block, and no FP6
among the formats it can take where the operation takes none. -/
def State.operandOk (s : State) (p : InPlace) (place : Nat) (r : OpRef) : Bool :=
  !r.isT ||
  let d := s.desc r.tensor
  (r.slots.all fun t =>
    let e := s.desc t
    s.named t && e.ext == d.ext && e.fmtw == d.fmtw && e.tier == d.tier && (e.tier == 0 || p.i.memOk) &&
    (e.tier != 0 || e.block == p.b) && (p.i.fp6At place || (s.wordsOf t).all fun w => !isFp6 w)) &&
  (!r.rep || p.g.repeats ≤ d.e d.outer)

/-- The extents of a tensor operand as one repeat sees it. -/
def State.refExt (s : State) (r : OpRef) : List Nat :=
  let d := s.desc r.tensor
  if r.rep then d.ext.set d.outer 1 else d.ext

/-- Flags: ACC into an unscaled FP32 tensor (R138); SPEC into a tensor with a staging copy (R244). -/
def State.flagsOk (s : State) (i : IWord) : Bool :=
  (!i.acc || (i.dst.isT && i.dst.slots.all fun t => (s.desc t).fmtw % 128 == 0)) &&
  (!i.spec || (i.dst.isT && i.dst.slots.all fun t => (s.desc t).stgoff != 0))

/-! ## Array operands (R89, R109, R181, R182, R189, R191, R535) -/

/-- Digits of a width class. -/
def classDigits (c : Nat) : Nat := c / 4

/-- A legal pairing of two array formats (R89). -/
def pairLegal (a w : Nat) : Bool :=
  let isInt (c : Nat) : Bool := c == INT4 || c == INT8 || c == INT16
  widthClass a != 0 && widthClass w != 0 && (isInt a == isInt w || (isInt a && a == INT4) || (isInt w && w == INT4))

/-- Dense extent of a weight tensor's dimension 0 (R181). -/
def Desc.denseK (d : Desc) : Nat := d.e 0 * (if d.sparse = 1 then 2 else if d.sparse = 2 then 4 else 1)

/-- Structured storage: K a multiple of 8 under 2:4 and 16 under 1:4 (R182), its metadata tensor (R183). -/
def State.sparseOk (s : State) (d : Desc) : Bool :=
  d.sparse == 0 ||
  let m := s.desc d.mta
  d.sparse ≤ 2 && has d.mta s.job.tensors && d.denseK % (if d.sparse = 1 then 8 else 16) == 0 && m.fmtw % 128 == INT8 &&
  m.e 0 * 4 == d.e 0 && m.ext.drop 1 == d.ext.drop 1

/-- A bias as one repeat sees it: one value per output feature, broadcast elsewhere, in formats the vector unit reads (R535). -/
def State.biasOk (s : State) (i : IWord) : Bool :=
  !i.srcC.isT ||
  let x := s.refExt i.srcC
  x.getD 0 1 == (s.refExt i.dst).getD 0 1 &&
  i.srcC.slots.all fun t => ((s.wordsOf t).all fun w => !isFp6 w) && [1, 2, 3, 4, 5].all fun k => x.getD k 1 == 1 || (s.desc t).st k == 0

/-- Segments of a packed tile (R126). -/
def IWord.segs (i : IWord) : Nat := field i.imm 5 2 + 1

/-- Logical columns that one segment of a packed tile takes: a blank for each output (R83, R107). -/
def State.segWidth (s : State) (i : IWord) : Nat :=
  let cls := Nat.max (widthClass (fwFmt (s.desc i.srcA.tensor).fmtw)) (widthClass (fwFmt (s.desc i.srcB.tensor).fmtw))
  prod ((s.refExt i.srcB).drop 1) / i.segs * classDigits cls

/-- Logical columns that a packed tile takes. -/
def State.packedWidth (s : State) (i : IWord) : Nat := i.segs * s.segWidth i

/-- The column limits of a packed tile: every segment is a multiple of 16 columns, at least 16 (R108). -/
def State.packedOk (s : State) (i : IWord) : Bool := 16 ≤ s.segWidth i && s.segWidth i % 16 == 0 && s.packedWidth i ≤ 256

/-- Whether an instruction is a packed MMA. -/
def IWord.isPacked (i : IWord) : Bool := i.op == opMma && field i.imm 1 0 == 1

/-- The array operands of MMA or CONV. The total width of a packed tile is held to the 256 columns of an array here and to the block's own
presented width once repair has set it (R108, R109, log 131). The packed limits are
tested at the load-time formats alone: R157 asks only the pairings of R89 of every reachable class (DESIGN CHOICE, log 150). -/
def State.arrayOk (s : State) (i : IWord) : Bool :=
  let a := s.desc i.srcA.tensor
  let w := s.desc i.srcB.tensor
  let store := field i.imm 7 6
  let cls := Nat.max (widthClass (fwFmt a.fmtw)) (widthClass (fwFmt w.fmtw))
  let segs := field i.imm 5 2 + 1
  let shape := field i.imm 1 0
  pairLegal (fwFmt a.fmtw) (fwFmt w.fmtw) && (i.srcB.slots.all fun t => (s.desc t).sparse == store) &&
  (i.srcA.slots.all fun t => (s.desc t).sparse == 0) && s.biasOk i &&
  (if i.op = opMma then
    a.e 0 == w.denseK && (segs == 1 || shape == 1) && (shape != 1 || segs * classDigits cls * (if store = 0 then 1 else 4) ≤ 16) &&
    (shape != 2 || store == 0) && (shape != 1 || s.packedOk i)
   else a.e 0 == w.denseK && (s.desc i.dst.tensor).e 0 == w.e 3)

/-! ## Routing, gathering, copying (R199, R203, R255) -/

def State.routeOk (s : State) (i : IWord) : Bool :=
  let l := s.refExt i.srcA
  let d := s.desc i.dst.tensor
  let dx := s.refExt i.dst
  let ne := l.getD 0 1
  let nt := l.getD 1 1
  let k := field i.imm 3 0 + 1
  let cap := field i.imm 31 16
  2 ≤ ne && ne ≤ 4096 && (l.drop 2).all (· == 1) && k ≤ ne && indexFw d.fmtw &&
  (if i.var = 1 then
    1 ≤ cap && dx == [cap, ne, 1, 1, 1, 1] && nt ≤ (if fwFmt d.fmtw = INT16 then 32768 else 2 ^ 24) &&
    (!i.srcC.isT || (s.refExt i.srcC == dx && fwBsz (s.desc i.srcC.tensor).fmtw == 0 && fwFmt (s.desc i.srcC.tensor).fmtw ≤ 2))
   else cap == 0 && dx == [ne, 1, 1, 1, 1, 1] && (fwFmt d.fmtw != INT16 || nt * k ≤ 32767))

/-- GATHER and SCATTER_ADD: the rows' tensor has the table's lower dimensions, and upper ones that multiply to the index count. -/
def State.rowsOk (s : State) (i : IWord) : Bool :=
  let tab := if i.op = opGather then s.refExt i.srcA else s.refExt i.dst
  let rows := if i.op = opGather then s.refExt i.dst else s.refExt i.srcA
  let out := ([5, 4, 3, 2, 1, 0].find? fun k => tab.getD k 1 != 1).getD 0
  rows.take out == tab.take out && prod (rows.drop out) == prod (s.refExt i.srcB) && indexFw (s.desc i.srcB.tensor).fmtw

/-- The six fields of a permutation (R126). -/
def permOf (imm : Nat) : List Nat := (List.range 6).map fun k => field imm (3 * k + 2) (3 * k)

/-- VEC COPY: every dimension named once, and extents that agree (R255): the dense ones of a sparse source where the destination is dense
(R191), the stored ones else. A scalar slot has no extents (log 130). -/
def State.copyOk (s : State) (i : IWord) : Bool :=
  let a := s.refExt i.srcA
  let expands := (s.desc i.srcA.tensor).sparse != 0 && (s.desc i.dst.tensor).sparse == 0
  let src := if expands then a.set 0 (s.desc i.srcA.tensor).denseK else a
  let d := s.refExt i.dst
  let f := permOf i.imm
  (List.range 6).all (fun k => f.contains k) &&
  (!i.srcA.isT || (List.range 6).all fun k => d.getD k 1 == src.getD (f.getD k 0) 1)

/-! ## Shapes of the vector unit's operands (log 58) -/

/-- Whether a source's extents are those of the destination, or 1. -/
def fits (src dst : List Nat) : Bool := (List.range 6).all fun k => src.getD k 1 == dst.getD k 1 || src.getD k 1 == 1

/-- Elementwise operands have the destination's extents or broadcast; rows of NORM, SOFTMAX and LOSS have the input's; MMA writes one
element for each pair of a token and an output of a segment. -/
def State.shapesOk (s : State) (i : IWord) : Bool :=
  let d := s.refExt i.dst
  let one (r : OpRef) : Bool := !r.isT || fits (s.refExt r) d
  match i.op with
  | 0x01 =>
    let a := s.refExt i.srcA
    let w := s.refExt i.srcB
    let segs := if field i.imm 1 0 = 1 then field i.imm 5 2 + 1 else 1
    prod d * segs == prod (a.drop 1) * prod (w.drop 1) && prod (a.drop 1) % segs == 0 && prod (w.drop 1) % segs == 0
  | 0x10 => i.var == 0 || (one i.srcA && one i.srcB && one i.srcC)
  | 0x11 => s.refExt i.srcA == d && one i.srcB && one i.srcC
  | 0x12 => s.refExt i.srcA == d && one i.srcB
  | 0x30 => s.refExt i.srcA == d
  | 0x31 => s.refExt i.srcA == d
  | 0x40 => one i.srcA
  | 0x41 => s.refExt i.srcA == d
  | _ => true

/-- Formats that R126 asks of a destination, and index operands of R128. -/
def State.formatsOk (s : State) (i : IWord) : Bool :=
  let w := (s.desc i.dst.tensor).fmtw
  match i.op with
  | 0x21 => w % 128 == 0
  | 0x30 => fwBsz w != 0 || fwWidth w == 8
  | 0x31 => fwBsz w == 0 && fwFmt w ≤ 2
  | 0x41 => i.var != 1 || indexFw (s.desc i.srcB.tensor).fmtw
  | _ => true

/-! ## A backward instruction and its forward (R132) -/

/-- The constants of a backward instruction equal those of the forward of its layer that it takes its input or output from. -/
def State.forwardOk (s : State) (p : InPlace) : Bool :=
  let i := p.i
  let same (q : InPlace) (a b : OpRef) : Bool := q.g.layer == p.g.layer && !q.g.backward && a.isT && a.slots.any fun t => b.slots.contains t
  if i.op = opNorm && 0x10 < i.var then
    (s.allInstrs.filter fun q => q.i.op == opNorm && q.i.var + 0x10 == i.var && same q q.i.srcA i.srcC).all fun q => q.i.imm == i.imm
  else if i.op = opSoftmax && i.var = 0x11 then
    (s.allInstrs.filter fun q => q.i.op == opSoftmax && q.i.var < 0x10 && same q q.i.dst i.srcB).all fun q =>
      q.i.imm / 2 ^ 32 == i.imm / 2 ^ 32
  else true

/-! ## Queues of an instruction (R217, R218) -/

/-- Bytes of payload that a tensor operand takes (R218). -/
def State.payloadOf (s : State) (r : OpRef) : Nat :=
  if !r.isT then 4
  else
    let d := s.desc r.tensor
    let n := prod (s.refExt r)
    ceilDiv (n * d.w) 8 + (if d.bs = 0 then 0 else n / d.bs)

/-- The queue of a SEND or RECV. -/
def IWord.queueOf (i : IWord) : Nat := if i.isSend then i.dst.queue else i.srcA.queue

/-- The tensor operand of a SEND or RECV. -/
def IWord.cargo (i : IWord) : OpRef := if i.isSend then i.srcA else i.dst

/-- A SEND or RECV names a queue that names its stage, in the queue's mode, by whole items or one packet. -/
def State.queueOpOk (s : State) (p : InPlace) : Bool :=
  let i := p.i
  !(i.isSend || i.isRecv) ||
  match find? i.queueOf s.job.queues with
  | none => false
  | some e =>
    let me := some (Endpoint.stage p.b p.g.idx)
    i.var == e.mode && (if i.isSend then e.producers.contains me else e.consumer == me) &&
    (e.mode == 1 || s.payloadOf i.cargo % (8 * e.item) == 0 || (!i.cargo.isT && e.item == 1)) &&
    (e.mode == 0 || s.payloadOf i.cargo < 2 ^ 24)

/-! ## Rounding and random streams (R139, R142, R143) -/

/-- Whether a conversion into a tensor rounds stochastically: RND of its word, or the flag of the gradients role (R77, R139). -/
def State.rndOf (s : State) (t : Nat) : Bool :=
  let d := s.desc t
  (s.wordsOf t).any (fun w => fwRnd w == 1) || (d.role == 2 && ((s.policy d.layer 2).map (·.stochastic)).getD false)

/-- Terms summed into each output element in the step (R139, R535). -/
def State.termsAt (s : State) (p : InPlace) : Nat :=
  let i := p.i
  let a := s.desc i.srcA.tensor
  let w := s.desc i.srcB.tensor
  let k := match i.op with
    | 0x01 => a.e 0 + b2n i.srcC.isT
    | 0x02 => a.e 0 * w.e 1 * w.e 2 + b2n i.srcC.isT
    | 0x13 => if i.var = 3 || i.var = 4 || i.var = 5 then 1
              else prod ((List.range 6).map fun d => if bitAt i.imm d then (s.refExt i.srcA).getD d 1 else 1)
    | 0x21 => prod (s.refExt i.srcB)
    | _ => 1
  if i.acc && !i.dst.rot && !i.dst.rep then k * p.g.repeats else k

/-- Whether an instruction converts its result (R125). -/
def IWord.converts (i : IWord) : Bool := i.op != opSend && i.op != opRecv && i.op != opSeal && i.dst.isT

/-- The elements of an instruction's destination. -/
def State.dstCount (s : State) (i : IWord) : Nat := prod (s.refExt i.dst)

/-- Whether an instruction adds up terms: into a tensor, or a REDUCE into a scalar slot (R139). -/
def IWord.sums (i : IWord) : Bool := i.converts || (i.op == opReduce && i.dst.isS)

/-- Whether an instruction draws from its stage's rounding stream: stochastic conversions and accumulations (R139). -/
def State.needsStream (s : State) (p : InPlace) : Bool :=
  (p.i.sums && 65536 < s.termsAt p) || (p.i.converts && p.i.dst.slots.any s.rndOf)

/-- The largest generator block an instruction can reach (R143). -/
def State.topBlock (s : State) (p : InPlace) : Nat :=
  let n := if p.i.dst.isS then 1 else s.dstCount p.i
  let draws := if p.i.op = opRng then (n - 1) / 4 else 0
  let conv := if p.i.converts && p.i.dst.slots.any s.rndOf then (p.g.repeats * n - 1) / 8 else 0
  let add := if p.i.sums && 65536 < s.termsAt p then (n * s.termsAt p - 1) / 8 else 0
  Nat.max draws (Nat.max conv add)

/-- One use of a STREAM_TABLE entry: whether it rounds, its element count and Repeats (R142). -/
structure Use where
  entry : Nat
  rounds : Bool
  count : Nat
  repeats : Nat
  deriving DecidableEq, Repr

/-- Every use of the job: rounding streams of stages, stream operands, and GRAD_STREAM. -/
def State.uses (s : State) : List Use :=
  (s.allStages.filterMap fun (_, g) => if g.stream = 0xFFFF then none else some ⟨g.stream, true, 0, g.repeats⟩) ++
  (s.allInstrs.filterMap fun p => if p.i.srcC.isX then some ⟨p.i.srcC.stream, false, s.dstCount p.i, p.g.repeats⟩ else none) ++
  (if s.job.flock.gradStream = 0xFFFF then [] else [⟨s.job.flock.gradStream, true, 0, 1⟩])

/-- STREAM_DUP with its detail and the two indices (R456, R457). -/
def dupErr (detail second first : Nat) : LoadErr := ⟨faultCode 3 STREAM_DUP detail, second % 65536 * 65536 + first % 65536⟩

/-- Entry `k` of the stream table. -/
def State.streamE (s : State) (k : Nat) : StreamE := s.job.streams.getD k ⟨0, false, 0xFFFF⟩

/-- Whether one of two entries replays the other. -/
def State.replays (s : State) (a b : Nat) : Bool := (s.streamE a).replays == b || (s.streamE b).replays == a

/-- The pairs of a list, each entry with those after it. -/
def pairsOf : List α → List (α × α)
  | [] => []
  | a :: r => (r.map fun b => (a, b)) ++ pairsOf r

/-- The checks of R142 over uses and replaying entries. -/
def State.streamErrs (s : State) : List LoadErr :=
  let us := s.uses
  let n := s.job.streams.length
  ((pairsOf us).flatMap fun (a, b) =>
    need (!((s.streamE a.entry).key == (s.streamE b.entry).key && (a.entry == b.entry || !s.replays a.entry b.entry)))
      (dupErr 0x01 b.entry a.entry)) ++
  (List.range n).flatMap fun k =>
    let e := s.streamE k
    if e.replays = 0xFFFF then []
    else
      let o := s.streamE e.replays
      let mine := us.filter fun u => u.entry == k
      let orig := us.filter fun u => u.entry == e.replays
      need (o.replays == 0xFFFF) (dupErr 0x02 k e.replays) ++
      need (!orig.any (·.rounds)) (dupErr 0x03 k e.replays) ++
      need (o.key == e.key && o.perDevice == e.perDevice) (dupErr 0x04 k e.replays) ++
      need (mine.all fun u => orig.all fun v => u.count == v.count && u.repeats == v.repeats) (dupErr 0x05 k e.replays)

/-! ## Speculation (R145) and overlap (R254-R257) -/

/-- The rules of a stage whose body writes with SPEC: of every RECV in it, and of what its body sends. -/
def Stage.specOk (g : Stage) : Bool :=
  let body := g.prog.take g.body
  let spec := (g.prog.filter fun i => i.spec).flatMap fun i => i.dst.slots
  !(body.any fun i => i.spec) ||
  ((g.prog.all fun i => !i.isRecv || (i.dst.rep && !i.dst.rot)) &&
   body.all fun i => !(i.isSend && i.srcA.slots.any fun t => spec.contains t))

/-- Whether two ranges (start, length) share a byte. -/
def meetRange (x y : Nat × Nat) : Bool := x.1 < y.1 + y.2 && y.1 < x.1 + x.2

/-- Whether the footprints of two descriptors intersect (R256). -/
def Desc.meets (a b : Desc) : Bool :=
  (a.tier == 0) == (b.tier == 0) && (a.tier != 0 || a.block == b.block) && a.ranges.any fun x => b.ranges.any fun y => meetRange x y

/-- A VEC COPY that transposes a square tile in place (R257). -/
def State.transposeOk (i : IWord) (a d : Desc) : Bool :=
  i.op == opVec && i.var == 0 && permOf i.imm == [1, 0, 2, 3, 4, 5] && a == d && d.tier == 0 && d.e 0 == d.e 1 && 16 ≤ d.e 0 && d.e 0 ≤ 256 &&
  (d.ext.drop 2).all (· == 1) && ceilDiv (d.count * d.w) 8 + d.nScale ≤ 262144

/-- DESC_OVERLAP with its detail and indices (R254, R457). -/
def overlapErr (detail first : Nat) (second : Nat := 0xFFFFFFFF) : LoadErr := ⟨faultCode 3 DESC_OVERLAP detail, second * 2 ^ 32 + first⟩

/-- One destination and one source of an instruction compared (R256). -/
def State.overlapErrs (s : State) (i : IWord) : List LoadErr :=
  i.dsts.flatMap fun r => r.slots.flatMap fun t => i.srcs.flatMap fun q => q.slots.flatMap fun u =>
    let d := s.desc t
    let a := s.desc u
    if !d.meets a then []
    else match i.unit with
      | .array => [overlapErr 0x05 t u]
      | .transfer => need (State.transposeOk i a d) (overlapErr 0x03 t u)
      | _ => need (a == d) (overlapErr 0x04 t u)

/-- The test of R254 that a destination addresses every byte from at most one element. -/
def Desc.oneToOne (d : Desc) : Bool :=
  let dims := ([1, 2, 3, 4, 5].filter fun k => 1 < d.e k).map fun k => (d.st k, d.e k)
  let step (x : Nat × Bool) (y : Nat × Nat) : Nat × Bool := (y.1 * (y.2 - 1) + x.1, x.2 && x.1 ≤ y.1)
  ((dims.foldr insertRange []).foldl step (ceilDiv (d.e 0 * d.w) 8, true)).2

/-! ## All of it -/

/-- The checks of one instruction, in the order they are made (log 43). -/
def State.instrErrs (s : State) (p : InPlace) : List LoadErr :=
  let i := p.i
  let bad := badField rtStage p.b
  if !p.formOk then [bad]
  else if !(i.refs.zipIdx.all fun (r, k) => s.operandOk p k r) then [bad]
  else
    need (s.flagsOk i && s.formatsOk i && s.shapesOk i && s.forwardOk p && s.queueOpOk p) bad ++
    need (i.unit != .array || s.arrayOk i) bad ++
    need (i.op != opRoute || s.routeOk i) bad ++
    need (!(i.op == opGather || i.op == opScatter) || s.rowsOk i) bad ++
    need (!(i.op == opVec && i.var == 0) || s.copyOk i) bad ++
    need (!i.srcC.isX || i.srcC.stream < s.job.streams.length) bad ++
    need (p.g.stream != 0xFFFF || !s.needsStream p) bad ++
    need (s.topBlock p < 2 ^ 32) bad ++
    s.overlapErrs i

/-- The checks of stage programs: of each block (R118-R121, R145, R245), then of each instruction. -/
def State.programErrs (s : State) : List LoadErr :=
  s.job.stages.flatMap fun (b, l) =>
    let bad := badField rtStage b
    let names := (l.flatMap fun g => g.prog.flatMap IWord.tensors).foldl (fun m t => insertN t m) []
    if !s.blockStagesOk b l then [bad]
    else need (names.length ≤ 512 && l.all Stage.specOk) bad ++ l.flatMap fun g => (inPlaces b g).flatMap s.instrErrs

/-- The packed tiles wider than their block presents, rounded down to a multiple of 16 (R108, R109): found once self-test has fixed the
presented widths and spares stand in (log 131). -/
def State.packErrs (s : State) : List LoadErr :=
  s.allInstrs.flatMap fun p => need (!p.i.isPacked || s.packedWidth p.i ≤ (s.blk p.b).width / 16 * 16) (badField rtStage p.b)

end Sys2Proof.Machine
end

