-- ==== Sys2Proof/Machine/Load.lean ====
section
/-! DEFINITION. The load rules of the other records (order 7 of R399): R156, R157, R209-R217, R232, R236, R237, R239, R244-R262, R270, R275,
R276, R282, R295, R302, R309, R347, R348, R354, R382-R394, R432, R534. -/

namespace Sys2Proof.Machine

/-! ## Policies (R156, R157, R262, R295, R382, R394, R432) -/

/-- DEVICE_POLICY, 64 bytes. -/
def deviceErrs (b : List Byte) : List LoadErr :=
  let u (o n : Nat) := leAt b o n
  let lw := u 4 4
  let hw := u 8 4
  need (b.length == 64 && zeroAt b [(0x0D, 1), (0x2A, 22)] && 1 ≤ u 0x0E 2 && u 0x0E 2 ≤ 600 && 1024 ≤ lw && lw ≤ 65536 && lw ≤ hw &&
    hw ≤ 131072 && 1 ≤ u 0x0C 1 && u 0x0C 1 ≤ 8 && u 0x10 4 ≤ 28672 && u 0x10 4 % 8 == 0 &&
    (arr b 0x14 1 4).all (fun w => 1 ≤ w && w ≤ 15) && (arr b 0x18 1 16).all (· ≤ 15) &&
    (arr b 0x28 1 2).all fun w => 1 ≤ w && w ≤ 15) (badField rtDevice 0)

/-- Whether every entry of a list occurs once. -/
def distinct (l : List Nat) : Bool := (l.foldl (fun m x => insertN x m) []).length == l.length

/-- POWER_POLICY (R382, R432): its register list names management registers, each once, none in RETAIN mode. -/
def powerErrs (b : List Byte) : List LoadErr :=
  let n := leAt b 4 4
  let regs := arr b 16 4 n
  need (b.length == 16 + 4 * n && zeroAt b [(1, 1), (8, 8)] && leAt b 0 1 ≤ 1 && 600 ≤ leAt b 2 2 && leAt b 2 2 ≤ 1900 && n ≤ 30720 &&
    (leAt b 0 1 == 0 || n == 0) && regs.all regMapped && distinct regs) (badField rtPower 0)

/-- ENERGY_POLICY, 32 bytes. -/
def energyErrs (b : List Byte) : List LoadErr :=
  need (b.length == 32 && zeroAt b [(5, 27)] && 1 ≤ leAt b 0 4 && leAt b 0 4 ≤ 65535 && leAt b 4 1 < 4) (badField rtEnergy 0)

/-- TRACE_POLICY and COUNTER_POLICY (R394). -/
def observeErrs (i : Image) : List LoadErr :=
  let t := i.body rtTrace
  let c := i.body rtCounter
  (if i.has rtTrace then
    need (t.length == 32 && zeroAt t [(25, 7)] && leAt t 24 1 < 2 && (readTrace t).legal) (badField rtTrace 0) else []) ++
  (if i.has rtCounter then need (c.length == 16 && zeroAt c [(8, 8)]) (badField rtCounter 0) else [])

/-- FP32 bits of 2^-16, 2^-12 and 2^-1. -/
def f32m16 : Nat := 0x37800000
def f32m12 : Nat := 0x39800000
def f32m1 : Nat := 0x3F000000

/-- The parameters of R156 in their ranges. -/
def PrecParams.ok (p : PrecParams) : Bool :=
  1 ≤ p.window && p.window ≤ 16 && f32In f32m16 f32m1 p.satWiden && f32In f32m16 f32m1 p.colWiden && f32In 0 p.satWiden p.satNarrow &&
  f32In 0 p.colWiden p.colNarrow && 1 ≤ p.calmSteps && p.calmSteps ≤ 65535 && f32In f32m12 f32One p.lreplayRate && p.lreplayMax ≤ 7 &&
  f32In f32m12 f32One p.sreplayRate && p.nanReplay ≤ 1 && p.sreplayMax ≤ 7 && p.arrayBudget ≤ 100 && p.sramBudget ≤ 100 &&
  1 ≤ p.pendingLimit && p.pendingLimit ≤ 15 && p.exhaustAction ≤ 1 && f32In f32m16 f32m1 p.rzSplit && f32In 0 p.rzSplit p.rzMerge &&
  f32In f32m12 f32One p.lostUp && f32In 0 p.lostUp p.lostDown && p.lambdaMax ≤ 8

/-- The reachable classes of an entry (R157). -/
def PrecEntry.reach (e : PrecEntry) : List Nat := (List.range 3).filter fun c => e.lowest ≤ c && c ≤ e.highest

/-- A PRECISION_POLICY entry: its byte fields, classes, formats of reachable classes, sizes and flags (R157, R390). -/
def precEntryOk (b : List Byte) (k layers : Nat) : Bool :=
  let o := 0x60 + 16 * k
  let e := readPrecEntry b k
  let fl := leAt b (o + 3) 1
  let words := e.reach.map fun c => (c, e.fmtAt c)
  e.layer < layers && e.role ≤ 3 && fl < 4 && (!e.privileged || e.role == 0) && (!e.stochastic || e.role == 2) && leAt b (o + 10) 1 < 64 &&
  e.highest ≤ 2 && e.lowest ≤ e.initial && e.initial ≤ e.highest && e.sizes < 16 && zeroAt b [(o + 14, 2)] && 1 ≤ e.initSc && e.initSc ≤ 0xFE &&
  (words.all fun x => fwLegal x.2 && widthClass (fwFmt x.2) == classNo x.1 &&
    (if fwBsz x.2 = 0 then x.1 == 2 else bitAt e.sizes (fwBsz x.2 - 1))) &&
  (words.all (fun x => fwBsz x.2 == 0) || (1 ≤ e.initSize && e.initSize ≤ 4 && bitAt e.sizes (e.initSize - 1)))

/-- The formats an operand of the array can take: of a governed tensor those of its reachable classes, else its own (R157). -/
def State.operandFmts (s : State) (t : Nat) : List Nat :=
  let d := s.desc t
  match s.policy d.layer d.role with
  | some e => if d.role ≤ 3 then e.reach.map fun c => fwFmt (e.fmtAt c) else [fwFmt d.fmtw]
  | none => [fwFmt d.fmtw]

/-- PRECISION_POLICY (R156, R157, R390). -/
def State.precErrs (s : State) (b : List Byte) : List LoadErr :=
  let n := leAt b 0x50 4
  let es := s.job.govs
  let arrays := s.allInstrs.filter fun p => p.i.unit == .array
  if b.length != 0x60 + 16 * n || !zeroAt b [(0x54, 12)] then [badField rtPrecision 0]
  else
    need s.job.prec.ok (badField rtPrecision 0) ++
    (List.range n).flatMap (fun k => need (precEntryOk b k (s.job.homes.length)) (badField rtPrecision k)) ++
    need (distinct (es.map fun e => govKey e.layer e.role) && (es.filter (·.privileged)).length ≤ 64) (badField rtPrecision 0) ++
    need (arrays.all fun p => (s.operandFmts p.i.srcA.tensor).all fun a => (s.operandFmts p.i.srcB.tensor).all fun w => pairLegal a w)
      (badField rtPrecision 0)

/-! ## REGION_MAP (R209, R384, R385) -/

/-- One block entry of REGION_MAP. -/
def rblockOk (b : List Byte) (r k layers : Nat) : Bool :=
  let o := 16 + 32 * k
  let x := readRBlock b k
  let so := leAt b (o + 12) 4
  let n := x.seq.length
  zeroAt b [(o + 3, 1), (o + 0x12, 14)] && x.hosted ≤ 16 && x.h0 % 64 == 0 && x.half % 64 == 0 && so + 2 * n ≤ leAt b 4 4 &&
  (x.seq.all (· < layers)) && (n == 0) == (x.hosted == 0) && (x.half == 0) == (n ≤ 1) && x.h0 + 2 * x.half ≤ storeBytes &&
  (x.spare == 0xFFFF || (x.spare / 64 == r && x.spare % 64 != k && (readRBlock b (x.spare % 64)).hosted == 0))

/-- REGION_MAP of region `r`; its home-region table is that of region 0. -/
def regionErrs (i : Image) (r : Nat) : List LoadErr :=
  let b := i.body rtRegion r
  let n := leAt b 0 4
  if b.length != 16 + 2048 + leAt b 4 4 + ceilDiv n 4 || n < 1 || 65536 < n || !zeroAt b [(8, 8)] || readHomes b != readHomes (i.body rtRegion 0) then
    [badField rtRegion 0]
  else (List.range 64).flatMap fun k => need (rblockOk b r k n) (badField rtRegion k)

/-- STAGE_PROGRAM records: one for each block that hosts stages and none otherwise (R381), and their byte layout (R385). -/
def State.stageErrs (s : State) (i : Image) : List LoadErr :=
  let hosts := (s.job.rblocks.filter fun e => 0 < e.2.hosted).map (·.1)
  need (hosts == s.job.stages.map (·.1)) (fmtErr 0x03) ++
  (i.recs.filter fun r => r.type == rtStage).flatMap fun r =>
    let b := r.body
    let n := leAt b 0 2
    let m := leAt b 2 2
    let base := ceilDiv (16 + 16 * n) 32 * 32
    need (zeroAt b [(4, 12)] && b.length == base + 32 * m && m ≤ 4096 && (List.range n).all fun k =>
      let o := 16 + 16 * k
      leAt b (o + 1) 1 ≤ 1 && leAt b (o + 2) 2 < s.job.homes.length && zeroAt b [(o + 7, 1), (o + 14, 2)] &&
      leAt b (o + 12) 2 + leAt b (o + 10) 2 ≤ m) (badField rtStage r.inst)

/-! ## QUEUE_TABLE (R209-R217, R223, R232, R236, R239, R386) -/

/-- Endpoints that a queue's class allows (R210, R232). -/
def QEntry.classOk (e : QEntry) : Bool :=
  let stage : Option Endpoint → Bool | some (.stage ..) => true | _ => false
  let drov : Option Endpoint → Bool | some (.drover _) => true | _ => false
  match e.cls with
  | 0 => (stage e.consumer || drov e.consumer) && e.producers.all fun p => stage p || drov p
  | 1 => stage e.consumer && e.producers == [some .ingress] && e.mode == 1
  | 2 => e.consumer == some .egress && e.producers.all stage
  | _ => false

/-- The endpoints of a queue. -/
def QEntry.ends (e : QEntry) : List Endpoint := (e.consumer :: e.producers).filterMap id

/-- The instructions of a queue that send into it, or receive from it. -/
def State.cargoOf (s : State) (q : Nat) (sends : Bool) : List InPlace :=
  s.allInstrs.filter fun p => (if sends then p.i.isSend else p.i.isRecv) && p.i.queueOf == q

/-- The cells that the transfers of a queue in one step request, each summed over Repeats (R237). -/
def State.stepCells (s : State) (e : QEntry) : Nat :=
  ((s.cargoOf e.qid true).map fun p => cellsFor e (s.payloadOf p.i.cargo) * (if p.k < p.g.body then p.g.repeats else 1)).sum

/-- The sizes a stage sends or receives on a queue in one step, in order. -/
def State.sizesOf (s : State) (q b st : Nat) (sends : Bool) : List Nat :=
  match s.stage? b st with
  | none => []
  | some g => (List.range g.total).filterMap fun p => match g.instr? p with
    | some i => if (if sends then i.isSend else i.isRecv) && i.queueOf == q then some (s.payloadOf i.cargo) else none
    | none => none

/-- Whether two endless repetitions agree: what is sent in every step, and what is taken. -/
def sameForever (x y : List Nat) : Bool :=
  x.isEmpty || y.isEmpty || (List.range (Nat.lcm x.length y.length)).all fun k => x.getD (k % x.length) 0 == y.getD (k % y.length) 0

/-- Packets of stage producers have the sizes the consumer takes, step after step (R223): in order from one producer, all alike from
several. -/
def State.packetsFit (s : State) (e : QEntry) : Bool :=
  e.mode == 0 ||
  match e.producers, e.consumer with
  | [some (.stage pb ps)], some (.stage cb cs) =>
    sameForever (s.sizesOf e.qid pb ps true) (s.sizesOf e.qid cb cs false)
  | ps, some (.stage _ _) =>
    !(ps.any fun p => match p with | some (.stage ..) => true | _ => false) ||
    (s.cargoOf e.qid true).all fun p => (s.cargoOf e.qid false).all fun q => s.payloadOf p.i.cargo == s.payloadOf q.i.cargo
  | _, _ => true

/-- One QUEUE_TABLE entry: its bytes, endpoints, limits and pacing. -/
def State.queueOk (s : State) (b : List Byte) (r k : Nat) : Bool :=
  let o := 16 + 128 * k
  let e := readQEntry b k
  let np := leAt b (o + 7) 1
  let ing := e.producers == [some Endpoint.ingress]
  let sends := s.cargoOf e.qid true
  let recvs := s.cargoOf e.qid false
  let need' := (sends ++ recvs).map fun p => cellsFor e (s.payloadOf p.i.cargo)
  let words (l : List InPlace) := (l.filter fun p => p.i.cargo.isT).map fun p => (s.desc p.i.cargo.tensor).fmtw
  e.qid / 65536 == r && 8 ≤ e.toExp && e.toExp ≤ 24 && (if e.mode = 0 then 1 ≤ e.item && e.item ≤ 15 else e.item == 0) && 1 ≤ np && np ≤ 16 &&
  zeroAt b [(o + 0x21, 31), (o + 0x40 + 4 * np, 4 * (16 - np))] && e.classOk && distinct (arr b (o + 0x40) 4 np) &&
  (e.ends.all fun x => match x with
    | .stage bl st => (s.stage? bl st).isSome
    | _ => true) &&
  (if ing then 1 ≤ e.len && e.len < 2 ^ 24 && e.stream ≤ 15 else e.len == 0) &&
  (if e.cls = 2 then 18 ≤ e.stream && e.stream ≤ 21 else ing || e.stream == 0) &&
  (if e.paced then ing && 1000 ≤ e.period && 1000 ≤ e.slack else e.period == 0 && e.slack == 0) &&
  maxOf need' + 1 ≤ e.reserve && (!ing || cellsFor e e.len + 1 ≤ e.reserve) && e.reserve ≤ e.credit && e.credit ≤ 524288 &&
  ((words sends).all fun w => (words recvs).all (· == w)) && s.packetsFit e

/-- QUEUE_TABLE of region `r`. -/
def State.queueErrs (s : State) (i : Image) (r : Nat) : List LoadErr :=
  let b := i.body rtQueue r
  let n := leAt b 0 4
  let es := (List.range n).map (readQEntry b)
  if b.length != 16 + 128 * n || !zeroAt b [(4, 12)] || !distinct (es.map (·.qid)) || 491520 < (es.map (·.reserve)).sum then [badField rtQueue 0]
  else (List.range n).flatMap fun k => need (s.queueOk b r k) (badField rtQueue k)

/-! ## The wait graph (R237) -/

/-- An escape queue: its reserve holds everything its producers send in one step. -/
def State.isEscape (s : State) (e : QEntry) : Bool := s.stepCells e ≤ e.reserve && e.reserve ≤ e.credit

/-- A stage as one number: block × 16 + index. -/
def node (b i : Nat) : Nat := b * 16 + i

/-- The edges of the wait graph. -/
def State.waitEdges (s : State) : List (Nat × Nat) :=
  (s.job.queues.flatMap fun (_, e) =>
    match e.consumer with
    | some (.stage cb ci) =>
      if s.isEscape e then [] else e.producers.filterMap fun p => match p with
        | some (.stage pb pi) => some (node pb pi, node cb ci)
        | _ => none
    | _ => []) ++
  s.job.stages.flatMap fun (b, l) =>
    let q := (look {} b s.job.rblocks).seq
    if q.length ≤ 1 then []
    else (q.zip (q.drop 1 ++ q.take 1)).flatMap fun (x, y) =>
      (l.filter fun g => g.layer == x).flatMap fun g => (l.filter fun h => h.layer == y).map fun h => (node b g.idx, node b h.idx)

/-- The edges left when those into nodes without a way on are taken away, again and again. -/
def trimEdges : Nat → List (Nat × Nat) → List (Nat × Nat)
  | 0, es => es
  | n + 1, es => trimEdges n (es.filter fun e => es.any fun f => f.1 == e.2)

/-- A node of a cycle: the walk along the first edges left, as many steps as there are edges. -/
def walkOn (es : List (Nat × Nat)) : Nat → Nat → Nat
  | 0, v => v
  | n + 1, v => walkOn es n (((es.find? fun e => e.1 == v).map (·.2)).getD v)

/-- DEADLOCK detail 0x10 where a cycle lacks an escape queue. -/
def State.deadlockErrs (s : State) : List LoadErr :=
  let all := s.waitEdges
  let es := trimEdges all.length all
  match es with
  | [] => []
  | e :: _ =>
    let v := walkOn es es.length e.1
    [⟨faultCode 3 DEADLOCK 0x10, v % 16 * 65536 + v / 16⟩]

/-! ## TENSOR_TABLE (R151, R181-R184, R243-R262, R270, R282, R387, R534) -/

/-- DESC_ALIGN with its detail (R251, R457). -/
def alignErr (detail t : Nat) (dim : Nat := 0) : LoadErr := ⟨faultCode 3 DESC_ALIGN detail, dim * 2 ^ 32 + t⟩

/-- The alignment of a descriptor (R251). -/
def Desc.alignErrs (d : Desc) (t : Nat) : List LoadErr :=
  need (d.base % 64 == 0) (alignErr 0x01 t) ++
  ([1, 2, 3, 4, 5].flatMap fun k => need (d.e k ≤ 1 || d.st k % 64 == 0) (alignErr 0x02 t k)) ++
  need (d.sbase % 64 == 0) (alignErr 0x03 t) ++ need (d.pbase % 64 == 0) (alignErr 0x04 t) ++ need (d.stgoff % 64 == 0) (alignErr 0x05 t)

/-- Ranges of a descriptor's footprint: of a distributed tensor those of the granules this module owns (R252, R260). -/
def State.rangesOf (s : State) (d : Desc) : List (Nat × Nat) :=
  if d.owner = none20 then d.ranges
  else
    let n := s.scales d
    [(d.base, s.ownedBytes d)] ++ (if d.bs = 0 then [] else [(d.sbase, n)]) ++ (if d.planned then [(d.pbase, 2 * n)] else [])

/-- Whether ranges lie within an allocation. -/
def withinAlloc (d : Desc) (l : List (Nat × Nat)) : Bool := l.all fun x => d.abase ≤ x.1 && x.1 + x.2 ≤ d.abase + d.alen

/-- The policy entry that governs a tensor (R151). -/
def State.governs (s : State) (d : Desc) : Option PrecEntry := if d.role ≤ 3 then s.policy d.layer d.role else none

/-- The reachable layouts of a governed tensor stay in its allocation, and a staging copy clear of the live one (R534). -/
def State.layoutsOk (s : State) (e : PrecEntry) (d : Desc) : Bool :=
  let sizes := [1, 2, 3, 4].filter (s.sizeAllowed e)
  let words := e.reach.flatMap fun c => if fwBsz (e.fmtAt c) = 0 then [e.fmtAt c] else sizes.map (e.word c)
  words.all fun w =>
    let x := s.relaid d w
    let live := ({ x with stgoff := 0 } : Desc).ranges
    withinAlloc d (s.rangesOf x) && (d.stgoff == 0 || live.all fun a => live.all fun b => !meetRange a (b.1 + d.stgoff, b.2))

/-- A distributed tensor (R260). -/
def State.distOk (s : State) (d : Desc) : Bool :=
  d.owner == none20 ||
  (1 ≤ d.tier && !d.broadcasts && [4, 8, 16, 32].contains d.w && has d.owner s.job.owners &&
   (look [] d.owner s.job.owners).length == ceilDiv (ceilDiv (d.count * d.w) 8) (2 ^ 20) &&
   (denseStrides (d.e 0 * d.w / 8) (d.ext.drop 1)).zipIdx.all fun (x, k) => d.e (k + 1) ≤ 1 || d.st (k + 1) == x)

/-- The tensors that stages write, with the layers of the stages. -/
def State.stageWrites (s : State) : List (Nat × Nat) :=
  s.allInstrs.flatMap fun p => p.i.dsts.flatMap fun r => r.slots.map fun t => (t, p.g.layer)

/-- The heads of the pairs that update engines write (R282). -/
def State.engineHeads (s : State) : List Nat :=
  s.masters.flatMap fun (l, m) => m :: (s.stateTensors l m ++ (s.remainderOf l m).toList ++ s.copiesOf l m)

/-- A weight-gradient accumulator (R270). -/
def Desc.isAccumulator (d : Desc) : Bool := d.tier == 0 && d.clr && d.role == 4 && d.fmtw % 128 == 0

/-- A legal descriptor (R244). -/
def State.descOk (s : State) (t : Nat) (d : Desc) : Bool :=
  let gov := s.governs d
  let rem := s.remainders.contains (t - b2n (look {} t s.job.tensors).pairTail)
  d.ext.all (1 ≤ ·) && fwLegal d.fmtw && (d.bs == 0 || d.e 0 % d.bs == 0) && (d.sbase != 0) == (d.bs != 0) &&
  (d.pbase != 0) == (gov.isSome && d.bs != 0) && (d.sparse != 0) == (d.mta != none20) && s.sparseOk d && (d.stgoff == 0 || d.tier == 0) &&
  (d.tier == 0 || d.block == 0) && (!d.b0 || d.bs == 0) && d.role ≤ 4 && d.rsv == 0 && (3 < d.role || d.layer < s.job.homes.length) &&
  (d.master == none20 || (d.isAccumulator && (s.job.folds.any fun f => f.layers.any fun l => l.tensors.contains d.master) && (s.desc d.master).ext == d.ext)) &&
  (3 < d.role || s.stageWrites.all fun x => x.1 != t || x.2 == d.layer) && s.distOk d &&
  (match gov with
    | some e => rem || d.fmtw % 128 == e.word e.initial e.initSize % 128
    | none => true)

/-- The place of a descriptor (R252): its footprint in its allocation, its allocation in its space, and its reachable layouts. -/
def State.placeOk (s : State) (t : Nat) (d : Desc) : Bool :=
  let rem := s.remainders.contains (t - b2n (look {} t s.job.tensors).pairTail)
  withinAlloc d (s.rangesOf d) && 0 < d.alen && d.abase + d.alen ≤ (if d.tier = 0 then Machine.storeBytes else 2 ^ 40) &&
  (match s.governs d with
    | some e => rem || s.layoutsOk e d
    | none => true)

/-- Two entries of a pair agree in every field but the addresses (R282). -/
def Desc.likePair (a b : Desc) : Bool :=
  ({ a with base := b.base, sbase := b.sbase, pbase := b.pbase, abase := b.abase } : Desc) == b

/-- The bytes of 2:4 metadata name ascending positions in every quad (R183, R184). -/
def metaByteOk (b : Byte) : Bool := let p (k : Nat) := b.toNat / 4 ^ k % 4; p 0 < p 1 && p 2 < p 3

/-- The contents of metadata tensor `m` suit the storage that names it (R183, R184). -/
def State.metaOk (s : State) (d : Desc) : Bool :=
  d.sparse != 1 ||
  let e := look ({} : TEntry) d.mta s.job.tensors
  match e.contents with
  | none => false
  | some l => (List.range e.desc.count).all fun n => metaByteOk (l.getD ((e.desc.byteBit (coords e.desc.ext n)).1 - e.desc.base) 0)

/-- The framing of a TENSOR_TABLE entry: reserved bytes, pair flags, contents (R387). -/
def State.entryOk (s : State) (b : List Byte) (k n : Nat) : Bool :=
  let o := 16 + 160 * k
  let fl := leAt b (o + 4) 2
  let (t, e) := readTEntry b k
  let co := leAt b (o + 8) 8
  let cl := leAt b (o + 16) 8
  let d := e.desc
  t ≤ 0xFFFFE && fl < 8 && zeroAt b [(o + 6, 2), (o + 0x18, 8)] && !(e.pairHead && e.pairTail) &&
  (!e.pairHead || (t % 2 == 0 && has (t + 1) s.job.tensors && (look {} (t + 1) s.job.tensors).pairTail &&
    d.likePair (s.desc (t + 1)))) &&
  (!e.pairTail || (t % 2 == 1 && (look {} (t - 1) s.job.tensors).pairHead && !bitAt fl 2)) &&
  (if bitAt fl 2 then co % 64 == 0 && 16 + 160 * n ≤ co && co + cl ≤ b.length &&
      cl == s.imageData d + (if d.bs = 0 then 0 else if d.owner = none20 then d.nScale else s.ownedCount d / d.bs)
    else co == 0 && cl == 0)

/-- A destination of an instruction, an update engine or Drover (R248, R254). -/
def Desc.destErrs (d : Desc) (t : Nat) : List LoadErr :=
  if d.broadcasts then [overlapErr 0x02 t] else need d.oneToOne (overlapErr 0x01 t)

/-- A master: an unscaled FP32 pair of its layer with a profile, its states and remainder, and exactly one accumulator; the remainder is in
the class-8 word of the layer's optimiser state (R177, R270, R274, R275, R282). -/
def State.masterOk (s : State) (l m : Nat) : Bool :=
  let e := look ({} : TEntry) m s.job.tensors
  let accs := s.job.tensors.filter fun x => x.2.desc.master == m
  has m s.job.tensors && e.pairHead && e.desc.fmtw % 128 == 0 && (3 < e.desc.role || e.desc.layer == l) && accs.length == 1 &&
  (match s.profile l with
    | some p => (s.stateTensors l m).length == stateCount p.opt
    | none => false) &&
  (s.privileged l || match s.remainderOf l m with
    | some r => fwFmt (s.desc r).fmtw == INT8 && (s.desc r).bs != 0 &&
        ((s.policy l 3).all fun e => (s.desc r).fmtw % 128 == e.word 1 e.initSize % 128)
    | none => false)

/-- TENSOR_TABLE. -/
def State.tensorErrs (s : State) (i : Image) : List LoadErr :=
  let b := i.body rtTensor
  let n := leAt b 0 4
  let bad (k : Nat) := badField rtTensor k
  let idx := (List.range n).map fun k => leAt b (16 + 160 * k) 4
  let written := (s.stageWrites.map (·.1) ++ s.engineHeads.flatMap fun h => [h, h + 1]).foldl (fun m t => insertN t m) []
  let metas := s.job.tensors.filterMap fun e => if e.2.desc.mta = none20 then none else some e.2.desc.mta
  if b.length < 16 + 160 * n || !zeroAt b [(4, 12)] || !rising idx then [bad 0]
  else idx.zipIdx.flatMap fun (t, k) =>
    let d := s.desc t
    need (s.entryOk b k n) (bad k) ++ d.alignErrs t ++ need (s.descOk t d) (bad k) ++ need (s.placeOk t d) (bad k) ++ need (s.metaOk d) (bad k) ++
    (if written.contains t then d.destErrs t ++ need (!metas.contains t) (bad k) else []) ++
    need (s.masters.all fun x => x.2 != t || s.masterOk x.1 t) (bad k)

/-! ## Pages (R261, R348) -/

/-- Pages of a memory tensor's allocation: first and number. -/
def Desc.pageRun (d : Desc) : Nat × Nat := (d.abase / 2 ^ 21, (d.abase + d.alen - 1) / 2 ^ 21 + 1 - d.abase / 2 ^ 21)

/-- Pages that the tensors of some tiers take, counted once. -/
def State.tierPages (s : State) (tiers : List Nat) : Nat :=
  coverage 0 (((s.job.tensors.filter fun e => tiers.contains e.2.desc.tier).map fun e => e.2.desc.pageRun).foldr insertRange [])

def State.pageErrs (s : State) : List LoadErr :=
  let ms := s.job.tensors.zipIdx.filter fun e => e.1.2.desc.tier != 0
  let hbm := 16 * hbmFrames - (if s.job.retain then 0 else 896)
  ((pairsOf ms).flatMap fun (a, b) => need (a.1.2.desc.tier == b.1.2.desc.tier || !meetRange a.1.2.desc.pageRun b.1.2.desc.pageRun) (badField rtTensor b.2)) ++
  need (s.tierPages [2] + s.job.migHigh + 1024 ≤ hbm && s.tierPages [1, 3] + 512 + 2 * s.job.snapFrames ≤ 8 * lpFrames) (badField rtTensor 0)

/-! ## Owners, streams, flock and folds (R275, R276, R295, R302, R309, R388, R389, R391, R392) -/

/-- OWNER_TABLE. -/
def ownerErrs (b : List Byte) : List LoadErr :=
  let n := leAt b 0 4
  let dir := (List.range n).map fun k => (leAt b (16 + 16 * k) 4, leAt b (20 + 16 * k) 4, leAt b (24 + 16 * k) 8)
  if b.length < 16 + 16 * n || !zeroAt b [(4, 12)] || !distinct (dir.map (·.1)) then [badField rtOwner 0]
  else dir.zipIdx.flatMap fun ((t, c, o), k) => need (t < none20 && o + 2 * c ≤ b.length) (badField rtOwner k)

/-- STREAM_TABLE. -/
def streamTabErrs (b : List Byte) : List LoadErr :=
  let n := leAt b 0 4
  if b.length != 16 + 16 * n || 4096 < n || !zeroAt b [(4, 12)] then [badField rtStream 0]
  else (List.range n).flatMap fun k =>
    let o := 16 + 16 * k
    need (leAt b (o + 8) 2 < 2 && (leAt b (o + 10) 2 == 0xFFFF || leAt b (o + 10) 2 < n) && zeroAt b [(o + 12, 4)]) (badField rtStream k)

/-- An update profile in its ranges (R275). -/
def Profile.ok (p : Profile) (schedules layers : Nat) : Bool :=
  p.layer < layers && p.opt ≤ 2 && p.sched < schedules && f32In 1 f32Inf p.lrMult && f32In 0 f32One p.wd && f32In 1 f32Inf p.gscale &&
  f32In 0 f32Inf p.gclip && f32In 0 (f32One - 1) p.mu && f32In 0 (f32One - 1) p.beta1 && f32In 0 (f32One - 1) p.beta2 && f32In 1 f32Inf p.eps &&
  f32In f32m16 0x47800000 p.tmax

/-- A schedule: 1 to 64 breakpoints, the first at step 0, steps ascending (R276). -/
def scheduleOk (l : List (Nat × Nat)) : Bool := 1 ≤ l.length && l.length ≤ 64 && (l.head?.map (·.1)) == some 0 && rising (l.map (·.1))

/-- Reserved bytes of the schedules of FLOCK_POLICY, from an offset. -/
def schedZero (b : List Byte) : Nat → Nat → Bool
  | 0, _ => true
  | n + 1, o =>
    let c := leAt b o 1
    zeroAt b [(o + 1, 15)] && (List.range c).all (fun k => zeroAt b [(o + 28 + 16 * k, 4)]) && schedZero b n (o + 16 + 16 * c)

/-- A tree: ports of the fabric, each once, all in LNK_PORTS (R302, R354). -/
def State.treeOk (s : State) (l : List Nat) : Bool := distinct l && l.all fun p => p < 32 && bitAt s.job.lnkPorts p

/-- The device number of a role (R292, R293). -/
def Flock.roleOk (f : Flock) : Bool :=
  let member := f.device % 256
  (1 ≤ f.role && f.role ≤ 3) && (f.role == 1) == (member != 0) && (f.role == 3) == (f.device == 0 && 1 < f.flocks) &&
  f.device / 256 < f.flocks

/-- FLOCK_POLICY. -/
def State.flockErrs (s : State) (b : List Byte) : List LoadErr :=
  let f := s.job.flock
  let m := leAt b 0x0E 2
  let so := flockSchedOff b
  let e := (readSchedules b (leAt b 0x12 2) so).2
  let np := leAt b 0x14 4
  let bad := badField rtFlock
  if b.length != e + 64 * np || !zeroAt b [(0x20, 32)] || m < 1 || 256 < m || f.schedules.isEmpty || 16 < f.schedules.length ||
      !schedZero b f.schedules.length so then [bad 0]
  else
    need (f.roleOk && 1 ≤ f.headsOut && f.headsOut ≤ 64 && 1 ≤ f.flocks && f.flocks ≤ 256 && 4 ≤ f.bucketMib && f.bucketMib ≤ 64 &&
      f.restartMax ≤ 15 && 1 ≤ f.bucketTo && f.bucketTo ≤ 600 && fwLegal f.gradFmt && (fwFmt f.gradFmt == E4M3 || fwFmt f.gradFmt == E5M2) &&
      fwScaled f.gradFmt && !fwOvf f.gradFmt && s.treeOk f.ctrlTree) (bad 0) ++
    need (if f.gradStream = 0xFFFF then !s.job.govs.any (·.stochastic)
      else f.gradStream < s.job.streams.length && (s.streamE f.gradStream).perDevice) (bad 0) ++
    need (f.gradStream == 0xFFFF || s.masters.all fun x => ((s.desc x.2).count - 1) / 8 < 2 ^ 32) (bad 0) ++
    need (distinct (f.members.map (·.1)) && f.members.all (fun x => x.1 / 256 == f.device / 256) && f.members.any (fun x => x.1 == f.device) &&
      (List.range m).all fun k => zeroAt b [(66 + 32 * k, 14)]) (bad 0) ++
    (f.routes.zipIdx.flatMap fun (x, k) => need (x.2 < 32 && bitAt s.job.lnkPorts x.2 && zeroAt b [(67 + 32 * m + 4 * k, 1)]) (bad k)) ++
    need (distinct (f.routes.map (·.1))) (bad 0) ++ need (f.schedules.all scheduleOk) (bad 0) ++
    (f.profiles.zipIdx.flatMap fun (p, k) =>
      let o := e + 64 * k
      need (p.ok f.schedules.length s.job.homes.length && leAt b (o + 4) 4 < 4 && zeroAt b [(o + 0x2C, 20)]) (bad k)) ++
    need (distinct (f.profiles.map (·.layer))) (bad 0)

/-- The devices that own the granules of each bucket of a master (R304). -/
def State.bucketOwners (s : State) (t : Nat) : List (List Nat) :=
  let d := s.desc t
  (pieces s.job.flock.bucketMib (List.range d.granules)).map fun l =>
    (l.map fun g => (look [] d.owner s.job.owners).getD g 0xFFFF).foldl (fun m x => insertN x m) []

/-- One fold: header ranges, members, its masters' owners members of it (R295), and at most 256 buckets to an owner (R309). -/
def State.foldOk (s : State) (b : List Byte) (k : Nat) (f : Fold) : Bool :=
  let o := 16 + 32 * k
  let a := leAt b (o + 20) 4
  let nm := leAt b (o + 2) 2
  let nl := leAt b (o + 16) 4
  let ts := f.layers.flatMap (·.tensors)
  f.fold ≤ 15 && 1 ≤ f.weight && f.weight ≤ 15 && zeroAt b [(o + 0x18, 8)] && a + 2 * nm + 16 * nl ≤ b.length && 1 ≤ nm && distinct f.members &&
  s.treeOk f.tree && (f.layers.all fun l => l.layer < s.job.homes.length) &&
  (List.range nl).all (fun j =>
    let e := a + 2 * nm + 16 * j
    zeroAt b [(e + 12, 4)] && leAt b (e + 8) 4 + 4 * leAt b (e + 2) 2 ≤ b.length) &&
  (ts.all fun t => has t s.job.tensors && ((s.desc t).owner == none20 ||
    (look [] (s.desc t).owner s.job.owners).all fun d => f.members.contains d)) &&
  f.members.all fun d => ((ts.flatMap s.bucketOwners).filter fun l => l.contains d).length ≤ 256

/-- FOLD_TABLE: each fold once, each layer in one fold. -/
def State.foldErrs (s : State) (b : List Byte) : List LoadErr :=
  let n := leAt b 0 1
  if b.length < 16 + 32 * n || n < 1 || 16 < n || !zeroAt b [(1, 15)] then [badField rtFold 0]
  else
    need (distinct (s.job.folds.map (·.fold)) && distinct (s.job.folds.flatMap fun f => f.layers.map (·.layer))) (badField rtFold 0) ++
    s.job.folds.zipIdx.flatMap fun (f, k) => need (s.foldOk b k f) (badField rtFold k)

/-! ## Everything (R399 order 7) -/

/-- What order 7 finds wrong with a loaded image, record by record; `s` holds its tables as the job (log 43). -/
def validate (s : State) (i : Image) : List LoadErr :=
  let first := deviceErrs (i.body rtDevice) ++ powerErrs (i.body rtPower) ++ energyErrs (i.body rtEnergy) ++ ([0, 1, 2, 3].flatMap (regionErrs i)) ++
    s.stageErrs i ++ (if i.has rtOwner then ownerErrs (i.body rtOwner) else []) ++
      (if i.has rtStream then streamTabErrs (i.body rtStream) else []) ++ observeErrs i
  first ++ s.programErrs ++ s.tensorErrs i ++ ([0, 1, 2, 3].flatMap (s.queueErrs i)) ++ s.precErrs (i.body rtPrecision) ++ s.streamErrs ++
  s.flockErrs (i.body rtFlock) ++ s.foldErrs (i.body rtFold) ++ s.pageErrs ++ s.deadlockErrs

/-! ## Contents accepted (R58, R387) -/

/-- `w` bits at a byte and bit of a byte image. -/
def bitsIn (l : List Byte) (byte bit w : Nat) : Nat := leAt l byte ((bit + w + 7) / 8) >>> bit % 2 ^ w

/-- A byte image with `w` bits replaced. -/
def bitsInto (l : List Byte) (byte bit w v : Nat) : List Byte :=
  let n := (bit + w + 7) / 8
  let old := leAt l byte n
  patch l byte (le n (old - (old >>> bit % 2 ^ w) * 2 ^ bit + v % 2 ^ w * 2 ^ bit))

/-- One scale block of a byte image put through acceptance: the places of its elements and of its scale byte; the elements rounded to
zero are added up. -/
def acceptedBlk (d : Desc) (places : List (Nat × Nat)) (scale : Nat) (x : List Byte × Nat) : List Byte × Nat :=
  let els := places.map fun p => bitsIn x.1 p.1 p.2 d.w
  let (sc, new, rz) := Machine.acceptBlock (fwFmt d.fmtw) (x.1.getD scale 0).toNat els
  (patch ((places.zip new).foldl (fun l (p, v) => bitsInto l p.1 p.2 d.w v) x.1) scale (le 1 sc), x.2 + rz)

/-- The contents of a block-scaled tensor as accepted, and the elements rounded to zero. -/
def State.acceptContents (s : State) (d : Desc) (l : List Byte) : List Byte × Nat :=
  if d.bs = 0 then (l, 0)
  else
    let data := s.imageData d
    let per := d.e 0 / d.bs
    if d.owner = none20 then
      (List.range d.nScale).foldl (fun l k =>
        let rest := coords d.scExt (k / per)
        let places := (List.range d.bs).map fun j =>
          let (a, b) := d.byteBit ((k % per * d.bs + j) :: rest)
          (a - d.base, b)
        acceptedBlk d places (data + k) l) (l, 0)
    else
      (List.range (s.ownedCount d / d.bs)).foldl (fun l k =>
        let places := (List.range d.bs).map fun j => ((k * d.bs + j) * d.w / 8, (k * d.bs + j) * d.w % 8)
        acceptedBlk d places (data + k) l) (l, 0)

/-- The job with its contents accepted. -/
def State.acceptJob (s : State) : State :=
  { s with job := { s.job with tensors := s.job.tensors.map fun (e : Nat × TEntry) =>
      (e.1, { e.2 with contents := e.2.contents.map fun l => (s.acceptContents e.2.desc l).1 }) },
           glb := { s.glb with acceptRz :=
             (s.job.tensors.map fun e => ((e.2.contents.map fun l => (s.acceptContents e.2.desc l).2).getD 0)).sum } }

end Sys2Proof.Machine
end

