-- ==== Sys2Proof/Machine/Start.lean ====
section
/-! DEFINITION. Start-up, order by order (R110-R115, R374-R378, R396-R406): the boot ROM, the journal areas, self-test and repair, spare
substitution, placement and loading, link training. -/

namespace Sys2Proof.Machine

/-! ## Orders that may fail -/

/-- A start-up failure: fault code, source, context. -/
structure StartErr where
  code : Nat
  src : Nat := srcMgmt
  ctx : Nat := 0
  deriving DecidableEq, Repr

/-- What an order leads to: the state it leaves, and its failure if it fails. -/
structure Ordered where
  s : State
  err : Option StartErr := none
  deriving DecidableEq, Repr

/-- The next order, unless the sequence has stopped (R404). -/
def Ordered.andThen (x : Ordered) (n : Nat) (f : State → Ordered) : Ordered :=
  match x.err with
  | some _ => x
  | none => f { x.s with glb := { x.s.glb with order := n } }

def LoadErr.start (e : LoadErr) : StartErr := { code := e.code, ctx := e.ctx }

/-! ## Orders 2 and 3 -/

/-- Order 2: a start begins afresh, and THERMTRIP_N is released (R378, R399, R406, R524). -/
def State.startBegins (s : State) : State :=
  let g := s.glb
  let s := { s with board := { s.board with resetN := true, flashHost := false, thermTrip := false },
                    glb := { g with order := 2, failed := false, recovery := false, trimsLost := false, mapLost := false, planLost := false,
                                    startFault := 0, signer := 0, jobId := 0, imageDigest := 0, job := false, halted := false,
                                    bootRom := false, reloadFault := none, linkWaitFrom := none, jobStarting := false },
                    err := { s.err with stopIssue := false, window := [], quiet := [], windowAt := none } }
  s.setMode .starting

/-- A failure found by the boot ROM shown in GLB_START and taken to the latch window of ERR_FIRST (R397, R463; log 59). -/
def State.bootLatch (s : State) (e : LoadErr) : State :=
  let t := s.stamp
  let s := logReport s.stamped e.code srcMgmt e.ctx t
  let s := { s with err := { s.err with counts := adjust 0 ((codeClass e.code - 1) * 4 + codeLevel e.code) (· + 1) s.err.counts },
                    glb := { s.glb with startFault := e.code } }
  toWindow s e.code srcMgmt e.ctx t none

/-- The newest segment of the lifetime area is closed, and writing resumes in the next one (R471). -/
def State.closeSegment (s : State) : State := { s with flash := { s.flash with lifeUsed := 0 } }

/-- The trip held in heartwood SRAM goes to the lifetime records (R459, R469). -/
def State.tripRecord (s : State) : State :=
  match s.glb.trip with
  | some x => { addLife s 0x000A (logBytes x) with glb := { (addLife s 0x000A (logBytes x)).glb with trip := none } }
  | none => s

/-- The main image has failed a check of the boot ROM: the recovery image runs, or the boot ROM stays in control (R397). Either way the trip of
the start before and this start go to the lifetime records (R459, R469; log 59). -/
def State.bootFails (s : State) (e : LoadErr) : State :=
  let s := s.closeSegment.tripRecord.bootLatch e
  match bootCheck true s.flash.recovery with
  | .ok v =>
    let s := ({ s with glb := { s.glb with recovery := true, fwVersion := v } } : State).setMode .faulted
    (s.setPort 32 { st := 1 }).startRecord
  | .error _ => (({ s with glb := { s.glb with bootRom := true } } : State).setMode .faulted).startRecord

/-! ## Order 4: the journal store (R375-R377) -/

/-- The trims of the islands as a calibration pass finds them: free values (R377, log 1). -/
def State.calibrate (s : State) : State :=
  let trims := (List.range 256).map fun b => { blk := b, word := Config.free s.fresh (2 * b) % 2 ^ 64, ring := Config.free s.fresh (2 * b + 1) % 2 ^ 64 }
  { s with fresh := s.fresh + 1, flash := s.flash.writeTrims trims, glb := { s.glb with trimsLost := true } }

/-- Every block at its offset and cap of the margin plan, and at the frequency that allows. -/
def State.applyPlan (s : State) (l : List PlanBlk) : State :=
  (List.range 256).foldl (fun (s : State) b =>
    let p := (l.find? fun x => x.blk == b).getD { blk := b }
    s.setBlk b { s.blk b with offset := p.offset, cap := p.cap, mhz := s.blockMhz p.cap }) s

/-- The islands are powered and clocked; crossings are resynchronised, and the event lines of sources that were off start clear (R44,
R399, R512). -/
def State.islandsUp (s : State) : State :=
  let s := (s.keepLines [6]).crossUp (islandSources [1, 2, 3, 4, 5])
  let s := [0, 1, 2, 3].foldl (fun (s : State) r => s.modRgn r fun g => { g with powered := true }) s
  let s := s.applyPlan (s.flash.planNow.getD [])
  s.markCycles

/-- Order 4. -/
def State.powerIslands (s : State) : State :=
  let s := s.closeSegment.tripRecord
  let s := if s.age.loaded then s else { s.loadSummary with age := { s.loadSummary.age with loaded := true } }
  let s := if s.flash.trimsNow.isNone then s.calibrate else s
  let s := { s with glb := { s.glb with planLost := s.flash.planNow.isNone } }
  s.islandsUp

/-! ## Orders 5 to 7 -/

/-- Order 5: the devices are trained, and the control port starts training (R400). -/
def State.trainMemory (s : State) (fails : List Nat) : Ordered :=
  let s := s.setPort 32 { st := 1 }
  match (fails.foldl (fun l c => insertN c l) []).find? (· < 24) with
  | some c => { s := s, err := some { code := faultCode 3 REPAIR 0x20, src := srcMem c, ctx := c } }
  | none => { s := s }

/-- The tables of a verified image stand as the job, not yet loaded. -/
def State.placeTables (s : State) (i : Image) : State :=
  let j := i.read
  let f := j.flock
  let s := { s with job := j, drv := { s.drv with role := f.role, device := f.device, flocks := f.flocks, members := f.members.length,
                                                  restartMax := f.restartMax } }
  { s with job := { s.job with layout := s.layoutDigest i } }

/-- Order 6: the image is read and verified (R396); its signer, its job and its digest are kept in the heartwood (R398, R406). -/
def State.verifyMain (s : State) (k : State → Image → Ordered) : Ordered :=
  match verifyImage false s.flash.image with
  | .error e => { s := s, err := some e.start }
  | .ok i => k { s with glb := { s.glb with signer := i.signer, jobId := i.job, imageDigest := i.digest } } i

/-- Every block's clock set to the frequency that policy and cap give it (R467). -/
def State.setClocks (s : State) : State :=
  (List.range 256).foldl (fun (s : State) b => s.modBlk b fun x => { x with mhz := s.blockMhz x.cap }) s

/-- The state after a load, or the state before it with the first of the errors found. -/
def orFirst (l : List LoadErr) (s t : State) : Ordered :=
  match l with
  | e :: _ => { s := s, err := some e.start }
  | [] => { s := t }

/-- Order 7: the records are validated under every load rule; the first error found stops the start (R382, R396, log 43). -/
def State.validateMain (s : State) (i : Image) : Ordered :=
  let t := s.placeTables i
  orFirst (validate t i) s t.setClocks

/-! ## Order 8: self-test and repair (R110-R115, R400) -/

/-- Physical rows and columns of an array. -/
def physRows : Nat := 258
def physCols : Nat := 264

/-- Numbers of a list below a bound, ascending, each once. -/
def inRange (n : Nat) (l : List Nat) : List Nat := (l.filter (· < n)).foldl (fun l k => insertN k l) []

/-- Staves in the order of row, then column, each once. -/
def stavesOf (l : List (Nat × Nat)) : List (Nat × Nat) :=
  (inRange (physRows * physCols) ((l.filter fun x => x.1 < physRows && x.2 < physCols).map fun x => x.1 * physCols + x.2)).map fun k =>
    (k / physCols, k % physCols)

/-- Faults of a block recorded before, and those its self-test finds, merged (R110). -/
def BadBlk.merge (old : BadBlk) (t : BlockTest) : BadBlk :=
  { blk := old.blk, rows := inRange physRows (old.rows ++ t.rowBad), cols := inRange physCols (old.cols ++ t.colBad),
    staves := stavesOf (old.staves ++ t.staveBad) }

/-- The faults of a block that a record of it did not hold, 8 bytes each: block, kind (0 row, 1 column, 2 stave), row, column. -/
def BadBlk.added (new old : BadBlk) : List (List Byte) :=
  let one (k r c : Nat) : List Byte := le 2 new.blk ++ le 2 k ++ le 2 r ++ le 2 c
  (new.rows.filter fun r => !old.rows.contains r).map (fun r => one 0 r 0) ++
  (new.cols.filter fun c => !old.cols.contains c).map (fun c => one 1 0 c) ++
  (new.staves.filter fun x => !old.staves.contains x).map fun x => one 2 x.1 x.2

/-- A repair plan: bad rows, bad columns, presented width (R111). -/
structure Plan where
  rows : List Nat
  cols : List Nat
  width : Nat
  deriving DecidableEq, Repr

/-- R111: the plan, or the REPAIR detail with which the block is excluded. -/
def repairPlan (b : BadBlk) : Plan × Option Nat :=
  let (rows, cols) := b.staves.foldl (fun (x : List Nat × List Nat) st =>
    if x.1.contains st.1 || x.2.contains st.2 then x
    else if 2 ≤ (b.staves.filter fun y => y.1 == st.1).length then (insertN st.1 x.1, x.2)
    else (x.1, insertN st.2 x.2)) (b.rows, b.cols)
  let u := Nat.min 256 (physCols - cols.length)
  ({ rows := rows, cols := cols, width := u },
   if 2 < rows.length then some 0x01 else if u < 192 then some 0x02 else none)

/-- Taps of the 256 logical rows: each at its physical index, a row that failed the pattern one cycle later or earlier (R114). -/
def tapsOf (rows : List Nat) (fails : List (Nat × Nat)) : List Nat :=
  (((List.range physRows).filter fun p => !rows.contains p).take 256).zipIdx.map fun (p, k) =>
    match fails.find? fun x => x.1 == k with
    | some (_, 0) => p + 1
    | some (_, 1) => p - 1
    | _ => p

/-- A block under its plan, and the detail with which it is excluded. A block without a plan shows no bad columns (log 154). -/
def Block.repaired (x : Block) (bad : BadBlk) (t : BlockTest) : Block × Option Nat :=
  let (p, no) := repairPlan bad
  let why := match no with
    | some d => some d
    | none => if t.marchFail then some 0x04 else if t.taps.any fun y => y.1 < 256 && 2 ≤ y.2 then some 0x03 else none
  ({ x with excluded := why.isSome, rowBad := if why.isSome then [] else p.rows, colBad := if no.isSome then [] else p.cols, width := if why.isSome then 0 else p.width,
            taps := if why.isSome then [] else tapsOf p.rows t.taps, subst := false, hosted := 0 }, why)

/-- Every block under the repair map, with what its self-test finds; each exclusion raises REPAIR at level 1, and the block's island is reset
(R43, R111, R114, R115). A block excluded earlier in the power-on period stays in reset, untested (R403, log 154). -/
def State.repairBlocks (s : State) (map : List BadBlk) (tests : List BlockTest) : State :=
  (List.range 256).foldl (fun (s : State) b =>
    if (s.blk b).excluded then s else
    let bad := (map.find? fun x => x.blk == b).getD { blk := b }
    let t := (tests.find? fun x => x.blk == b).getD { blk := b }
    let (x, why) := (s.blk b).repaired bad t
    let s := s.setBlk b x
    match why with
    | some d => raise (s.crossDown true [srcBlock b]) (faultCode 1 REPAIR d) (srcBlock b) b
    | none => s) s

/-- The tap training of a reload, on every block not excluded, under the repair map of the journal store and without a self-test: what each
row's training finds no command says, and a free value does (R114, R437; log 138). A row that still fails excludes its block. -/
def State.retrain (s : State) : State :=
  let map := s.flash.repairNow.getD []
  let taps (b : Nat) : List (Nat × Nat) := (List.range 256).filterMap fun k => match Config.free s.fresh (b * 256 + k) % 4 with
    | 0 => none
    | n + 1 => some (k, n)
  let s' := (List.range 256).foldl (fun (s : State) b =>
    if (s.blk b).excluded then s
    else
      let (x, why) := (s.blk b).repaired ((map.find? fun x => x.blk == b).getD { blk := b }) { blk := b, taps := taps b }
      let s := s.setBlk b x
      match why with
      | some d => raise (s.crossDown true [srcBlock b]) (faultCode 1 REPAIR d) (srcBlock b) b
      | none => s) s
  { s' with fresh := s'.fresh + 1 }

/-- Order 8. -/
def State.selfTest (s : State) (env : StartEnv) : Ordered :=
  let held := s.flash.repairNow
  let old := held.getD []
  let both := (List.range 256).map fun b =>
    let o := (old.find? fun x => x.blk == b).getD { blk := b }
    (o, if (s.blk b).excluded then o else o.merge ((env.blocks.find? fun x => x.blk == b).getD { blk := b }))
  let map := (both.map (·.2)).filter fun x => !(x.rows.isEmpty && x.cols.isEmpty && x.staves.isEmpty)
  let s := s.repairBlocks map env.blocks
  let s := { s with flash := s.flash.writeRepair map, glb := { s.glb with mapLost := held.isNone } }
  let added := both.flatMap fun x => x.2.added x.1
  let s := (pieces 504 added).foldl (fun (s : State) l => addLife s 0x0006 l.flatten) s
  let s := [0, 1, 2, 3].foldl (fun (s : State) r => s.modRgn r fun g => { g with testFail := env.regionsFail.contains r }) s
  match [0, 1, 2, 3].find? env.regionsFail.contains with
  | some r => { s := s, err := some { code := faultCode 3 REPAIR 0x21, src := srcRegion r, ctx := r } }
  | none => { s := s }

/-! ## Order 9: spares (R211, R245, R403) -/

/-- The stages, weight halves, descriptors and queue endpoints of a block move to its spare. -/
def State.moveBlock (s : State) (b spare : Nat) : State :=
  let ep (e : Endpoint) : Endpoint := match e with
    | .stage x i => .stage (if x = b then spare else x) i
    | e => e
  let j := s.job
  let mine : RBlock := look {} b j.rblocks
  let its : RBlock := look {} spare j.rblocks
  let rb := { mine with spare := its.spare }
  let s := { s with job := { j with
    stages := put spare (look [] b j.stages) (drop b j.stages),
    rblocks := put spare rb j.rblocks,
    tensors := j.tensors.map (fun (e : Nat × TEntry) =>
      if e.2.desc.tier = 0 && e.2.desc.block = b then (e.1, { e.2 with desc := { e.2.desc with block := spare } }) else e),
    queues := j.queues.map (fun (e : Nat × QEntry) =>
      (e.1, { e.2 with consumer := e.2.consumer.map ep, producers := e.2.producers.map (Option.map ep) })) } }
  s.modBlk spare fun x => { x with subst := true, hosted := b }

/-- The excluded blocks that host stages, ascending, each to its spare. -/
def State.substitute (s : State) : List Nat → Ordered
  | [] => { s := s }
  | b :: rest =>
    let mine : RBlock := look {} b s.job.rblocks
    let spare := mine.spare
    let fail (d : Nat) : Ordered := { s := s, err := some { code := faultCode 3 REPAIR d, src := srcBlock b, ctx := b } }
    if spare = 0xFFFF then fail 0x10
    else if (s.blk spare).excluded || (s.blk spare).subst then fail 0x11
    else (s.moveBlock b spare).substitute rest

/-- Order 9: every stage stands where it runs, and packed tiles meet the width presented there. -/
def State.spares (s : State) : Ordered :=
  let x := s.substitute ((inRange 256 s.hosting).filter fun b => (s.blk b).excluded)
  x.andThen 9 fun t => orFirst t.packErrs t t

/-! ## Orders 11 and 12: memory (R261, R334, R337, R401) -/

/-- HBM3E written with zeros. -/
def State.zeroHbm (s : State) : State := { s with mem := s.mem.zeroed fun b => isHbm (baCtl b) }

/-- Order 11: HBM3E, and LPDDR5X at the first start since power good; the record chain starts then (R337, R446, log 60). -/
def State.zeroMemory (s : State) : State :=
  if s.eng.started then s.zeroHbm else ({ s with mem := s.mem.zeroed fun _ => true } : State).genesis

/-- One page placed in its tier (R261, R334). -/
def State.placePage (s : State) (tier p : Nat) : State :=
  let hbm := tier == 2 || (tier == 1 && s.job.migHigh < s.freeHbm)
  match s.firstFrame (homeOrder hbm p) with
  | some (c, f) => s.setPage p { mapped := true, lp := !hbm, pin := tier != 1, ctl := c, frame := f }
  | none => s

/-- The pages of the memory tensors of a tier, ascending. -/
def State.pagesOf (s : State) (tier : Nat) : List Nat :=
  (s.job.tensors.filter fun e => e.2.desc.tier == tier).foldl (fun l e =>
    let (a, n) := e.2.desc.pageRun
    (List.range n).foldl (fun l k => insertN (a + k) l) l) []

/-- The frames of the load buffer (R401). -/
def loadBuffer : List (Nat × Nat) := (List.range 16).flatMap fun c => (List.range 15).map fun f => (c, f)

/-- Pages placed: pinned ones, then migratable ones while HBM3E keeps MIG_HIGH frames free (R261). -/
def State.placePages (s : State) : State :=
  let s := { s with mem := { s.mem with pages := [], lastUse := [], moves := [], requests := [], evicting := false, reserved := loadBuffer } }
  let s := [2, 3, 1].foldl (fun (s : State) t => (s.pagesOf t).foldl (fun (s : State) p => s.placePage t p) s) s
  { s with mem := { s.mem with reserved := [] } }

/-- Order 12: pages, contents and plans, program stores, descriptor caches and queue descriptors. -/
def State.fill (s : State) : State :=
  let s := ({ s with job := { s.job with loaded := true } } : State).acceptJob.placePages
  let s := { s with gov := freshGov s.job.govs, trc := { s.trc with body := s.job.trace.getD {} },
                    tensors := s.job.tensors.map fun (e : Nat × TEntry) => (e.1, s.freshTensor e.2) }
  let s := [0, 1, 2, 3].foldl (fun (s : State) r => s.modRgn r Region.begun) s
  let s := s.hosting.foldl (fun (s : State) b => s.modBlk b Block.begun) s
  let s := s.loadContents.initPlans.emptyQueues 0
  { s with glb := { s.glb with job := true } }

/-! ## Order 13 (R354, R402) -/

/-- Ports that ROUTES, CTRL_TREE or a fold tree names. -/
def Job.portsUsed (j : Job) : List Nat := j.flock.routes.map (·.2) ++ j.flock.ctrlTree ++ j.folds.flatMap (·.tree)

/-- The ports of LNK_PORTS train. -/
def State.trainPorts (s : State) : State :=
  let s := { s with lnkPorts := s.job.lnkPorts, glb := { s.glb with linkWaitFrom := some s.board.time } }
  (List.range 32).foldl (fun (s : State) p =>
    s.modPort p fun x => { x with inUse := s.job.portsUsed.contains p, st := if bitAt s.lnkPorts p then 1 else 0, signal := false,
                                  locked := false, heard := false, sentHeard := false }) s

/-! ## The whole sequence -/

/-- Orders 6 to 13. -/
def State.loadOrders (s : State) (env : StartEnv) : Ordered :=
  s.verifyMain fun s i =>
    ((((((({ s := s } : Ordered).andThen 7 fun s => s.validateMain i).andThen 8 fun s => s.selfTest env).andThen 9 State.spares).andThen 10 fun s =>
      { s := s.ageEnds env.ageing }).andThen 11 fun s => { s := s.zeroMemory }).andThen 12 fun s => { s := s.fill }).andThen 13 fun s => { s := s.trainPorts }

/-- The start once the boot ROM has found the main image good: its firmware runs (R396, R399). -/
def State.booted (s : State) (v : Nat) : State :=
  let s := s.startBegins
  { s with glb := { s.glb with order := 3, fwVersion := v } }

/-- Orders 4 to 13, with the main image's firmware started. -/
def State.ordered (s : State) (env : StartEnv) : Ordered :=
  ((({ s := s } : Ordered).andThen 4 fun s => { s := s.powerIslands }).andThen 5 fun s => s.trainMemory env.memFail).andThen 6 fun s =>
    s.loadOrders env

/-- The orders run: an order that finds an error ends the start with it (R404). -/
def State.startOrders (s : State) (env : StartEnv) : State :=
  let x := s.ordered env
  match x.err with
  | some e => ({ x.s with job := {} } : State).startFail e.code e.src e.ctx
  | none => x.s

/-- A whole start: READY follows FLOCK_FORMATION. -/
def State.start (s : State) (env : StartEnv) : State :=
  match bootCheck false s.flash.image with
  | .error e =>
    let s := s.startBegins
    ({ s with glb := { s.glb with order := 3 } } : State).bootFails e
  | .ok v => (s.booted v).startOrders env

/-- RESET_N_RISE: with power good, an OFF module starts (R399, R416). -/
def execResetNRise (env : StartEnv) (s : State) : Host.Outcome State Fault Refusal :=
  if !s.board.powerGood || s.glb.mstate != .off then .next s
  else .next (s.start env)

/-- LINK_WAIT_EXPIRY: the bound of order 13 has passed. A port in use that is not up makes the start fail, with the detail of its last
attempt (R402). -/
def execLinkWaitExpiry (s : State) : Host.Outcome State Fault Refusal :=
  if s.glb.mstate != .starting || s.glb.order != 13 then .next s
  else
    match (List.range 32).find? fun p => (s.port p).inUse && (s.port p).st != 2 with
    | none => .next s
    | some p =>
      let x := s.port p
      let d := if x.st = 1 then (if !x.signal then 0x01 else if !x.locked then 0x02 else 0x03) else x.downDetail
      let s := s.modPort p fun x => { x with st := 5, downValid := true, downDetail := d }
      .next (s.startFail (faultCode 3 LINK_DOWN d) (srcPort p) p)

end Sys2Proof.Machine
end

