-- ==== Sys2Proof/Machine/Power.lean ====
section
/-! DEFINITION. Power states (R426-R439): POWER_STATE with its refusers, what each state keeps, and the exit by WAKE with the reload of
P3. -/

namespace Sys2Proof.Machine

/-! ## Refusers (R429) -/

/-- Drover messages on their way through the module's ports, waiting in it, or held in a reorder table (0x02). -/
def State.droverTraffic (s : State) : Bool :=
  !s.drv.reorder.isEmpty || !s.drv.stalled.isEmpty || !s.drv.waitHeads.isEmpty || (s.drv.outHeads.any fun h => !h.sent) ||
  (List.range 32).any fun p =>
    let x := s.port p
    (x.txq.any fun f => f.kind == 1) || (x.replay.any fun f => f.kind == 1) || !x.asm.isEmpty || !x.delivered.isEmpty

/-- Whether a restore runs: a slot's sections on their way, or the refresh that a JOB_START from a slot waits for (R289). -/
def State.restoreRuns (s : State) : Bool :=
  s.upd.restoring.isSome || (s.glb.jobStarting && s.upd.refresh && s.hci.handles.any fun h => h.opcode == 0x10 && h.arg != 0xFF)

/-- A snapshot taken, written, shipped or received, or a restore (0x03). -/
def State.snapshotActive (s : State) : Bool :=
  s.upd.snapBusy || s.upd.snapArmed || s.restoreRuns || !s.upd.chunks.isEmpty || s.shipping ||
  s.hci.handles.any fun h => h.opcode == 0x20 || h.opcode == 0x21

/-- Less than 2 s since the last exit or the last change of module state (0x05). -/
def State.ramping (s : State) : Bool :=
  s.board.time < s.glb.stateSince + 2000000000 || (s.pwr.wakeTime != 0 && s.board.time < s.pwr.wakeTime + 2000000000)

/-- Blocks of completions and of bulk data that wait on the control port. -/
def Port.owesHost (x : Port) : Bool := x.txq.any fun f => f.kind == 1 && (f.key != 1 || !f.som || leAt f.payload 0 1 == 0x11)

/-- Whether another command is outstanding. -/
def State.othersOut (s : State) (h : Hnd) : Bool := s.hci.handles.any fun x => x.handle != h.handle

/-- The first refuser that applies, in ascending order of code; `owes`: the control port still had something to send. -/
def State.refuser (s : State) (h : Hnd) (owes : Bool) : Option Nat :=
  if s.glb.mstate = .running then some 0x01
  else if s.droverTraffic then some 0x02
  else if s.snapshotActive then some 0x03
  else if [0, 1, 2, 3].any fun r => (s.rgn r).trace.armed && !(s.rgn r).trace.frozen then some 0x04
  else if s.ramping then some 0x05
  else if owes || s.othersOut h then some 0x06
  else if s.age.busy then some 0x07
  else none

/-- Whether R417 permits a target in the module's state. -/
def ModState.permits (m : ModState) (target : Nat) : Bool :=
  match m with
  | .paused => target == 1 || target == 2
  | .ready | .faulted => 1 ≤ target && target ≤ 3
  | _ => false

/-! ## What is kept (R431, R433) -/

/-- The registers of islands that were off return to their reset values in LIST mode (R433). -/
def State.dropRegs (s : State) : State :=
  let s := { s with blocks := s.blocks.map fun (e : Nat × Block) => (e.1, { e.2 with droop := 0, sticky := 0 }) }
  let s := { s with regions := s.regions.map fun (e : Nat × Region) =>
    (e.1, { e.2 with meshResend := 0, meshTry := 0, sticky := 0, toCnt := 0, toValid := false, toQueue := 0, brkAny := false, brkFirst := 0,
                     deadline := 0, descSel := 0, descCap := 0, lreplay := 0, stepReplay := 0, stepSkip := 0, ceiling := 0, size := 0,
                     narrowed := 0, granted := 0, trcDrop := 0 }) }
  { s with drv := { s.drv with foldSel := 0, peak := [], lostValid := false, lostDetail := 0, lostDevice := 0 },
           mem := { s.mem with crcValid := false, crcCtl := 0, crcResult := 0, crcFrame := 0, crcBlock := 0, temp := [], band := [],
                                   bandSince := [] },
           hci := { s.hci with sel := 0, bad := 0, late := 0, won := 0 } }

/-- What the Drover keeps in heartwood SRAM (R437). -/
def Drv.kept (d : Drv) : Drv :=
  { role := d.role, device := d.device, flocks := d.flocks, members := d.members, form := d.form, offset := d.offset,
    offsetErr := d.offsetErr, epoch := d.epoch, restartMax := d.restartMax, restartsUsed := d.restartsUsed }

/-- What the start-up found out about a block: it stays for the rest of the power-on period (R403). -/
def Block.kept (x : Block) : Block :=
  { excluded := x.excluded, rowBad := x.rowBad, colBad := x.colBad, width := x.width, taps := x.taps }

/-- Only heartwood and LPDDR5X remain; every port is dark and every session closed (R371, R426, R431). -/
def State.dormant (s : State) : State :=
  let s := s.openSessions.foldl State.dropSession s
  let s := (List.range 33).foldl (fun (s : State) p => s.setPort p { inUse := (s.port p).inUse }) s
  let s := { s with blocks := s.blocks.map (fun (e : Nat × Block) => (e.1, e.2.kept)), regions := [], queues := [], tensors := [],
                    gov := {}, trc := {}, stop := {}, counters := [], cdc := { s.cdc with discards := [] }, drv := s.drv.kept, hci := { jobHandle := s.hci.jobHandle },
                    upd := { slots := s.upd.slots, newest := s.upd.newest, anyDone := s.upd.anyDone } }
  let s := { s with mem := { data := s.mem.data, poison := s.mem.poison }, job := { s.job with loaded := false },
                    age := { s.age with last := 0 } }
  (s.crossDown true (islandSources [1, 2, 3, 4, 5])).zeroHbm.keepLines [6]

/-! ## Entry (R430) -/

/-- Ports that are up drain their replay buffers, every block of them acknowledged within the entry's bound, exchange subtype 0x03 and sleep
(R368, R430). -/
def State.sleepPorts (s : State) : State :=
  (List.range 33).foldl (fun (s : State) p =>
    if (s.port p).st = 2 then
      ((s.modPort p fun x => { x with replay := [], resends := 0, retrained := false }).send (.linkCtl p (le 1 0x03))).modPort p fun x => { x with st := 4 }
    else s) s

/-- The listed registers as they stand, in list order. -/
def State.listed (s : State) : List (Nat × Nat) :=
  s.job.saved.map fun a => (a, ((regAt a).map s.regWord).getD 0)

/-- The entry of a state, with nothing to refuse it: ports drain, the base record closes and the command completes; P3 signs every
body and saves chain head and totals; then what the state keeps is kept. -/
def State.enterPower (s : State) (h : Hnd) (target : Nat) : State :=
  let s := closeBase s.bankCycles
  let s := s.finish h stDone
  let s := if target = 3 then (s.signAll s.eng.queue.length).saveHead.writeSummary else s
  let s := if target = 1 || s.job.retain then s else { s with pwr := { s.pwr with saved := s.listed } }
  let s := if target = 2 then s.sleepPorts else s
  let s := if target = 3 then s.dormant else if target = 2 then ((if s.job.retain then s else s.dropRegs).crossDown true (islandSources [1, 2, 3, 4])).keepLines [0, 5, 6] else s
  { s with pwr := { s.pwr with state := target } }

/-- A refusal counts under its code (R430). -/
def State.refusePower (s : State) (h : Hnd) (code : Nat) : State :=
  (s.countRefusal code).finish h stRefused [] code

/-- Whether an entry to P2 still waits for a fabric port to drain its replay buffer (R430). -/
def State.undrained (s : State) : Bool := (List.range 32).any fun p => (s.port p).st == 2 && !(s.port p).replay.isEmpty

/-- POWER_STATE. An entry to P2 whose ports have not drained is in progress until they have; every other one is at its end at once (log 78). -/
def execPowerState (c : Cmd) (s : State) : Host.Outcome State Fault Refusal :=
  let owes := (s.port 32).owesHost
  .next (s.command c 0x30 fun s h =>
    let t := leAt c.args 0 1
    if c.args.length != 8 || c.bulkLen != 0 || t < 1 || 3 < t || leAt c.args 1 7 != 0 then s.finish h stBad
    else if s.glb.mstate != .running && !s.glb.mstate.permits t then s.finish h stWrong
    else match s.refuser h owes with
      | some code => s.refusePower h code
      | none => if t = 2 && s.undrained then { s with pwr := { s.pwr with busy := true, target := t } } else s.enterPower h t)

/-! ## Exit (R436-R438) -/

/-- A reload that fails: the fault goes to the latch window of ERR_FIRST (R463), the alert is set, and later JOB_STARTs end with it (R438). -/
def State.reloadFails (s : State) (e : StartErr) : State :=
  let t := s.stamp
  let s := logReport s.stamped e.code e.src e.ctx t
  let s := { s with err := { s.err with counts := adjust 0 ((codeClass e.code - 1) * 4 + codeLevel e.code) (· + 1) s.err.counts } }
  let s := toWindow s e.code e.src e.ctx t none
  { s.alert 1 with glb := { (s.alert 1).glb with reloadFault := some e.code } }

/-- The image's digest differs from the one kept since start-up: IMAGE_SIG detail 0x06 (R398, R457). -/
def staleDigest (key : Nat) : StartErr := { code := faultCode 3 IMAGE_SIG 0x06, ctx := key }

/-- The reload's orders. The orders of the start-up register stay as they were. -/
def State.reloadOrders (s : State) : Ordered :=
  let key := s.glb.signer
  match verifyImage false s.flash.image with
  | .error e => { s := s, err := some (if e.code = faultCode 3 IMAGE_SIG 0x04 then staleDigest key else e.start) }
  | .ok i =>
    if i.digest != s.glb.imageDigest then { s := s, err := some (staleDigest key) }
    else
      let x := s.validateMain i
      let x := match x.err with
        | some _ => x
        | none => x.s.spares
      match x.err with
      | some _ => x
      | none => { s := x.s.zeroHbm.fill }

/-- P3 ends: the boot ROM checks the firmware of the image that runs, the islands return, the taps are trained, and a module with a job reloads
it (R437). -/
def State.reload (s : State) : State :=
  let s := { s with clearTime := s.board.time }.islandsUp
  let s := (List.range 33).foldl (fun (s : State) p =>
    s.modPort p fun x => { x with st := if p = 32 || bitAt s.lnkPorts p then 1 else 0 }) s
  match bootCheck s.glb.recovery (if s.glb.recovery then s.flash.recovery else s.flash.image) with
  | .error e => s.reloadFails e.start
  | .ok _ =>
    let s := s.retrain
    if !s.glb.job then s
    else
      let x := s.reloadOrders
      match x.err with
      | some e => x.s.reloadFails e
      | none => x.s

/-- Sleeping ports wake (R368). -/
def State.wakePorts (s : State) : State :=
  (List.range 33).foldl (fun (s : State) p =>
    let x := s.port p
    if x.st = 4 then (s.setPort p { x with st := 2, txq := wakeFlit :: x.txq }).catchUp p else s) s

/-- Listed registers written back in list order, each as a write of its saved value (R433). -/
def State.restoreRegs (s : State) : State :=
  let l := s.pwr.saved
  l.foldl (fun (s : State) x =>
    match regAt x.1 with
    | some r => if s.winAnswers r.win then s.writePlain r x.2 else s
    | none => s) { s with pwr := { s.pwr with saved := [] } }

/-- WAKE in PWR_CTL: the exit to P0, ignored in P0, held during an entry (R430, R436, R442, R452). -/
def State.wake (s : State) : State :=
  let old := s.pwr.state
  if s.pwr.busy then { s with pwr := { s.pwr with wakeHeld := true } }
  else if old = 0 || !s.board.powerGood || s.glb.mstate == .off then s
  else
    let s := { s with pwr := { s.pwr with state := 0, wakeTime := s.board.time } }
    let s := if old = 3 then s.reload else if old = 2 then s.crossUp (islandSources [1, 2, 3, 4]) else s
    let s := s.restoreRegs
    let s := if old = 2 then s.wakePorts else s
    let s := closeBase { s with eng := { s.eng with lowPower := true } }
    -- returns that waited for the wake go out (R361)
    (s.markCycles.ageBegins.notify 0x04 old 0 0 s.drv.device 0 0 0).sendReturns 32 66

/-- The refuser that arises before the commit of an entry: Drover traffic, or host work, a job that starts among it (R430). -/
def State.entryBar (s : State) (h : Hnd) : Option Nat :=
  if s.droverTraffic then some 0x02
  else if (s.port 32).owesHost || s.othersOut h || !s.glb.mstate.permits s.pwr.target then some 0x06
  else none

/-- An entry in progress goes on as time passes: it is undone where a refuser arises, and commits when the ports have drained; a wake written
meanwhile follows (R430; log 78). -/
def State.entryOn (s : State) : State :=
  if !s.pwr.busy then s
  else match s.outstanding 0x30 with
  | none => s.entryUndone
  | some h =>
    match s.entryBar h with
    | some code => s.entryUndone.refusePower h code
    | none =>
      if s.undrained then s
      else
        let t := ({ s with pwr := { s.pwr with busy := false, target := 0, wakeHeld := false } } : State).enterPower h s.pwr.target
        if s.pwr.wakeHeld then t.wake else t

end Sys2Proof.Machine
end

