-- ==== Sys2Proof/Machine/Regs.lean ====
section
/-! DEFINITION. Register access by commands and by single events (R12-R14, R241, R463, R473, R500, R504, R505, R513): READ_REGS,
WRITE_REGS, and the accesses that the table names one by one. -/

namespace Sys2Proof.Machine

/-- A write to a register: WAKE in PWR_CTL starts the exit, every other write is plain (R12, R436). -/
def State.writeReg (s : State) (r : RegId) (v : Nat) : State :=
  match r with
  | .pwrCtl => if bitAt v 0 then s.wake else s
  | r => s.writePlain r v

/-- A write at an offset: none where nothing is mapped or the window does not answer (R499, R500). -/
def State.writeAt (s : State) (a v : Nat) : State :=
  match regAt a with
  | some r => if s.winAnswers r.win then s.writeReg r v else s
  | none => s

/-- A sideband write in effect: an unmapped offset, and during STARTING most registers, count as bad accesses (R499, R500). -/
def State.sbWrite (s : State) (a v : Nat) : State :=
  match regAt a with
  | none => s.badAccess
  | some r => if s.glb.mstate == .starting && !r.startingMay then s.badAccess else s.writeAt a v

/-- A write by a path; WRITE_REGS is not admitted in STARTING (R418, R500). -/
def State.pathWrite (s : State) (p : Path) (a v : Nat) : State :=
  match p with
  | .sideband => s.sbWrite a v
  | .command => if s.glb.mstate == .starting then s else s.writeAt a v

/-- A read by a path: the sideband path keeps its latches from one access to the next, a command's end with it (R505). An unmapped
offset read over the sideband counts as a bad access (R499). -/
def State.pathRead (s : State) (p : Path) (a : Nat) : Nat × State :=
  match p with
  | .sideband =>
    let s := if regMapped a then s else s.badAccess
    let (v, s, l) := s.readReg s.sb.latches a
    (v, { s with sb := { s.sb with latches := l } })
  | .command => let (v, s, _) := s.readReg [] a; (v, s)

/-- READ_REGS: up to 112 registers in argument order, as one access. -/
def execReadRegs (c : Cmd) (s : State) : Host.Outcome State Fault Refusal :=
  .next (s.command c 0x40 fun s h =>
    let n := leAt c.args 0 4
    let l := (List.range n).map fun k => leAt c.args (4 + 4 * k) 4
    if n < 1 || 112 < n || c.args.length != 4 + 4 * n || c.bulkLen != 0 || !l.all regMapped then s.finish h stBad
    else
      let (vs, s, _) := s.readRegs [] l
      s.finish h stDone (vs.flatMap (le 4)))

/-- WRITE_REGS: up to 56 registers in argument order, as one access. -/
def execWriteRegs (c : Cmd) (s : State) : Host.Outcome State Fault Refusal :=
  .next (s.command c 0x41 fun s h =>
    let n := leAt c.args 0 4
    let l := (List.range n).map fun k => (leAt c.args (4 + 8 * k) 4, leAt c.args (8 + 8 * k) 4)
    if n < 1 || 56 < n || c.args.length != 4 + 8 * n || c.bulkLen != 0 || !(l.all fun x => regMapped x.1) then s.finish h stBad
    else (l.foldl (fun (s : State) x => s.writeAt x.1 x.2) s).finish h stDone)

/-- QUE_DESC_SEL: a write captures the selected queue descriptor (R241). -/
def execQueDescSel (region : Nat) (value : Reg) (s : State) : Host.Outcome State Fault Refusal :=
  .next (if region < 4 then s.rowWrite (.queDescSel region) fun s => if s.winAnswers .rgn then s.captureDesc region value.toNat else s else s)

/-- ERR_LOG_PTR_RD: a write to RD consumes log entries forward (R463). -/
def execErrLogPtrRd (value : Reg) (s : State) : Host.Outcome State Fault Refusal :=
  .next (if s.winAnswers .err then s.consumeLog (field value.toNat 26 16) else s)

/-- ERR_FIRST_VALID_CLEAR: a write of 1 to VALID re-arms the latch (R463). -/
def execErrFirstValidClear (s : State) : Host.Outcome State Fault Refusal :=
  .next (s.rowWrite .errFirst fun s => if s.winAnswers .err then s.rearmFirst else s)

/-- ERR_LOG_0_READ: the entry at RD is latched for words 1 to 7 (R473). -/
def execErrLog0Read (path : Path) (s : State) : Host.Outcome State Fault Refusal := .next (s.pathRead path 0x4040).2

/-- LO_REGISTER_READ: the partner is latched for the path (R505). -/
def execLoRegisterRead (path : Path) (offset : Nat) (s : State) : Host.Outcome State Fault Refusal :=
  .next (if (regAt offset).any RegId.isLo then (s.pathRead path offset).2 else s)

/-- RC_FIELD_READ: the read clears the field it returns (R14). -/
def execRcFieldRead (path : Path) (offset : Nat) (s : State) : Host.Outcome State Fault Refusal :=
  .next (if (regAt offset).any RegId.isRc then (s.pathRead path offset).2 else s)

/-- GLB_CDC_FLAGS_CLEAR: flags of the selected source cleared through GLB_CDC, or a block's through BLK_CDC (R513). -/
def execGlbCdcFlagsClear (blk : Option Nat) (mask : Nat) (s : State) : Host.Outcome State Fault Refusal :=
  .next (match blk with
    | none => s.rowWrite .glbCdc fun s => if s.winAnswers .glb then s.clearCdc s.cdc.sel (mask % 256) else s
    | some g => if g < 256 then s.rowWrite (.blkCdc g) fun s => if s.winAnswers .blk then s.clearCdc (srcBlock g) (mask % 8) else s else s)

/-! ## Messages held in P1 and P2 (R417, R430, R439) -/

/-- The meaning of a message that may be held: of a session, of Drover, or of link control. -/
def runHeld (i : Instr) (s : State) : Host.Outcome State Fault Refusal :=
  match i with
  | .identify c => execIdentify c s
  | .attest c => execAttest c s
  | .jobStart c => execJobStart c s
  | .jobPause c => execJobPause c s
  | .jobHalt c => execJobHalt c s
  | .jobResume c => execJobResume c s
  | .jobAbort c => execJobAbort c s
  | .snapshotTake c => execSnapshotTake c s
  | .snapshotWrite c => execSnapshotWrite c s
  | .snapshotShip c => execSnapshotShip c s
  | .powerState c => execPowerState c s
  | .readRegs c => execReadRegs c s
  | .writeRegs c => execWriteRegs c s
  | .countersRead c => execCountersRead c s
  | .traceArm c => execTraceArm c s
  | .traceRead c => execTraceRead c s
  | .energyReport c => execEnergyReport c s
  | .streamOpen c => execStreamOpen c s
  | .streamClose c => execStreamClose c s
  | .abortHandle c => execAbortHandle c s
  | .unlistedOpcode op c => execUnlistedOpcode op c s
  | .openSession n msg => execOpenSession n msg s
  | .closeSession n => execCloseSession n s
  | .hciBadMessage n msg => execHciBadMessage n msg s
  | .bulkArgument n tag rsv d => execBulkArgument n tag rsv d s
  | .streamMessage n k d => execStreamMessage n k d s
  | .snapshotChunk p src k n len crc d => execSnapshotChunk p src k n len crc d s
  | .head p m => execHead p m s
  | .grant p m => execGrant p m s
  | .grad p m => execGrad p m s
  | .param p m => execParam p m s
  | .ring p m => execRing p m s
  | .ringFinal p m => execRingFinal p m s
  | .vote p m => execVote p m s
  | .verdict p m => execVerdict p m s
  | .fault p m => execFault p m s
  | .stop p m => execStop p m s
  | .restart p m => execRestart p m s
  | .restartAck p m => execRestartAck p m s
  | .form p m => execForm p m s
  | .formAck p m => execFormAck p m s
  | .probe p m => execProbe p m s
  | .probeReply p m => execProbeReply p m s
  | .formed p m => execFormed p m s
  | .badDroverMessage p m => execBadDroverMessage p m s
  | .stopRequest p a d h t => execStopRequest p a d h t s
  | .pauseMarker p r d h => execPauseMarker p r d h s
  | _ => .next s

/-- Messages taken one after the other. -/
def runAll : List Instr → State → Host.Outcome State Fault Refusal
  | [], s => .next s
  | i :: rest, s => match runHeld i s with
    | .next s => runAll rest s
    | o => o

/-- Where an access has woken the module, the messages that were held are taken, in the order of their arrival (R417). `old` is the state
before the access. -/
def State.release (s old : State) : Host.Outcome State Fault Refusal :=
  if old.pwr.state == 0 || s.pwr.state != 0 then .next s else runAll s.hci.held { s with hci := { s.hci with held := [] } }

/-- WAKE: a write of 1 to WAKE in PWR_CTL, the only way out of P1, P2 and P3 (R417, R436). -/
def execWake (s : State) : Host.Outcome State Fault Refusal := (s.rowWrite .pwrCtl State.wake).release s

/-- REGISTER_WRITE (R12). -/
def execRegisterWrite (path : Path) (offset : Nat) (value : Reg) (s : State) : Host.Outcome State Fault Refusal :=
  (s.pathWrite path offset value.toNat).release s

end Sys2Proof.Machine
end

