-- ==== Sys2Proof/Machine/Sideband.lean ====
section
/-! DEFINITION. The sideband bus (R436, R501-R508): SMBus transactions with their framing and PEC, the repeat of a response, and the
alert response. A byte is named by its place: 1 the command code, 2 the write count, 3 onward the bytes after the count, then the PEC. -/

namespace Sys2Proof.Machine

/-- The sideband logic answers while power is good (R436, R500). -/
def State.sbUp (s : State) : Bool := s.board.powerGood

/-- A fault of framing: the byte that shows it is NACKed, nothing is performed (R501). -/
def State.framing (s : State) (byte : Nat) : State := s.badAccess.send (.sideband (some byte) 0 [])

/-- A mismatch of the PEC: its byte is NACKed, nothing is performed (R502). -/
def State.pecBad (s : State) (byte : Nat) : State :=
  ({ s with sb := { s.sb with pecErr := satAdd 4095 s.sb.pecErr 1 } } : State).send (.sideband (some byte) 0 [])

/-- The response kept, sent with its PEC, which covers the whole transaction: both address bytes, what the host wrote, the count and the data
(R501-R503, log 157). -/
def State.sbAnswer (s : State) (code : Nat) (written : List Byte) : State :=
  let head : List Byte := [BitVec.ofNat 8 (2 * s.board.addr), BitVec.ofNat 8 code, BitVec.ofNat 8 written.length]
  let back : List Byte := [BitVec.ofNat 8 (2 * s.board.addr + 1), BitVec.ofNat 8 s.sb.lastCount] ++ s.sb.last.flatMap (le 4)
  s.send (.sideband none s.sb.lastCount (s.sb.last.map fun v => BitVec.ofNat 32 v) (some (pecOf (head ++ written ++ back))))

/-- A read served: the response is kept for 0x14 and sent (R503). -/
def State.sbServe (s : State) (code : Nat) (written : List Byte) (as : List Nat) : State :=
  let (vs, s, l) := s.readRegs s.sb.latches as
  ({ s with sb := { s.sb with latches := l, last := vs, lastCount := 4 * vs.length } } : State).sbAnswer code written

/-- SIDEBAND_WRITE: code 0x10, count 8, offset and value. It takes effect once its PEC is ACKed. -/
def execSidebandWrite (count : Nat) (bytes : List Byte) (pecOk : Bool) (s : State) : Host.Outcome State Fault Refusal :=
  if !s.sbUp then .next s
  else if count != 8 then .next (s.framing 2)
  else if bytes.length != 8 then .next s
  else if leAt bytes 0 4 % 4 != 0 then .next (s.framing 3)
  else if !pecOk then .next (s.pecBad 11)
  else ((s.sbWrite (leAt bytes 0 4) (leAt bytes 4 4)).send (.sideband none 0 [])).release s

/-- SIDEBAND_READ: code 0x11, count 4, one offset. An unmapped offset reads 0 and counts (R499). A PEC byte that a host sends after what it
writes is checked; none need come, the module's own PEC covers the transaction (R502, log 157). -/
def execSidebandRead (count : SbHead) (bytes : List Byte) (s : State) : Host.Outcome State Fault Refusal :=
  .next (if !s.sbUp then s
    else if count.count != 4 then s.framing 2
    else if bytes.length != 4 then s
    else if leAt bytes 0 4 % 4 != 0 then s.framing 3
    else if !count.pecOk then s.pecBad 7
    else (if regMapped (leAt bytes 0 4) then s else s.badAccess).sbServe 0x11 bytes [leAt bytes 0 4])

/-- The byte of n that shows it to lie outside 1 to 8, or the range to reach an unmapped offset (log 61). -/
def blockFault (bytes : List Byte) : Nat :=
  if 8 < leAt bytes 4 1 then 7 else if leAt bytes 5 1 != 0 then 8 else if leAt bytes 6 1 != 0 then 9 else 10

/-- SIDEBAND_BLOCK_READ: code 0x12, count 8, offset and n; n registers as one access. -/
def execSidebandBlockRead (count : SbHead) (bytes : List Byte) (s : State) : Host.Outcome State Fault Refusal :=
  let a := leAt bytes 0 4
  let n := leAt bytes 4 4
  let l := (List.range n).map (a + 4 * ·)
  .next (if !s.sbUp then s
    else if count.count != 8 then s.framing 2
    else if bytes.length != 8 then s
    else if a % 4 != 0 then s.framing 3
    else if n < 1 || 8 < n || !l.all regMapped then s.framing (blockFault bytes)
    else if !count.pecOk then s.pecBad 11
    else s.sbServe 0x12 bytes l)

/-- SIDEBAND_REPEAT_READ: code 0x14, count 0; the last response again, a count of 0 before any read. No register is touched (R503). -/
def execSidebandRepeatRead (count : SbHead) (s : State) : Host.Outcome State Fault Refusal :=
  .next (if !s.sbUp then s
    else if count.count != 0 then s.framing 2
    else if !count.pecOk then s.pecBad 3
    else s.sbAnswer 0x14 [])

/-- SIDEBAND_UNLISTED_COMMAND: the code byte is NACKed. A code of the table is none of this command's. -/
def execSidebandUnlistedCommand (code : Nat) (s : State) : Host.Outcome State Fault Refusal :=
  .next (if !s.sbUp || [0x10, 0x11, 0x12, 0x14].contains code then s else s.framing 1)

/-- Whether SMBALERT# is driven (R464). -/
def State.alerting (s : State) : Bool := s.board.powerGood && Nat.land s.err.alert s.err.alertEn != 0

/-- ALERT_RESPONSE: the module answers with its own address; nothing is cleared (R508). -/
def execAlertResponse (s : State) : Host.Outcome State Fault Refusal :=
  .next (if s.alerting then s.send (.alertAddress s.board.addr) else s)

end Sys2Proof.Machine
end

