-- ==== Sys2Proof/Machine/Board.lean ====
section
/-! DEFINITION. The signal connector and the input power (R378, R379, R399, R405, R517-R519, R523, R524): power good, RESET_N, the flash
pass-through. -/

namespace Sys2Proof.Machine

/-! ## Power good -/

/-- POWER_GOOD_RISE: the heartwood comes up, the time base starts at 0, the straps are sampled (R399 order 1, R518, R523). -/
def execPowerGoodRise (straps : Nat) (resetHigh : Bool) (s : State) : Host.Outcome State Fault Refusal :=
  if s.board.powerGood then .next s
  else
    .next { board := { powerGood := true, resetN := resetHigh, addr := 0x58 + straps % 8, refRunning := s.board.refRunning },
            glb := { serialUp := true }, flash := { s.flash with powerOns := (s.flash.powerOns + 1) % 2 ^ 32 },
            out := s.out, pending := s.pending, fresh := s.fresh }

/-- POWER_GOOD_FALL: every domain is isolated and every rail switched off; only the flash devices keep what they hold (R519). -/
def execPowerGoodFall (s : State) : Host.Outcome State Fault Refusal :=
  if !s.board.powerGood then .next s
  else
    .next { board := { refRunning := s.board.refRunning }, flash := s.flash, out := s.out, pending := s.pending, fresh := s.fresh }

/-! ## RESET_N -/

/-- What the heartwood keeps of the error unit. -/
def Err.kept (e : Err) : Err := { e with window := [], quiet := [], windowAt := none, stopIssue := false, recent := [] }

/-- The islands are isolated: job, tables, blocks, regions, ports, sessions and the start's own marks are gone; an excluded block stays
excluded for the rest of the power-on period (R399, R403, R405). -/
def State.islandsGone (s : State) : State :=
  { s with board := { s.board with resetN := false, firstStart := false, gated := false },
           glb := { s.glb with halted := false, job := false, bootRom := false, reloadFault := none, linkWaitFrom := none,
                               jobStarting := false, resumeStep := 0 },
           job := {}, blocks := (s.blocks.filter fun (e : Nat × Block) => e.2.excluded).map fun (e : Nat × Block) => (e.1, e.2.kept), regions := [], queues := [], tensors := [], gov := {}, drv := {}, ports := [], lnkPorts := 0,
           trc := {}, stop := {}, hci := {} }

/-- What heartwood, LPDDR5X and the error unit keep over a reset (R405, R426, R446, R477). -/
def State.heartKept (s : State) : State :=
  { s with upd := { slots := s.upd.slots, newest := s.upd.newest, anyDone := s.upd.anyDone }, err := s.err.kept,
           pwr := { lastRefuser := s.pwr.lastRefuser, wakeTime := s.pwr.wakeTime, refuse := s.pwr.refuse },
           age := { hist := s.age.hist, resid := s.age.resid, lastSummary := s.age.lastSummary, loaded := s.age.loaded },
           mem := { data := s.mem.data, poison := s.mem.poison } }

/-- Work in progress dropped: no session, no measurement. The handle of the job's JOB_START stays until its ranges are closed (R444). -/
def State.workDropped (s : State) : State := { s with hci := { jobHandle := s.hci.jobHandle }, age := { s.age with busy := false, due := false } }

/-- A fall of RESET_N: start-up or job end at once and the islands are isolated. Heartwood, LPDDR5X, flash and the group counters stay
(R399, R405, R426, R446, R477). -/
def State.resetFalls (s : State) : State :=
  (((s.bankCycles.crossDown false (islandSources [1, 2, 3, 4, 5])).workDropped).setMode .off).islandsGone.heartKept.zeroHbm.keepLines [6]

/-- RESET_N_FALL: RESET_N low for a time. 10 µs or longer is a fall, a pulse below 1 µs is ignored; which of the two happens between
them is a free choice (R405, R524, log 1). -/
def execResetNFall (lowNs : Nat) (s : State) : Host.Outcome State Fault Refusal :=
  if !s.board.powerGood || !s.board.resetN || lowNs < 1000 then .next s
  else if 10000 ≤ lowNs then .next s.resetFalls
  else
    let (v, s) := takeFree s
    .next (if v % 2 = 0 then s else s.resetFalls)

/-! ## Pass-through (R378, R379) -/

/-- The journal store erased whole: every area is lost (R377, R379). -/
def Flash.erased (f : Flash) : Flash :=
  { f with trims := {}, repair := {}, margin := {}, lifeHeads := [], life := [], lifeSeq := 0, lifeSeg := 0, lifeUsed := 0, powerOns := 0, chainSeq := 0, chainDigest := 0 }

/-- FLASH_PASS_THROUGH: with RESET_N low the carrier owns both devices, FLASH_HOST is high, and it programs images, erases the journal
store, and then reads out a range: device, offset, length (R378, R379, R472). -/
def execFlashPassThrough (image : Option (List Byte)) (recovery : Option (List Byte)) (eraseJournal : JournalUse)
    (s : State) : Host.Outcome State Fault Refusal :=
  if !s.board.powerGood || s.board.resetN then .next s
  else
    let f := { s.flash with image := image.getD s.flash.image, recovery := recovery.getD s.flash.recovery }
    let s := { s with board := { s.board with flashHost := true }, flash := if eraseJournal.erase then f.erased else f }
    .next (match eraseJournal.read with
      | some (dev, at', n) => s.send (.flash (s.flash.readOut dev at' n))
      | none => s)

end Sys2Proof.Machine
end

