-- ==== Sys2Proof/Machine/Memory.lean ====
section
/-! DEFINITION. The commands of the memory devices: migration of pages (R262-R264, R349), temperature and refresh (R344, R345). -/

namespace Sys2Proof.Machine

/-! ## Frames moved -/

/-- Block address of block 0 of a frame (R332). -/
def frameBase (ctl frame : Nat) : Nat := ctl * 2 ^ 28 + frame * 2 ^ 13

/-- Entries of a rising list that lie in one range moved to another range, which is replaced. -/
def moveRange (src dst n : Nat) (key : α → Nat) (shift : α → Nat → α) (l : List α) : List α :=
  let rest := l.filter fun x => !(src ≤ key x && key x < src + n) && !(dst ≤ key x && key x < dst + n)
  let moved := (l.filter fun x => src ≤ key x && key x < src + n).map fun x => shift x (key x - src + dst)
  (rest.filter fun x => key x < dst) ++ moved ++ rest.filter fun x => dst + n ≤ key x

/-- The contents and poison of a frame moved to another (R349). -/
def State.moveFrame (s : State) (c f c' f' : Nat) : State :=
  let a := frameBase c f
  let b := frameBase c' f'
  let m := s.mem
  { s with mem := { m with data := moveRange (a * 256) (b * 256) (2 ^ 21) (·.1) (fun x k => (k, x.2)) m.data,
                           poison := moveRange a b 8192 id (fun _ k => k) m.poison } }

/-! ## Migration -/

/-- Migrations in progress in a region (R262, R349). -/
def State.movesIn (s : State) (region : Nat) : Nat := (s.mem.moves.filter fun m => m.region == region).length

/-- Whether the migration engines run: the module is powered and its job has not stopped. -/
def State.migrating (s : State) : Bool :=
  s.inState [.ready, .running, .paused] && s.pwr.state == 0 && !s.err.stopIssue && !s.glb.halted

/-- Whether a requested page may come: the migration that a job fault met completes, until the module is halted or its islands stop (R264,
R267). -/
def State.bringing (s : State) : Bool :=
  s.inState [.ready, .running, .paused, .faulted] && s.pwr.state == 0 && !s.glb.halted && s.glb.trip.isNone && s.job.loaded

/-- PAGE_MIGRATION: the region's engine takes the request for a page, and a frame for it; with no free frame it waits for an eviction
(R262, R263). -/
def execPageMigration (region page : Nat) (s : State) : Host.Outcome State Fault Refusal :=
  match s.mem.requests.find? fun r => r.page == page && r.region == region with
  | none => .next s
  | some q =>
    let x := s.page page
    if !s.bringing || !x.mapped || x.resident || x.moving || s.job.migConc ≤ s.movesIn region then .next s
    else match s.firstFrame (upOrder region) with
      | none =>
        let q' := { q with waitFrom := some (q.waitFrom.getD s.board.time) }
        .next { s with mem := { s.mem with requests := s.mem.requests.map fun r => if r = q then q' else r } }
      | some (c, f) =>
        let waited := match q.waitFrom with
          | some t => s.board.time - t
          | none => 0
        let s := (s.count 9 region 3 waited).setPage page { x with moving := true }
        .next { s with mem := { s.mem with requests := s.mem.requests.erase q,
                                           moves := s.mem.moves ++ [{ page := page, up := true, ctl := c, frame := f, since := q.since,
                                                                      region := region }] } }

/-- Pages that may be evicted: migratable, in HBM3E, not on the move, and with no transfer stalled on them (R261, R262). -/
def State.evictable (s : State) : List Nat :=
  (s.mem.pages.filter fun e => e.2.mapped && !e.2.lp && !e.2.pin && !e.2.moving && !(s.mem.requests.any fun r => r.page == e.1)).map (·.1)

/-- The least recently accessed of some pages, the lower number on a tie; a page never accessed comes first. -/
def State.oldestPage (s : State) (l : List Nat) : Option Nat :=
  l.foldl (fun a p => match a with
    | none => some p
    | some q => if look 0 p s.mem.lastUse < look 0 q s.mem.lastUse then some p else some q) none

/-- One eviction started, where the page's region has room for one (R262, R334). -/
def State.evictOne (s : State) (p : Nat) : State :=
  let x := s.page p
  match s.firstFrame (homeOrder false p) with
  | none => s
  | some (c, f) =>
    let s := s.setPage p { x with moving := true }
    { s with mem := { s.mem with moves := s.mem.moves ++ [{ page := p, up := false, ctl := c, frame := f, since := s.board.time,
                                                            region := x.ctl / 4 }] } }

/-- Evictions started until those under way would reach MIG_HIGH, or no region takes another. -/
def State.evict (s : State) : Nat → State
  | 0 => s
  | n + 1 =>
    let down := (s.mem.moves.filter fun m => !m.up).length
    if s.job.migHigh ≤ s.freeHbm + down then s
    else
      match s.oldestPage (s.evictable.filter fun p => s.movesIn ((s.page p).ctl / 4) < s.job.migConc) with
      | none => s
      | some p => (s.evictOne p).evict n

/-- EVICTION: below MIG_LOW free frames eviction starts, and it goes on until MIG_HIGH are free (R262). -/
def execEviction (s : State) : Host.Outcome State Fault Refusal :=
  if !s.migrating || !s.job.loaded then .next s
  else
    let free := s.freeHbm
    let on := if s.job.migHigh ≤ free then false else s.mem.evicting || free < s.job.migLow
    let s := { s with mem := { s.mem with evicting := on } }
    if on then .next (s.evict (4 * s.job.migConc)) else .next s

/-- Every transfer stalled on a page resumes at its cursor, with its wait record (R263, R266, R482). -/
def State.pageCame (s : State) (page oldCtl : Nat) (ups : Upsets) : State :=
  let s := s.hosting.foldl (fun (s : State) b =>
    match (s.blk b).xfer with
    | some x =>
      if x.page != page then s
      else
        let s := s.waitRec (regionOf b) { kind := 0x07, flags := 4, src := srcBlock b, stage := x.stage, start := x.since,
                                          awSrc := srcMem oldCtl, awDev := s.drv.device, obj := page }
        s.resume ups b
    | none => s) s
  (s.refreshOn ups).retryStalled ups

/-- A migration gives up: the page keeps its old frame (R264). -/
def State.dropMove (s : State) (page : Nat) : State :=
  let s := s.setPage page { (s.page page) with moving := false }
  { s with mem := { s.mem with moves := s.mem.moves.filter fun m => m.page != page,
                               requests := s.mem.requests.filter fun r => r.page != page } }

/-- The 8,192 blocks of the frame at a base address (R246). -/
def frameBlocks (base : Nat) : List Nat := (List.range 8192).map (base + ·)

/-- A migration whose every block was copied: the contents moved, the page table switched (R263, R349). -/
def State.moveDone (s : State) (page : Nat) (m : Move) (ups : Upsets) : State :=
  let x := s.page page
  let s := s.moveFrame x.ctl x.frame m.ctl m.frame
  let s := s.setPage page { x with lp := !m.up, moving := false, ctl := m.ctl, frame := m.frame }
  let s := { s with mem := { s.mem with moves := s.mem.moves.filter fun y => y.page != page } }
  let s := if m.up then s.count 9 (m.ctl / 4) 0 1 else s.count 9 (x.ctl / 4) 1 1
  s.pageCame page x.ctl ups

/-- Blocks of a page copied in ascending order, each read and then written, until one fails for good (R341, R342, R349). -/
def State.copyBlocks (s : State) (ups : Upsets) : List (Nat × Nat) → State × Bool
  | [] => (s, false)
  | (a, b) :: r =>
    let x := s.readBlock ups a
    if x.2 then (x.1, true)
    else
      let y := x.1.writeBlocks ups [b]
      if y.2 then (y.1, true) else y.1.copyBlocks ups r

/-- The end of a migration, by what copying its blocks gave (R264). -/
def State.moveEnds (page : Nat) (m : Move) (ups : Upsets) (r : State × Bool) : State :=
  if r.2 then r.1.dropMove page else r.1.moveDone page m ups

/-- MIGRATION_COMPLETE: the page's 8,192 blocks have been read under their CRCs and written to the new frame, one after the other; the page
table switches and whatever stalled on the page goes on (R263, R349). A block that is exhausted is a job fault and the page keeps its
frame (R264). -/
def execMigrationComplete (page : Nat) (ups : Upsets) (s : State) : Host.Outcome State Fault Refusal :=
  match s.mem.moves.find? fun m => m.page == page with
  | none => .next s
  | some m =>
    let x := s.page page
    .next (State.moveEnds page m ups (s.copyBlocks ups ((frameBlocks (frameBase x.ctl x.frame)).zip (frameBlocks (frameBase m.ctl m.frame)))))

/-- MIGRATION_WATCHDOG: a migration not complete 10 ms after its request is a job fault (R264). -/
def execMigrationWatchdog (page : Nat) (s : State) : Host.Outcome State Fault Refusal :=
  let region := ((s.mem.moves.find? fun m => m.page == page && m.up).map (·.region)).or
    ((s.mem.requests.find? fun r => r.page == page).map (·.region))
  match region with
  | none => .next s
  | some r => .next (raise (s.dropMove page) (faultCode 3 WATCHDOG 0x02) (srcRegion r) page)

/-! ## Temperature and refresh -/

/-- The band of a temperature, and each band's lower bound (R345). -/
def bandOf (t : Nat) : Nat := if t < 85 then 0 else if t < 95 then 1 else if t < 105 then 2 else 3
def bandFloor (b : Nat) : Nat := if b = 0 then 0 else 75 + 10 * b

/-- The band after a reading: upward at once, downward only 2 °C below a band's lower bound. -/
def bandAfter (t : Nat) : Nat → Nat
  | 0 => bandOf t
  | b + 1 => if b + 1 ≤ bandOf t then bandOf t else if t + 2 ≤ bandFloor (b + 1) then bandAfter t b else b + 1

/-- MEM_TEMPERATURE_READ: temperature and band of a controller's device; nanoseconds in band 2 count; band 3 raises THERMAL (R345). -/
def execMemTemperatureRead (ctl temp : Nat) (s : State) : Host.Outcome State Fault Refusal :=
  if 24 ≤ ctl || 256 ≤ temp || !s.memOn then .next s
  else
    let s := s.bankBands
    let new := bandAfter temp (look 0 ctl s.mem.band)
    let s := { s with mem := { s.mem with temp := put ctl temp s.mem.temp, band := put ctl new s.mem.band,
                                          bandSince := put ctl s.board.time s.mem.bandSince } }
    if new = 3 then
      .next (raise s (faultCode 3 THERMAL (if isHbm ctl then 0x21 else 0x22)) (srcMem ctl) (temp * 65536 + ctl))
    else .next s

/-- MEM_REFRESH: a bank is refreshed; nothing a reader of the memory can see changes (R344). -/
def execMemRefresh (ctl bank : Nat) (s : State) : Host.Outcome State Fault Refusal :=
  if 24 ≤ ctl || !s.memOn then .next s
  else .next { s with mem := { s.mem with refresh := put (ctl * 65536 + bank) s.board.time s.mem.refresh } }

end Sys2Proof.Machine
end

