-- ==== Sys2Proof/Machine/Vector.lean ====
section
/-! DEFINITION. The vector unit: VEC, NORM, SOFTMAX, REDUCE, ROUTE, QUANT, DEQUANT, RNG and LOSS (R124, R129-R133, R143,
R199-R202). -/

namespace Sys2Proof.Machine

/-! ## VEC -/

/-- One element of a VEC variant (R129, R131); `imm` is the immediate. -/
def vecNum (var imm : Nat) (a b cc : Number) : Number :=
  match var with
  | 0x01 => fadd a b
  | 0x02 => fsub a b
  | 0x03 => fmul a b
  | 0x04 => ffma a b cc
  | 0x05 => a.max b
  | 0x06 => a.min b
  | 0x07 => a.abs
  | 0x08 => a.neg
  | 0x09 => fmul a (dec32 (imm % 2 ^ 32))
  | 0x0A => if cc.isZero then b else a
  | 0x0B => if a.lt b then .ofNat 1 else .zero
  | 0x10 => vExp a
  | 0x11 => vLog a
  | 0x12 => vRecip a
  | 0x13 => vRsqrt a
  | 0x14 => vSqrt a
  | 0x15 => vTanh a
  | 0x16 => vSigmoid a
  | 0x18 => a.max .zero
  | 0x19 => vGelu a
  | 0x1A => vSilu a
  | 0x20 => if Number.zero.lt b then a else .zero
  | 0x21 => vGrad 0x21 Number.geluD a b
  | 0x22 => vGrad 0x22 Number.siluD a b
  | _ => a

/-- Sources a variant reads (R129): the others are absent. -/
def vecArity (var : Nat) : Nat :=
  if var = 0x04 || var = 0x0A then 3
  else if [0x01, 0x02, 0x03, 0x05, 0x06, 0x0B, 0x20, 0x21, 0x22].contains var then 2
  else 1

/-- The poison of an element: of SELECT, that of C and of the source it selects; else that of any source (R34, R129). -/
def vecPois (var : Nat) (a b c : Val) : Bool :=
  if var = 0x0A then c.pois || (if c.num.isZero then b.pois else a.pois) else a.pois || b.pois || c.pois

/-- The effect of VEC but COPY. With ACC the result is added into the destination (R138). -/
def vecRun (c : Ctx) (s : State) : Effect :=
  let s := if c.i.acc then s.accBase c else s
  let v := s.dstView c
  let n := v.count
  let k := vecArity c.i.var
  let src (o : OpRef) (on : Bool) : List Val := if on then s.operand c o v.ext n else List.replicate n Val.zero
  let as := src c.i.srcA true
  let bs := src c.i.srcB (2 ≤ k)
  let cs := src c.i.srcC (3 ≤ k)
  let out := (as.zip (bs.zip cs)).map fun (a, b, d) =>
    (⟨vecNum c.i.var c.i.imm a.num b.num d.num, vecPois c.i.var a b d⟩ : Val)
  let out := if c.i.acc then List.zipWith (addRnd .rne) (s.dstVals c) out else out
  s.writeDst c out (s.operandBigs c ([c.i.srcA, c.i.srcB, c.i.srcC].take k) v.ext n)

def execVec (f : Fire) (s : State) : Host.Outcome State Fault Refusal :=
  .next (s.fire f (fun i => i.op == opVec && i.var != 0) vecRun)

/-! ## NORM -/

/-- Mean of a row: its sum divided once. -/
def meanOf (seed : Nat) (l : List Number) : Number := fdiv (sumVals seed l) (.ofNat l.length)

/-- The statistics of a row of x: its mean (LAYER) and r = rsqrt(variance + ε); RMS has mean zero (R132). `seed k` is the seed of the
row's k-th sum. -/
def normStats (layer : Bool) (seed : Nat → Nat) (eps : Number) (x : List Number) : Number × Number :=
  let m := if layer then meanOf (seed 0) x else .zero
  let d := if layer then x.map fun v => fsub v m else x
  let v := fdiv (sumAny (seed 1) (fun a y => ffma y y a) d) (.ofNat x.length)
  (m, vRsqrt (fadd v eps))

/-- One row of a forward norm. -/
def normRow (layer : Bool) (seed : Nat → Nat) (eps : Number) (x gain bias : List Number) : List Number :=
  let (m, r) := normStats layer seed eps x
  (x.zip (gain.zip bias)).map fun (v, g, b) =>
    let h := fmul (if layer then fsub v m else v) r
    if layer then mulAdd 0x1101 h g b else fmul h g

/-- One row of a backward norm: dx from dy, the gain and the forward input (R132). -/
def normBwdRow (layer : Bool) (seed : Nat → Nat) (eps : Number) (dy gain x : List Number) : List Number :=
  let n : Number := .ofNat x.length
  let (m, r) := normStats layer seed eps x
  let xh := x.map fun v => fmul (if layer then fsub v m else v) r
  let g := List.zipWith fmul dy gain
  let mg := if layer then fdiv (sumAny (seed 2) (fun a (t : Number × Number) => ffma t.1 t.2 a) (dy.zip gain)) n else .zero
  let mgx := fdiv (sumAny (seed 3) (fun a (t : Number × Number) => ffma t.1 t.2 a) (g.zip xh)) n
  (g.zip xh).map fun (gv, h) => fmul r (mulAdd 0x1111 h.neg mgx (if layer then fsub gv mg else gv))

/-- The effect of NORM, row by row along dimension 0. An absent bias adds +0, which turns a result of −0 into +0 (DESIGN CHOICE,
log 124). -/
def normRun (c : Ctx) (s : State) : Effect :=
  let v := s.dstView c
  let n := v.count
  let w := v.ext.getD 0 1
  let layer := c.i.var = 0x01 || c.i.var = 0x11
  let bwd := c.i.var = 0x11 || c.i.var = 0x12
  let eps := dec32 (c.i.imm % 2 ^ 32)
  let op (o : OpRef) : List (List Val) := pieces w (if o.isT then s.operand c o v.ext n else List.replicate n Val.zero)
  let rows := (op c.i.srcA).zip ((op c.i.srcB).zip (op c.i.srcC))
  let out := rows.zipIdx.flatMap fun ((a, b, d), k) =>
    let seed (j : Nat) : Nat := s.seed c (4 * k + j)
    -- a mean takes in every element of its row
    let row := if bwd then anyPois a || anyPois b || anyPois d else anyPois a
    let y := if bwd then normBwdRow layer seed eps (nums a) (nums b) (nums d)
      else normRow layer seed eps (nums a) (nums b) (nums d)
    (y.zip (b.zip d)).map fun (v, g, z) => (⟨v, row || g.pois || z.pois⟩ : Val)
  s.writeDst c out (s.operandBigs c [c.i.srcA, c.i.srcB, c.i.srcC] v.ext n)

def execNorm (f : Fire) (s : State) : Host.Outcome State Fault Refusal := .next (s.fire f (·.op == opNorm) normRun)

/-! ## SOFTMAX -/

/-- The softmax of a row whose masked elements are none; a row with every element masked is +0 throughout (R132). -/
def softmaxRow (seed : Nat) (scale : Number) (x : List (Option Number)) : List Number :=
  let z := x.map fun o => o.map (fmul · scale)
  let live := z.filterMap id
  match live with
  | [] => x.map fun _ => .zero
  | a :: r =>
    let m := r.foldl Number.max a
    let e := z.map fun o =>
      match o with
      | some v => vExp (fsub v m)
      | none => .zero
    let t := sumVals seed e
    e.map fun v => fdiv v t

/-- The effect of SOFTMAX, row by row along dimension 0. -/
def softmaxRun (c : Ctx) (s : State) : Effect :=
  let v := s.dstView c
  let n := v.count
  let w := v.ext.getD 0 1
  let scale := dec32 (c.i.imm / 2 ^ 32 % 2 ^ 32)
  let mask := signed 32 (c.i.imm % 2 ^ 32)
  let as := pieces w (s.operand c c.i.srcA v.ext n)
  if c.i.var = 0x11 then
    let ys := pieces w (s.operand c c.i.srcB v.ext n)
    let out := (as.zip ys).zipIdx.flatMap fun ((dy, y), k) =>
      let t := sumAny (s.seed c k) (fun a (p : Number × Number) => ffma p.1 p.2 a) ((nums dy).zip (nums y))
      let q := anyPois dy || anyPois y
      (dy.zip y).map fun (d, o) => (⟨fmul (fmul scale o.num) (fsub d.num t), q⟩ : Val)
    s.writeDst c out (s.operandBigs c [c.i.srcA, c.i.srcB] v.ext n)
  else
    let rows : List (List (Option Val)) := as.zipIdx.map fun (row, k) =>
      -- dimension 1 of the row's elements
      let d1 := (coords v.ext (k * w)).getD 1 0
      row.zipIdx.map fun (x, i) => if c.i.var = 0x02 && (i : Int) > (d1 : Int) + mask then none else some x
    let out := rows.zipIdx.flatMap fun (row, k) =>
      let q := row.any fun (o : Option Val) => (o.map Val.pois).getD false
      (softmaxRow (s.seed c k) scale (row.map fun (o : Option Val) => o.map Val.num)).map fun y => (⟨y, q⟩ : Val)
    let masked := (rows.filter fun r => !r.isEmpty && r.all (·.isNone)).length
    let s := if masked = 0 then s else s.blkSticky c.b 6
    (s.count 1 c.b 7 masked).writeDst c out (s.operandBigs c [c.i.srcA] v.ext n)

def execSoftmax (f : Fire) (s : State) : Host.Outcome State Fault Refusal := .next (s.fire f (·.op == opSoftmax) softmaxRun)

/-! ## REDUCE -/

/-- Extents with the dimensions of a mask reduced to 1. -/
def reducedExt (ext : List Nat) (mask : Nat) : List Nat := ext.zipIdx.map fun (e, i) => if bitAt mask i then 1 else e

/-- The source elements behind each result of a reduction, in element order of the results (R132). -/
def reduceGroups {α : Type} (ext : List Nat) (mask : Nat) (vals : List α) : List (List α) :=
  let r := reducedExt ext mask
  let n := prod r
  let key (k : Nat) : Nat := linear r ((coords ext k).zipIdx.map fun (x, i) => if bitAt mask i then 0 else x)
  let tagged := vals.zipIdx.map fun (v, k) => (key k, v)
  (List.range n).map fun o => (tagged.filter fun x => x.1 == o).map (·.2)

/-- One reduction (R132, R133). `rnd` gives the draw of each addition when additions round stochastically, and `first` what such a sum starts
from. -/
def reduceOne (var seed : Nat) (sto : Bool) (rnd : Nat → Rnd) (first : Number) (l : List Number) : Number :=
  let sum : Number := if sto then sumSto seed rnd (fun r a x => (a.add x).round32With r) first l else sumVals seed l
  match var with
  | 0x01 => sum
  | 0x02 =>
    if sto then sumSto seed rnd (fun r a x => ((x.mul x).add a).round32With r) first l else sumAny seed (fun a x => ffma x x a) l
  | 0x03 => match l with | [] => .zero | x :: r => r.foldl Number.max x
  | 0x04 => match l with | [] => .zero | x :: r => r.foldl Number.min x
  | 0x05 => match l.map Number.abs with | [] => .zero | x :: r => r.foldl Number.max x
  | _ => fdiv sum (.ofNat l.length)

/-- The effect of REDUCE into a tensor or a scalar slot. A sum rounded stochastically makes one addition for each of its terms: with ACC into
the destination itself, except that MEAN, whose mean is the last addition, starts from its first term (R138, R139, R143, log 15). A reduction
that leaves several results puts the first into a slot, and a destination of another shape takes them in element order as far as they go (the
manual checks neither; DESIGN CHOICE, log 125). -/
def reduceRun (c : Ctx) (s : State) : Effect :=
  let s := if c.i.acc then s.accBase c else s
  let src := s.srcView c c.i.srcA
  let groups := reduceGroups src.ext (c.i.imm % 64) (s.readVec src)
  let big := (reduceGroups src.ext (c.i.imm % 64) (s.bigs src)).map fun l => l.any id
  let per := (groups.headD []).length
  let summing := c.i.var = 0x01 || c.i.var = 0x02 || c.i.var = 0x06
  let sto := summing && c.stoAcc per
  let old := if c.i.acc then s.dstVals c else []
  let into := sto && c.i.acc && c.i.var != 0x06
  -- the first addition of a mean that is then added is exact, and no draw is its own
  let skip := b2n (sto && c.i.acc && c.i.var == 0x06)
  let out := groups.zipIdx.map fun (l, o) =>
    let d := old.getD o Val.zero
    (⟨reduceOne c.i.var (s.seed c o) sto (fun j => s.accRnd c per per o (j - skip)) (if into then d.num else .zero) (nums l),
      anyPois l || (into && d.pois)⟩ : Val)
  let s := if summing then s.countAdds c per per groups.length else s
  if c.i.dst.isS then ⟨s.setSlot c c.i.dst.slot (out.headD Val.zero), true, {}⟩
  else
    let out := if c.i.acc && !into then
        List.zipWith (fun (d, o) x => addRnd (if sto then s.accRnd c per per o (per - 1) else .rne) d x) old.zipIdx out
      else out
    s.writeDst c out big

def execReduce (f : Fire) (s : State) : Host.Outcome State Fault Refusal := .next (s.fire f (·.op == opReduce) reduceRun)

/-! ## ROUTE -/

/-- The logits of a token that stops at NaN or +∞ (R200). -/
def routeBad (l : List Number) : Bool := l.any fun x => x.isNan || (x.isInf && !x.sign)

/-- An expert placed among candidates ordered by logit descending, ties by expert ascending. -/
def routeInsert (x : Nat × Number) : List (Nat × Number) → List (Nat × Number)
  | [] => [x]
  | y :: r => if y.2.lt x.2 then x :: y :: r else y :: routeInsert x r

/-- The choices of a token, best first (R200). -/
def routeChoice (k : Nat) (l : List Number) : List (Nat × Number) :=
  if routeBad l then []
  else
    let cand := (l.zipIdx.filter fun (x, _) => !x.isInf).foldl (fun acc (x, e) => routeInsert (e, x) acc) []
    cand.take k

/-- The renormalised weights of a token's choices (R200). -/
def routeWeights (seed : Nat) (ch : List (Nat × Number)) : List Number :=
  match ch with
  | [] => []
  | (_, top) :: _ =>
    let e := ch.map fun x => vExp (fsub x.2 top)
    let t := sumVals seed e
    e.map fun v => fdiv v t

/-- What ROUTE TOPK has filled: per (slot + C × expert), token and weight with poison; the fill of each expert; drops. -/
structure RouteAcc where
  out : Map (Nat × Number × Bool) := []
  fill : Map Nat := []
  drops : Nat := 0

/-- One choice taken in slot order (R200). -/
def RouteAcc.take (x : RouteAcc) (cap t e : Nat) (w : Number) (pois : Bool) : RouteAcc :=
  let n := look 0 e x.fill
  if n < cap then { x with out := put (n + cap * e) (t, w, pois) x.out, fill := put e (n + 1) x.fill }
  else { x with drops := x.drops + 1 }

/-- The tokens' logits: E values each (R199). -/
def State.routeTokens (s : State) (c : Ctx) : List (List Val) := rowsOf (s.srcView c c.i.srcA) (s.readVec (s.srcView c c.i.srcA))

/-- Which logits of each token the read clamps (R130). -/
def State.routeBigs (s : State) (c : Ctx) : List (List Bool) :=
  pieces ((s.srcView c c.i.srcA).ext.getD 0 1) (s.bigs (s.srcView c c.i.srcA))

/-- The effect of ROUTE TOPK: the dispatch index, the gate weights where asked, and the counters (R200, R202, R208). -/
def routeTopkRun (c : Ctx) (s : State) : Effect :=
  let toks := s.routeTokens c
  let bigs := s.routeBigs c
  let k := c.i.imm % 16 + 1
  let cap := c.i.imm / 65536 % 65536
  let e := (toks.headD []).length
  let ch : List (Nat × Bool × List Nat × List Number) := toks.zipIdx.map fun (l, t) =>
    let x := routeChoice k (nums l)
    (t, anyPois l, x.map (·.1), routeWeights (s.seed c t) x)
  let acc := (List.range k).foldl (fun a rank =>
    ch.foldl (fun a (t, q, es, ws) =>
      match es[rank]?, ws[rank]? with
      | some ex, some w => RouteAcc.take a cap t ex w q
      | _, _ => a) a) ({} : RouteAcc)
  let slots := List.range (cap * e)
  let idx := slots.map fun j =>
    match find? j acc.out with
    | some (t, _, q) => (⟨.ofNat t, q⟩ : Val)
    | none => ⟨.ofInt (-1), false⟩
  let gate := slots.map fun j =>
    match find? j acc.out with
    | some (_, w, q) => (⟨w, q⟩ : Val)
    | none => Val.zero
  let bad := (toks.filter fun l => routeBad (nums l)).length
  let s := ((s.count 2 c.b 0 toks.length).count 2 c.b 1 acc.drops).count 2 c.b 2 bad
  let big := slots.map fun j =>
    match find? j acc.out with
    | some (t, _, _) => (bigs.getD t []).any id
    | none => false
  let r := s.writeDst c idx big
  if c.i.srcC.isT then
    let c2 := { c with i := { c.i with dst := c.i.srcC } }
    let g := r.s.writeDst c2 gate big
    ⟨g.s.noteDest c2, true, r.stat⟩
  else r

def execRouteTopk (f : Fire) (s : State) : Host.Outcome State Fault Refusal :=
  .next (s.fire f (fun i => i.op == opRoute && i.var == 1) routeTopkRun)

/-- The effect of ROUTE COUNT: the choices of each expert before capacity (R201, R202). -/
def routeCountRun (c : Ctx) (s : State) : Effect :=
  let toks := s.routeTokens c
  let k := c.i.imm % 16 + 1
  let e := (toks.headD []).length
  let all := toks.flatMap fun l => (routeChoice k (nums l)).map (·.1)
  let q := toks.any anyPois
  let out := (List.range e).map fun x => (⟨.ofNat (all.filter (· == x)).length, q⟩ : Val)
  s.writeDst c out ((List.range e).map fun x => (s.routeBigs c).any fun l => l.getD x false)

def execRouteCount (f : Fire) (s : State) : Host.Outcome State Fault Refusal :=
  .next (s.fire f (fun i => i.op == opRoute && i.var == 2) routeCountRun)

/-! ## QUANT and DEQUANT -/

/-- A tensor's values converted into another (R65, R74, R130). Into an unscaled format the conversion takes the decoded value as it is: one
beyond FP32 range saturates, or becomes infinity under OVF, and counts once (R74). -/
def convertRun (c : Ctx) (s : State) : Effect :=
  let v := s.srcView c c.i.srcA
  if (s.dstView c).d.bs = 0 then s.writeDst c (s.readView v) else s.writeDst c (s.readVec v) (s.bigs v)

def execQuant (f : Fire) (s : State) : Host.Outcome State Fault Refusal := .next (s.fire f (·.op == opQuant) convertRun)

def execDequant (f : Fire) (s : State) : Host.Outcome State Fault Refusal := .next (s.fire f (·.op == opDequant) convertRun)

/-! ## RNG -/

/-- The NORMAL result of element `i` (R143). -/
def normalOf (m : Stm) (mean dev : Number) (i : Nat) : Number :=
  let (u1, u2) := m.pair i
  let r := ((Number.ofInt (-2)).mul (Number.ln (.fin false u1 (-24)))).sqrt
  let x := mean.add (dev.mul ((if u1 = 2 ^ 24 then .zero else r).mul (turn (i % 2 == 1) u2)))
  match mean, dev with
  | .fin .., .fin .. => within 2 0x4002 [mean, dev, .ofNat u1, .ofNat u2, .ofNat (i % 2)] x
  | _, _ => x

/-- The effect of RNG (R141, R143). -/
def rngRun (c : Ctx) (s : State) : Effect :=
  let m : Stm := { key := s.streamKey c.i.srcC.stream, step := c.n, f := c.rep }
  let v := s.dstView c
  let n := v.count
  let s := s.count 1 c.b 8 (ceilDiv n 4)
  let u (i : Nat) : Number := .fin false (m.uniform i) (-24)
  let out := match c.i.var with
    | 0x01 => (List.range n).map fun i => (⟨u i, false⟩ : Val)
    | 0x02 => (List.range n).map fun i =>
        (⟨normalOf m (dec32 (c.i.imm % 2 ^ 32)) (dec32 (c.i.imm / 2 ^ 32 % 2 ^ 32)) i, false⟩ : Val)
    | _ =>
      let p := dec32 (c.i.imm % 2 ^ 32)
      (s.operand c c.i.srcA v.ext n).zipIdx.map fun (x, i) =>
        ⟨if (u i).lt p then fdiv x.num p else .fin x.num.sign 0 0, x.pois⟩
  s.writeDst c out (if c.i.var = 0x03 then s.operandBigs c [c.i.srcA] v.ext n else [])

def execRng (f : Fire) (s : State) : Host.Outcome State Fault Refusal := .next (s.fire f (·.op == opRng) rngRun)

/-! ## LOSS -/

/-- Softmax cross-entropy of a row against a label with smoothing: loss and gradient before the gradient scale (R132; the
arithmetic between the named steps is the model's, and a class of target 0 adds nothing to the loss, log 17). -/
def xentRow (seed : Nat → Nat) (smooth : Number) (z : List Number) (label : Nat) : Number × List Number :=
  let n := z.length
  let m := match z with | [] => .zero | a :: r => r.foldl Number.max a
  let d := z.map fun v => fsub v m
  let e := d.map vExp
  let t := sumVals (seed 0) e
  let lt := vLog t
  let off := fdiv smooth (.ofNat n)
  let hit := fadd (fsub (.ofNat 1) smooth) off
  let target (i : Nat) : Number := if i = label then hit else off
  let loss := sumAny (seed 1) (fun a (p : Number × Number) => ffma p.1 p.2 a)
    ((d.zipIdx.filter fun (p : Number × Nat) => !(target p.2).isZero).map fun (v, i) => (target i, fsub lt v))
  (loss, e.zipIdx.map fun (v, i) => fsub (fdiv v t) (target i))

/-- The effect of LOSS XENT: gradients, and the summed loss added into the slot (R132, R206, R207). An illegal label stops it before any row
is written (DESIGN CHOICE, log 160). -/
def xentRun (c : Ctx) (s : State) : Effect :=
  let src := s.srcView c c.i.srcA
  let rows := rowsOf src (s.readVec src)
  let w := src.ext.getD 0 1
  let labels := s.readIndex (s.srcView c c.i.srcB) w
  match firstBad labels with
  | some (pos, detail) => ⟨(s.count 2 c.b 5 (countPoisoned (labels.take pos))).indexFault c pos detail, false, {}⟩
  | none =>
    let smooth := dec32 (c.i.imm / 2 ^ 32 % 2 ^ 32)
    let gs := dec32 (c.i.imm % 2 ^ 32)
    let done : List (Option Val × List Val) := (rows.zip labels).zipIdx.map fun ((row, l), k) =>
      match l with
      | .at n =>
        if n < 0 then (none, row.map fun _ => Val.zero)
        else
          let (loss, g) := xentRow (fun j => s.seed c (2 * k + j)) smooth (nums row) n.toNat
          let q := anyPois row
          (some ⟨loss, q⟩, g.map fun v => (⟨fmul v gs, q⟩ : Val))
      | _ => (some ⟨.zero, true⟩, row.map fun v => (⟨v.num, true⟩ : Val))
    let losses := done.filterMap (·.1)
    let total := sumVals (s.seed c (2 * rows.length)) (nums losses)
    -- the logits of a row labelled -1 go no further
    let lost := ((rows.zip labels).map fun (row, l) => if l = .at (-1) then countPois row else 0).sum
    let s := (s.count 2 c.b 5 (countPoisoned labels)).discard c.b lost
    let old := s.slotVal c c.i.srcC.slot
    let s := s.setSlot c c.i.srcC.slot ⟨fadd old.num total, old.pois || anyPois losses⟩
    s.writeDst c (done.flatMap (·.2)) (s.bigs src)

/-- The effect of LOSS MSE: half the squared difference, its gradient the difference (R132, R133). -/
def mseRun (c : Ctx) (s : State) : Effect :=
  let v := s.dstView c
  let n := v.count
  let gs := dec32 (c.i.imm % 2 ^ 32)
  let as := s.operand c c.i.srcA v.ext n
  let bs := s.operand c c.i.srcB v.ext n
  let d := List.zipWith (Val.map2 fsub) as bs
  let half : Number := .pow2 (-1)
  let total := sumAny (s.seed c 0) (fun a x => ffma (fmul half x) x a) (nums d)
  let old := s.slotVal c c.i.srcC.slot
  let s := s.setSlot c c.i.srcC.slot ⟨fadd old.num total, old.pois || anyPois d⟩
  s.writeDst c (d.map (Val.map1 (fmul · gs))) (s.operandBigs c [c.i.srcA, c.i.srcB] v.ext n)

def lossRun (c : Ctx) (s : State) : Effect := if c.i.var = 1 then xentRun c s else mseRun c s

def execLoss (f : Fire) (s : State) : Host.Outcome State Fault Refusal := .next (s.fire f (·.op == opLoss) lossRun)

end Sys2Proof.Machine
end

