-- ==== Sys2Proof/Machine/Dispatch.lean ====
section
/-! DEFINITION. Dispatch: one arm for each command. -/

namespace Sys2Proof.Machine

def exec (i : Instr) (s : State) : Host.Outcome State Fault Refusal :=
  match i with
  | .mma f => Sys2Proof.Machine.execMma f s
  | .conv f => Sys2Proof.Machine.execConv f s
  | .vec f => Sys2Proof.Machine.execVec f s
  | .vecCopy f => Sys2Proof.Machine.execVecCopy f s
  | .norm f => Sys2Proof.Machine.execNorm f s
  | .softmax f => Sys2Proof.Machine.execSoftmax f s
  | .reduce f => Sys2Proof.Machine.execReduce f s
  | .gather f => Sys2Proof.Machine.execGather f s
  | .scatterAdd f => Sys2Proof.Machine.execScatterAdd f s
  | .routeTopk f => Sys2Proof.Machine.execRouteTopk f s
  | .routeCount f => Sys2Proof.Machine.execRouteCount f s
  | .quant f => Sys2Proof.Machine.execQuant f s
  | .dequant f => Sys2Proof.Machine.execDequant f s
  | .rng f => Sys2Proof.Machine.execRng f s
  | .loss f => Sys2Proof.Machine.execLoss f s
  | .send f => Sys2Proof.Machine.execSend f s
  | .recv f => Sys2Proof.Machine.execRecv f s
  | .sealLayer f => Sys2Proof.Machine.execSealLayer f s
  | .sealStep f => Sys2Proof.Machine.execSealStep f s
  | .layerSwitch blk => Sys2Proof.Machine.execLayerSwitch blk s
  | .prefetchComplete blk tensor => Sys2Proof.Machine.execPrefetchComplete blk tensor s
  | .tallyRecords region layer => Sys2Proof.Machine.execTallyRecords region layer s
  | .layerVerdict layer => Sys2Proof.Machine.execLayerVerdict layer s
  | .moduleStepSeal => Sys2Proof.Machine.execModuleStepSeal s
  | .stepVote => Sys2Proof.Machine.execStepVote s
  | .vote port m => Sys2Proof.Machine.execVote port m s
  | .verdict port m => Sys2Proof.Machine.execVerdict port m s
  | .formatChangeEffect => Sys2Proof.Machine.execFormatChangeEffect s
  | .queueSquash => Sys2Proof.Machine.execQueueSquash s
  | .updateShard region ups => Sys2Proof.Machine.execUpdateShard region ups s
  | .snapshotCopy ups => Sys2Proof.Machine.execSnapshotCopy ups s
  | .bucketFill layer chunk ups => Sys2Proof.Machine.execBucketFill layer chunk ups s
  | .head port m => Sys2Proof.Machine.execHead port m s
  | .grant port m => Sys2Proof.Machine.execGrant port m s
  | .grad port m => Sys2Proof.Machine.execGrad port m s
  | .ring port m => Sys2Proof.Machine.execRing port m s
  | .ringFinal port m => Sys2Proof.Machine.execRingFinal port m s
  | .param port m => Sys2Proof.Machine.execParam port m s
  | .badDroverMessage port m => Sys2Proof.Machine.execBadDroverMessage port m s
  | .fault port m => Sys2Proof.Machine.execFault port m s
  | .stop port m => Sys2Proof.Machine.execStop port m s
  | .automaticRestart => Sys2Proof.Machine.execAutomaticRestart s
  | .restart port m => Sys2Proof.Machine.execRestart port m s
  | .restartAck port m => Sys2Proof.Machine.execRestartAck port m s
  | .form port m => Sys2Proof.Machine.execForm port m s
  | .formAck port m => Sys2Proof.Machine.execFormAck port m s
  | .probe port m => Sys2Proof.Machine.execProbe port m s
  | .probeReply port m => Sys2Proof.Machine.execProbeReply port m s
  | .formed port m => Sys2Proof.Machine.execFormed port m s
  | .flockFormation => Sys2Proof.Machine.execFlockFormation s
  | .peerLost detail device => Sys2Proof.Machine.execPeerLost detail device s
  | .cellRequest queue who amount => Sys2Proof.Machine.execCellRequest queue who amount s
  | .cellGrant queue => Sys2Proof.Machine.execCellGrant queue s
  | .dataVisible queue => Sys2Proof.Machine.execDataVisible queue s
  | .queueReadTimeout queue => Sys2Proof.Machine.execQueueReadTimeout queue s
  | .egressForward queue ups => Sys2Proof.Machine.execEgressForward queue ups s
  | .deadlock => Sys2Proof.Machine.execDeadlock s
  | .pageMigration region page => Sys2Proof.Machine.execPageMigration region page s
  | .migrationComplete page ups => Sys2Proof.Machine.execMigrationComplete page ups s
  | .eviction => Sys2Proof.Machine.execEviction s
  | .migrationWatchdog page => Sys2Proof.Machine.execMigrationWatchdog page s
  | .memTemperatureRead ctl temp => Sys2Proof.Machine.execMemTemperatureRead ctl temp s
  | .memRefresh ctl bank => Sys2Proof.Machine.execMemRefresh ctl bank s
  | .flitBlock port bytes fecBad => Sys2Proof.Machine.execFlitBlock port bytes fecBad s
  | .nakResendTimer port => Sys2Proof.Machine.execNakResendTimer port s
  | .ackTimeout port => Sys2Proof.Machine.execAckTimeout port s
  | .fastRetrain port => Sys2Proof.Machine.execFastRetrain port s
  | .lossOfSignal port => Sys2Proof.Machine.execLossOfSignal port s
  | .signalDetect port => Sys2Proof.Machine.execSignalDetect port s
  | .helloTimer port => Sys2Proof.Machine.execHelloTimer port s
  | .hello port h => Sys2Proof.Machine.execHello port h s
  | .linkTrainingTimeout port => Sys2Proof.Machine.execLinkTrainingTimeout port s
  | .linkRetry port => Sys2Proof.Machine.execLinkRetry port s
  | .linkSleep port => Sys2Proof.Machine.execLinkSleep port s
  | .linkWake port => Sys2Proof.Machine.execLinkWake port s
  | .stopRequest port action device handle time => Sys2Proof.Machine.execStopRequest port action device handle time s
  | .pauseMarker port round device handle => Sys2Proof.Machine.execPauseMarker port round device handle s
  | .pauseRoundOne => Sys2Proof.Machine.execPauseRoundOne s
  | .openSession sess msg => Sys2Proof.Machine.execOpenSession sess msg s
  | .closeSession sess => Sys2Proof.Machine.execCloseSession sess s
  | .hciBadMessage sess msg => Sys2Proof.Machine.execHciBadMessage sess msg s
  | .identify c => Sys2Proof.Machine.execIdentify c s
  | .attest c => Sys2Proof.Machine.execAttest c s
  | .jobStart c => Sys2Proof.Machine.execJobStart c s
  | .jobPause c => Sys2Proof.Machine.execJobPause c s
  | .jobHalt c => Sys2Proof.Machine.execJobHalt c s
  | .jobResume c => Sys2Proof.Machine.execJobResume c s
  | .jobAbort c => Sys2Proof.Machine.execJobAbort c s
  | .snapshotTake c => Sys2Proof.Machine.execSnapshotTake c s
  | .snapshotWrite c => Sys2Proof.Machine.execSnapshotWrite c s
  | .snapshotShip c => Sys2Proof.Machine.execSnapshotShip c s
  | .snapshotChunk port src index count len crc data => Sys2Proof.Machine.execSnapshotChunk port src index count len crc data s
  | .powerState c => Sys2Proof.Machine.execPowerState c s
  | .readRegs c => Sys2Proof.Machine.execReadRegs c s
  | .writeRegs c => Sys2Proof.Machine.execWriteRegs c s
  | .countersRead c => Sys2Proof.Machine.execCountersRead c s
  | .traceArm c => Sys2Proof.Machine.execTraceArm c s
  | .traceRead c => Sys2Proof.Machine.execTraceRead c s
  | .energyReport c => Sys2Proof.Machine.execEnergyReport c s
  | .streamOpen c => Sys2Proof.Machine.execStreamOpen c s
  | .streamClose c => Sys2Proof.Machine.execStreamClose c s
  | .streamMessage sess stream data => Sys2Proof.Machine.execStreamMessage sess stream data s
  | .abortHandle c => Sys2Proof.Machine.execAbortHandle c s
  | .wake => Sys2Proof.Machine.execWake s
  | .railSample nj => Sys2Proof.Machine.execRailSample nj s
  | .intervalRecordTimer => Sys2Proof.Machine.execIntervalRecordTimer s
  | .recordSigned => Sys2Proof.Machine.execRecordSigned s
  | .chainHeadSave => Sys2Proof.Machine.execChainHeadSave s
  | .sign => Sys2Proof.Machine.execSign s
  | .clear => Sys2Proof.Machine.execClear s
  | .engFlkStageAppend value => Sys2Proof.Machine.execEngFlkStageAppend value s
  | .report code source context time => Sys2Proof.Machine.execReport code source context time s
  | .firstFaultWindow => Sys2Proof.Machine.execFirstFaultWindow s
  | .thermalTrip die temp => Sys2Proof.Machine.execThermalTrip die temp s
  | .dieOvertemperature die temp => Sys2Proof.Machine.execDieOvertemperature die temp s
  | .firmwareWatchdog => Sys2Proof.Machine.execFirmwareWatchdog s
  | .lockstepDivergence => Sys2Proof.Machine.execLockstepDivergence s
  | .identityTimeout => Sys2Proof.Machine.execIdentityTimeout s
  | .referenceClockLoss => Sys2Proof.Machine.execReferenceClockLoss s
  | .referenceClockReturn => Sys2Proof.Machine.execReferenceClockReturn s
  | .islandClockGate => Sys2Proof.Machine.execIslandClockGate s
  | .supplyDroop blk => Sys2Proof.Machine.execSupplyDroop blk s
  | .eventOverrun source line => Sys2Proof.Machine.execEventOverrun source line s
  | .meshFlitCrcFail blk => Sys2Proof.Machine.execMeshFlitCrcFail blk s
  | .ageingDue => Sys2Proof.Machine.execAgeingDue s
  | .ageingMeasurementEnd reads => Sys2Proof.Machine.execAgeingMeasurementEnd reads s
  | .now => Sys2Proof.Machine.execNow s
  | .summaryTimer => Sys2Proof.Machine.execSummaryTimer s
  | .traceRecord region r => Sys2Proof.Machine.execTraceRecord region r s
  | .traceTimeTrigger => Sys2Proof.Machine.execTraceTimeTrigger s
  | .traceFreeze region => Sys2Proof.Machine.execTraceFreeze region s
  | .force => Sys2Proof.Machine.execForce s
  | .disarm => Sys2Proof.Machine.execDisarm s
  | .periodicCapture => Sys2Proof.Machine.execPeriodicCapture s
  | .queDescSel region value => Sys2Proof.Machine.execQueDescSel region value s
  | .errLogPtrRd value => Sys2Proof.Machine.execErrLogPtrRd value s
  | .errFirstValidClear => Sys2Proof.Machine.execErrFirstValidClear s
  | .errLog0Read path => Sys2Proof.Machine.execErrLog0Read path s
  | .loRegisterRead path offset => Sys2Proof.Machine.execLoRegisterRead path offset s
  | .rcFieldRead path offset => Sys2Proof.Machine.execRcFieldRead path offset s
  | .glbCdcFlagsClear blk mask => Sys2Proof.Machine.execGlbCdcFlagsClear blk mask s
  | .registerWrite path offset value => Sys2Proof.Machine.execRegisterWrite path offset value s
  | .sidebandWrite count bytes pecOk => Sys2Proof.Machine.execSidebandWrite count bytes pecOk s
  | .sidebandRead count bytes => Sys2Proof.Machine.execSidebandRead count bytes s
  | .sidebandBlockRead count bytes => Sys2Proof.Machine.execSidebandBlockRead count bytes s
  | .sidebandRepeatRead count => Sys2Proof.Machine.execSidebandRepeatRead count s
  | .alertResponse => Sys2Proof.Machine.execAlertResponse s
  | .powerGoodRise straps resetHigh => Sys2Proof.Machine.execPowerGoodRise straps resetHigh s
  | .powerGoodFall => Sys2Proof.Machine.execPowerGoodFall s
  | .resetNRise env => Sys2Proof.Machine.execResetNRise env s
  | .resetNFall lowNs => Sys2Proof.Machine.execResetNFall lowNs s
  | .flashPassThrough image recovery eraseJournal => Sys2Proof.Machine.execFlashPassThrough image recovery eraseJournal s
  | .fecLock port => Sys2Proof.Machine.execFecLock port s
  | .retrainAttemptTimeout port => Sys2Proof.Machine.execRetrainAttemptTimeout port s
  | .linkWaitExpiry => Sys2Proof.Machine.execLinkWaitExpiry s
  | .opticalEngineOvertemperature port temp => Sys2Proof.Machine.execOpticalEngineOvertemperature port temp s
  | .bulkArgument sess tag rsv data => Sys2Proof.Machine.execBulkArgument sess tag rsv data s
  | .unlistedOpcode opcode c => Sys2Proof.Machine.execUnlistedOpcode opcode c s
  | .sidebandUnlistedCommand code => Sys2Proof.Machine.execSidebandUnlistedCommand code s

end Sys2Proof.Machine
end

