-- ==== Sys2Proof/Machine/Step.lean ====
section
/-! DEFINITION. One step: the command at the front of the queue, or the idle tick of the time base. -/

namespace Sys2Proof.Machine

/-- What a step does on an empty queue: while the module has power an entry into a power state that is in progress goes on (R430, log 78), and the
time base counts one unit of 1 ns (R11, R38; the unit of the idle step is a DESIGN CHOICE, log 6). -/
def idle (s : State) : State := if s.board.powerGood then s.entryOn.watch.tick else s

/-- Take the command at the front and run it on the state with the queue's rest. -/
def step (s : State) : Host.Outcome State Fault Refusal :=
  match s.pending with
  | [] => .next (idle s)
  | c :: rest => exec c { s with pending := rest }

/-- Put the command a word spells at the front of the queue; no word spells one (Decode.lean). -/
def State.withFetchWord (s : State) (nbits w : Nat) : State :=
  match decodeTableWord nbits w with
  | some c => { s with pending := c :: s.pending }
  | none => s

end Sys2Proof.Machine
end

