-- ==== Sys2Proof/Safety.lean ====
section
/-! DEFINITION. The terms in which statements speak: what a command sent, that the byte stores are in their one form, and what
every command but a few named ones leaves as it was. -/

namespace Sys2Proof.Machine

/-- A message that a command sent: it stands in the part of the log that the command added (log 2). -/
def Sent (o : Out) (s t : State) : Prop := ∃ l, t.out = l ++ s.out ∧ o ∈ l

/-- Every block store is in its canonical form. -/
def storesWf (m : Map Block) : Bool := m.all fun e => Memory.wf e.2.store

/-- Memory and every block store are in their canonical form. -/
def State.storesOk (s : State) : Bool := Memory.wf s.mem.data && storesWf s.blocks

/-- What every command leaves alone, but for those that statements name: the queue of waiting commands, the two image stores, the
SMBus address, the time base, what was sent before, and the canonical form of the byte stores. -/
structure Keeps (s t : State) : Prop where
  pending : t.pending = s.pending
  image : t.flash.image = s.flash.image
  recovery : t.flash.recovery = s.flash.recovery
  address : t.board.addr = s.board.addr
  time : t.board.time = s.board.time
  out : s.out <:+ t.out
  stores : s.storesOk = true → t.storesOk = true

/-- The parts of the state, but for the queue of waiting commands, which no command touches. -/
inductive Part where
  | board
  | glb
  | sb
  | cdc
  | flash
  | job
  | blocks
  | regions
  | queues
  | tensors
  | mem
  | gov
  | upd
  | drv
  | ports
  | lnkPorts
  | hci
  | pwr
  | eng
  | err
  | age
  | trc
  | stop
  | counters
  | clearTime
  | out
  | fresh
  deriving DecidableEq, Repr

/-- The states agree in a part. -/
def State.agree (s t : State) : Part → Prop
  | .board => t.board = s.board
  | .glb => t.glb = s.glb
  | .sb => t.sb = s.sb
  | .cdc => t.cdc = s.cdc
  | .flash => t.flash = s.flash
  | .job => t.job = s.job
  | .blocks => t.blocks = s.blocks
  | .regions => t.regions = s.regions
  | .queues => t.queues = s.queues
  | .tensors => t.tensors = s.tensors
  | .mem => t.mem = s.mem
  | .gov => t.gov = s.gov
  | .upd => t.upd = s.upd
  | .drv => t.drv = s.drv
  | .ports => t.ports = s.ports
  | .lnkPorts => t.lnkPorts = s.lnkPorts
  | .hci => t.hci = s.hci
  | .pwr => t.pwr = s.pwr
  | .eng => t.eng = s.eng
  | .err => t.err = s.err
  | .age => t.age = s.age
  | .trc => t.trc = s.trc
  | .stop => t.stop = s.stop
  | .counters => t.counters = s.counters
  | .clearTime => t.clearTime = s.clearTime
  | .out => t.out = s.out
  | .fresh => t.fresh = s.fresh

/-- The frame: nothing but the parts listed differs. -/
structure Same (l : List Part) (s t : State) : Prop where
  pending : t.pending = s.pending
  parts : ∀ p, p ∉ l → s.agree t p

/-- Whether a Drover message that arrives on a port reaches the meaning of its type here: the port delivers, the module is not halted, and
the message is none that R300, R302, R303 or R324 turns away. -/
def State.accepts (s : State) (port : Nat) (m : DMsg) (type : Nat) : Bool :=
  m.type == type && s.portUp port && !s.glb.halted && !s.badMsg m && (m.mcast || m.dst == s.drv.device) && payloadOk m && !s.stale m

/-- A Drover message of this module, completed and on its way by ROUTES. -/
def State.posted (s : State) (m : DMsg) : Out := .drover (s.route m.dst) (laneOf m) (s.dmsg m)

/-- A command of the control port that the module accepts, in a role and a module state that permit it: the state after its acknowledgement,
and its handle (R408, R413, R414, R416). -/
def State.admitted (s : State) (c : Cmd) (opcode : Nat) : Option (State × Hnd) :=
  match (s.taken 32 (cmdBytes opcode c)).accept c opcode with
  | (u, some h) =>
    if s.hostUp && c.sess < 64 && ((u.sess c.sess).oper || observerMay opcode) && u.admits opcode then some (u, h) else none
  | _ => none

/-- The completion that a handle's session receives (R407). -/
def Hnd.completion (h : Hnd) (status : Nat) (result : List Byte) (refuser fault time : Nat) : Out :=
  .completion { sess := h.sess, status := status, opcode := h.opcode, refuser := refuser, handle := h.handle, tag := h.tag, fault := fault,
                accepted := h.accepted, completed := time, result := result }

/-- A handle's command has completed now. -/
def Completed (h : Hnd) (status : Nat) (result : List Byte) (s t : State) : Prop := Sent (h.completion status result 0 0 s.now) s t

/-- Data is sent for a command: every message, and the completion with its result as soon as no block of the data waits (R409). -/
def DataSent (u : State) (h : Hnd) (vc : Nat) (l : List (List Byte)) (result : List Byte) (s t : State) : Prop :=
  let v := (u.setHnd { h with sending := some (32, 2 * vc), result := result }).sendOwned h.handle 32 (2 * vc) (l.map fun m => .bulk h.sess vc m)
  (∀ m ∈ l, Sent (.bulk h.sess vc m) s t) ∧ (v.unsent 32 h.handle = false → Completed h stDone result s t)

/-- The job commands and the others of the control port, with their opcodes (R418). -/
def hostCommands (ups : Upsets) : List ((Cmd → Instr) × Nat) :=
  [(.identify, 0x01), (.attest, 0x02), (fun c => .jobStart ⟨c, ups⟩, 0x10), (.jobPause, 0x11), (.jobHalt, 0x12), (.jobResume, 0x13), (.jobAbort, 0x14),
   (fun c => .snapshotShip ⟨c, ups⟩, 0x21), (.powerState, 0x30), (.readRegs, 0x40), (.writeRegs, 0x41), (.countersRead, 0x50), (.traceArm, 0x51),
   (.traceRead, 0x52), (.energyReport, 0x60), (.streamOpen, 0x70), (.streamClose, 0x71), (.abortHandle, 0x7F)]

/-- The parts that a command may change; nothing else differs after it. `fresh` is the model's own count of free values, and `out` its log
of what was sent. -/
def touches : Instr → List Part
  | .mma _ | .conv _ | .vec _ | .vecCopy _ | .norm _ | .softmax _ | .reduce _ | .gather _ | .scatterAdd _ | .routeTopk _ |
  .routeCount _ | .quant _ | .dequant _ | .rng _ | .loss _ | .send _ | .recv _ =>
    [.glb, .flash, .blocks, .regions, .queues, .tensors, .mem, .ports, .hci, .eng, .err, .age, .trc, .counters, .out, .fresh]
  | .sealLayer _ =>
    [.glb, .flash, .blocks, .regions, .ports, .hci, .eng, .err, .age, .trc, .counters, .out, .fresh]
  | .sealStep _ =>
    [.glb, .flash, .blocks, .regions, .queues, .tensors, .ports, .hci, .eng, .err, .age, .trc, .counters, .out, .fresh]
  | .layerSwitch _ | .supplyDroop _ =>
    [.blocks]
  | .prefetchComplete _ _ =>
    [.flash, .blocks, .regions, .tensors, .mem, .err, .trc, .counters, .fresh]
  | .tallyRecords _ _ | .traceFreeze _ =>
    [.regions]
  | .layerVerdict _ =>
    [.blocks, .regions, .queues, .tensors, .mem, .gov, .trc, .counters, .fresh]
  | .moduleStepSeal =>
    [.regions, .gov, .eng, .age, .trc, .counters]
  | .stepVote =>
    [.flash, .blocks, .regions, .queues, .tensors, .gov, .upd, .drv, .ports, .eng, .err, .trc, .counters, .out, .fresh]
  | .vote _ _ | .verdict _ _ =>
    [.flash, .blocks, .regions, .queues, .tensors, .gov, .upd, .drv, .ports, .hci, .eng, .err, .trc, .counters, .out, .fresh]
  | .formatChangeEffect =>
    [.flash, .regions, .tensors, .gov]
  | .queueSquash =>
    [.blocks, .regions, .queues, .tensors, .mem, .gov, .counters]
  | .updateShard _ _ =>
    [.flash, .blocks, .regions, .tensors, .mem, .gov, .upd, .drv, .ports, .err, .trc, .counters, .out, .fresh]
  | .snapshotCopy _ | .snapshotShip _ =>
    [.flash, .regions, .mem, .upd, .ports, .hci, .eng, .err, .trc, .counters, .out, .fresh]
  | .bucketFill _ _ _ =>
    [.flash, .blocks, .regions, .gov, .drv, .ports, .err, .trc, .counters, .out, .fresh]
  | .head _ _ | .form _ _ | .probe _ _ =>
    [.flash, .regions, .drv, .ports, .hci, .err, .trc, .counters, .out, .fresh]
  | .grant _ _ | .grad _ _ | .ring _ _ | .ringFinal _ _ | .param _ _ =>
    [.flash, .blocks, .regions, .tensors, .mem, .upd, .drv, .ports, .hci, .err, .trc, .counters, .out, .fresh]
  | .badDroverMessage _ _ =>
    [.flash, .regions, .drv, .ports, .hci, .err, .trc, .counters, .fresh]
  | .fault _ _ | .stop _ _ | .restartAck _ _ =>
    [.glb, .flash, .regions, .upd, .drv, .ports, .hci, .eng, .err, .age, .trc, .stop, .counters, .out, .fresh]
  | .automaticRestart | .restart _ _ =>
    [.glb, .cdc, .flash, .blocks, .regions, .queues, .tensors, .mem, .gov, .upd, .drv, .ports, .hci, .eng, .err, .age, .trc,
     .stop, .counters, .out, .fresh]
  | .formAck _ _ | .probeReply _ _ | .formed _ _ =>
    [.glb, .flash, .regions, .drv, .ports, .hci, .eng, .err, .age, .trc, .counters, .out, .fresh]
  | .flockFormation | .peerLost _ _ =>
    [.glb, .flash, .regions, .drv, .ports, .eng, .err, .age, .trc, .counters, .out, .fresh]
  | .cellRequest _ _ _ =>
    [.queues]
  | .cellGrant _ =>
    [.regions, .queues, .drv, .ports, .hci, .trc, .counters, .out, .fresh]
  | .dataVisible _ =>
    [.regions, .queues, .ports, .hci, .eng, .trc, .counters, .out]
  | .queueReadTimeout _ =>
    [.regions, .queues, .trc, .counters]
  | .egressForward _ _ =>
    [.flash, .regions, .queues, .ports, .err, .trc, .counters, .out, .fresh]
  | .deadlock | .dieOvertemperature _ _ | .firmwareWatchdog | .lockstepDivergence | .identityTimeout | .meshFlitCrcFail _ |
  .opticalEngineOvertemperature _ _ =>
    [.flash, .regions, .err, .trc, .counters, .fresh]
  | .pageMigration _ _ =>
    [.mem, .counters]
  | .migrationComplete _ _ =>
    [.glb, .flash, .blocks, .regions, .queues, .tensors, .mem, .gov, .upd, .drv, .ports, .hci, .eng, .err, .age, .trc,
     .counters, .out, .fresh]
  | .eviction | .memRefresh _ _ =>
    [.mem]
  | .migrationWatchdog _ | .memTemperatureRead _ _ =>
    [.flash, .regions, .mem, .err, .trc, .counters, .fresh]
  | .flitBlock _ _ _ | .ackTimeout _ | .fastRetrain _ | .hello _ _ | .linkTrainingTimeout _ | .retrainAttemptTimeout _ =>
    [.flash, .regions, .ports, .hci, .eng, .err, .trc, .counters, .out, .fresh]
  | .nakResendTimer _ | .helloTimer _ | .linkWake _ | .alertResponse | .fecLock _ =>
    [.ports, .counters, .out]
  | .lossOfSignal _ =>
    [.ports, .counters]
  | .signalDetect _ | .linkRetry _ | .linkSleep _ =>
    [.ports]
  | .stopRequest _ _ _ _ _ | .jobPause _ | .jobHalt _ | .jobResume _ =>
    [.glb, .flash, .blocks, .regions, .queues, .tensors, .mem, .gov, .upd, .drv, .ports, .hci, .eng, .err, .age, .trc, .stop,
     .counters, .out, .fresh]
  | .pauseMarker _ _ _ _ =>
    [.glb, .regions, .queues, .ports, .hci, .eng, .age, .trc, .stop, .counters, .out]
  | .pauseRoundOne =>
    [.glb, .regions, .ports, .hci, .eng, .age, .trc, .stop, .counters, .out]
  | .openSession _ _ | .unlistedOpcode _ _ =>
    [.ports, .hci, .counters, .out]
  | .closeSession _ | .identify _ | .attest _ | .traceRead _ | .energyReport _ | .streamOpen _ | .streamClose _ =>
    [.ports, .hci, .eng, .counters, .out]
  | .hciBadMessage _ _ =>
    [.ports, .hci]
  | .jobStart _ =>
    [.glb, .flash, .blocks, .regions, .queues, .tensors, .mem, .gov, .upd, .drv, .ports, .hci, .eng, .err, .trc, .counters,
     .out, .fresh]
  | .jobAbort _ =>
    [.glb, .regions, .queues, .gov, .upd, .drv, .ports, .hci, .eng, .err, .age, .stop, .counters, .out]
  | .snapshotTake _ | .snapshotWrite _ =>
    [.upd, .ports, .hci, .eng, .counters, .out]
  | .snapshotChunk _ _ _ _ _ _ _ =>
    [.flash, .regions, .mem, .upd, .ports, .hci, .err, .trc, .counters, .out, .fresh]
  | .powerState _ =>
    [.cdc, .flash, .job, .blocks, .regions, .queues, .tensors, .mem, .gov, .upd, .drv, .ports, .hci, .pwr, .eng, .age, .trc,
     .stop, .counters, .out, .fresh]
  | .readRegs _ | .sidebandRead _ _ | .sidebandBlockRead _ _ =>
    [.sb, .cdc, .blocks, .regions, .drv, .ports, .hci, .pwr, .eng, .err, .counters, .out, .fresh]
  | .writeRegs _ =>
    [.glb, .cdc, .flash, .job, .blocks, .regions, .queues, .tensors, .mem, .gov, .drv, .ports, .hci, .pwr, .eng, .err, .age,
     .trc, .counters, .clearTime, .out, .fresh]
  | .countersRead _ =>
    [.cdc, .blocks, .mem, .ports, .hci, .eng, .counters, .out]
  | .traceArm _ =>
    [.regions, .ports, .hci, .eng, .trc, .counters, .out]
  | .streamMessage _ _ _ =>
    [.ports, .hci, .counters]
  | .abortHandle _ =>
    [.glb, .flash, .blocks, .regions, .queues, .tensors, .mem, .gov, .upd, .drv, .ports, .hci, .pwr, .eng, .err, .age, .trc,
     .stop, .counters, .out, .fresh]
  | .wake | .registerWrite _ _ _ | .sidebandWrite _ _ _ =>
    [.glb, .sb, .cdc, .flash, .job, .blocks, .regions, .queues, .tensors, .mem, .gov, .upd, .drv, .ports, .hci, .pwr, .eng,
     .err, .age, .trc, .stop, .counters, .clearTime, .out, .fresh]
  | .railSample _ =>
    [.hci, .eng, .age]
  | .intervalRecordTimer | .recordSigned =>
    [.eng]
  | .chainHeadSave =>
    [.flash, .eng]
  | .sign | .clear | .engFlkStageAppend _ =>
    [.sb, .eng]
  | .report _ _ _ _ =>
    [.flash, .regions, .queues, .err, .trc, .counters]
  | .firstFaultWindow =>
    [.glb, .flash, .regions, .upd, .drv, .ports, .hci, .eng, .err, .age, .trc, .stop, .counters, .out]
  | .thermalTrip _ _ =>
    [.board, .glb, .flash, .blocks, .regions, .mem, .upd, .ports, .hci, .pwr, .eng, .err, .trc, .counters, .out, .fresh]
  | .referenceClockLoss =>
    [.board, .flash, .regions, .err, .trc, .counters, .fresh]
  | .referenceClockReturn =>
    [.board, .blocks, .mem]
  | .islandClockGate =>
    [.board, .blocks, .mem, .counters]
  | .eventOverrun _ _ =>
    [.cdc, .flash, .regions, .hci, .eng, .err, .trc, .counters, .fresh]
  | .ageingDue =>
    [.age]
  | .ageingMeasurementEnd _ =>
    [.flash, .blocks, .regions, .mem, .err, .age, .trc, .counters, .fresh]
  | .now =>
    [.sb, .age]
  | .summaryTimer =>
    [.flash, .age]
  | .traceRecord _ _ | .traceTimeTrigger =>
    [.regions, .trc, .counters]
  | .force =>
    [.sb, .regions, .trc, .counters]
  | .disarm | .queDescSel _ _ =>
    [.sb, .regions]
  | .periodicCapture =>
    [.cdc, .blocks, .regions, .mem, .trc, .counters]
  | .errLogPtrRd _ =>
    [.err]
  | .errFirstValidClear =>
    [.sb, .err]
  | .errLog0Read _ | .loRegisterRead _ _ | .rcFieldRead _ _ =>
    [.sb, .cdc, .blocks, .regions, .drv, .hci, .pwr, .eng, .err, .fresh]
  | .glbCdcFlagsClear _ _ =>
    [.sb, .cdc]
  | .sidebandRepeatRead _ | .sidebandUnlistedCommand _ =>
    [.sb, .ports, .counters, .out]
  | .powerGoodRise _ _ =>
    [.board, .glb, .sb, .cdc, .flash, .job, .blocks, .regions, .queues, .tensors, .mem, .gov, .upd, .drv, .ports, .lnkPorts,
     .hci, .pwr, .eng, .err, .age, .trc, .stop, .counters, .clearTime]
  | .powerGoodFall =>
    [.board, .glb, .sb, .cdc, .job, .blocks, .regions, .queues, .tensors, .mem, .gov, .upd, .drv, .ports, .lnkPorts, .hci,
     .pwr, .eng, .err, .age, .trc, .stop, .counters, .clearTime]
  | .resetNRise _ =>
    [.board, .glb, .cdc, .flash, .job, .blocks, .regions, .queues, .tensors, .mem, .gov, .drv, .ports, .lnkPorts, .hci, .eng,
     .err, .age, .trc, .counters, .out, .fresh]
  | .resetNFall _ =>
    [.board, .glb, .cdc, .job, .blocks, .regions, .queues, .tensors, .mem, .gov, .upd, .drv, .ports, .lnkPorts, .hci, .pwr,
     .eng, .err, .age, .trc, .stop, .counters, .out, .fresh]
  | .flashPassThrough _ _ _ =>
    [.board, .flash, .ports, .counters, .out]
  | .linkWaitExpiry =>
    [.glb, .flash, .regions, .ports, .eng, .err, .age, .counters, .out, .fresh]
  | .bulkArgument _ _ _ _ =>
    [.glb, .flash, .regions, .mem, .upd, .ports, .hci, .eng, .err, .trc, .counters, .out, .fresh]

end Sys2Proof.Machine
end

