-- ==== Sys2Proof/Certificates/Slice0/Obligations.lean ====
section
/-! DEFINITION. The statements for the provers, one definition each. Each docstring names the rule of the spec or the section it
rests on. -/

open Sys2Proof Sys2Proof.Machine

/-! ## The queue of commands, the tick and reset -/

/-- A step runs the command at the front of the queue (95_what_each_step_holds). For every state s whose queue of waiting commands is c
followed by rest, step s is exec of c on s with rest as its queue: nothing is added around exec. -/
def Obligations.StepRunsFront : Prop :=
  ∀ (c : Instr) (rest : List Instr) (s : State), s.pending = c :: rest → step s = exec c { s with pending := rest }

/-- A step on an empty queue lets 1 ns pass while input power is good (R38, R11, R238). On an empty queue the step answers a next
state. While input power is good and no entry into a power state is in progress the 64-bit time base then reads one more; what is kept
of waiting stages is brought up to date in region 0 (a stage that waits keeps the time since when it does), and nothing else changes
but what State.tick does; an entry in progress goes on first (log 78); without power nothing changes. That the idle step is 1 ns is the
model's choice (log 6). -/
def Obligations.IdleStepTicks : Prop :=
  ∀ s : State, s.pending = [] →
    (s.board.powerGood = true → s.pwr.busy = true → step s = .next s.entryOn.watch.tick) ∧
    (s.board.powerGood = true → s.pwr.busy = false → let w := s.watch; step s = .next w.tick ∧
      w.tick.board = { s.board with time := (s.board.time + 1) % 2 ^ 64 } ∧ w.tick.pending = [] ∧ w.tick.flash.image = s.flash.image ∧
      w.tick.out = s.out ∧ w = { s with regions := w.regions } ∧ (∀ r, r ≠ 0 → w.rgn r = s.rgn r) ∧
      w.rgn 0 = { s.rgn 0 with wdogFrom := (w.rgn 0).wdogFrom, waits := (w.rgn 0).waits } ∧
      (s.glb.mstate = .running → ∀ x ∈ s.stuck, w.waitsSince x = s.waitsSince x)) ∧
    (s.board.powerGood = false → step s = .next s)

/-- The module before power good: OFF, nothing waiting, no fault, no job (R399, R406, R454, R511). At State.reset the module is OFF
without power, the queue of commands is empty, the start-up order reads 1, the first-fault latch and the log ring are empty, no job is
loaded, no session is open, memory lists nothing and every counter reads 0. The board address 0x5F and the empty flash stores are the
model's choices (logs 3 and 4). -/
def Obligations.ResetValues : Prop :=
  let s := State.reset
  s.glb.mstate = .off ∧ s.board.powerGood = false ∧ s.pending = [] ∧ s.glb.order = 1 ∧ s.glb.failed = false ∧ s.err.valid = false ∧
  s.err.unread = 0 ∧ s.job.loaded = false ∧ s.hci.sessions = [] ∧ s.mem.data = [] ∧ s.pwr.state = 0 ∧ s.board.time = 0 ∧
  s.board.addr = 0x5F ∧ s.flash.image = [] ∧ ∀ g i x, s.ctr g i x = 0

/-- Memory and every block store are in canonical form at reset (R33, R332, R399). At State.reset memory and every block store list
their bytes at strictly rising addresses, with no entry equal to what an unlisted address reads as. What an unlisted address reads as,
0, is the model's choice (log 5). -/
def Obligations.ResetStoresCanonical : Prop :=
  State.reset.storesOk = true

/-- Every step keeps memory and every block store in canonical form (R33, R332, 95_what_each_step_holds). For every state s in which
memory and all block stores are in canonical form (addresses strictly rising, no entry equal to what an unlisted address reads as), and
every next state t that a step answers, with any command of the table at the front of the queue or none, memory and all block stores of
t are in canonical form. So equal memories stay equal data. -/
def Obligations.EveryStepKeepsStores : Prop :=
  ∀ s t : State, s.storesOk = true → step s = .next t → t.storesOk = true

/-- No command of the table faults or is refused (95_what_each_step_holds). For every command and every state exec answers a next
state: no command of the table stops the model with a fault or a refusal, whatever its operands and whatever the state. (A command
whose preconditions do not hold changes nothing, log 9.) -/
def Obligations.EveryCommandAnswers : Prop :=
  ∀ (c : Instr) (s : State), ∃ t, exec c s = .next t

/-- No command changes the queue of waiting commands or takes back a message sent (95_what_each_step_holds). For every command c and
every next state t of exec c s: the queue of waiting commands is as before, and what the module had sent before is still the older part
of its log of sent messages. -/
def Obligations.CommandsKeepTheQueue : Prop :=
  ∀ (c : Instr) (s t : State), exec c s = .next t → t.pending = s.pending ∧ s.out <:+ t.out

/-- Only the carrier's pass-through changes the image stores (R378, R379). For every command but FLASH_PASS_THROUGH, the image and the
recovery image of the flash devices are unchanged: the module never writes the image store. FLASH_PASS_THROUGH, while power is good and
RESET_N low, raises FLASH_HOST and stores exactly the images given; it empties the lifetime records and their segments where it erases
the journal store and keeps the journal otherwise, and, where it reads nothing out, changes nothing outside the flash devices and the
pins. A read delivers the bytes asked for of the image store or the journal store as they then stand. -/
def Obligations.ImageStoreChangesOnlyFromHost : Prop :=
  (∀ (c : Instr) (s t : State), (∀ i r e, c ≠ .flashPassThrough i r e) → exec c s = .next t →
      t.flash.image = s.flash.image ∧ t.flash.recovery = s.flash.recovery) ∧
  ∀ (image recovery : Option (List Byte)) (e : Bool) (read : Option (Nat × Nat × Nat)) (s : State), s.board.powerGood = true →
    s.board.resetN = false →
    ∃ t, exec (.flashPassThrough image recovery ⟨e, read⟩) s = .next t ∧ t.flash.image = image.getD s.flash.image ∧
      t.flash.recovery = recovery.getD s.flash.recovery ∧ t.board.flashHost = true ∧
      (e = true → t.flash.life = [] ∧ t.flash.lifeHeads = []) ∧
      (e = false → t.flash = { s.flash with image := t.flash.image, recovery := t.flash.recovery }) ∧
      (read = none → t = { s with board := t.board, flash := t.flash }) ∧
      ∀ dev at' n, read = some (dev, at', n) → Sent (.flash (t.flash.readOut dev at' n)) s t

/-- Only power good rising or falling restarts the time base or sets the address (R11, R38, R523). Neither the time base nor the SMBus
address changes through any command but POWER_GOOD_RISE and POWER_GOOD_FALL. At POWER_GOOD_RISE the time base reads 0, the address is
0x58 plus the three straps, and the module is OFF with no job, an empty error log and memory that lists nothing; the flash devices keep
what they hold. POWER_GOOD_FALL leaves the module without power, OFF, with only the flash devices keeping what they held. -/
def Obligations.TimeBaseRestartsOnlyWithPower : Prop :=
  (∀ (c : Instr) (s t : State), (∀ a h, c ≠ .powerGoodRise a h) → (c ≠ .powerGoodFall) → exec c s = .next t →
      t.board.time = s.board.time ∧ t.board.addr = s.board.addr) ∧
  (∀ (a : Nat) (h : Bool) (s : State), s.board.powerGood = false →
    ∃ t, exec (.powerGoodRise a h) s = .next t ∧ t.board.time = 0 ∧ t.board.powerGood = true ∧ t.board.addr = 0x58 + a % 8 ∧
      t.board.resetN = h ∧ t.glb.mstate = .off ∧ t.job.loaded = false ∧ t.err.unread = 0 ∧ t.err.valid = false ∧ t.mem.data = [] ∧
      t.flash.image = s.flash.image ∧ t.flash.life = s.flash.life ∧ t.flash.trims = s.flash.trims)
  ∧ ∀ s : State, s.board.powerGood = true →
    ∃ t, exec .powerGoodFall s = .next t ∧ t.board.powerGood = false ∧ t.glb.mstate = .off ∧ t.job.loaded = false ∧ t.mem.data = [] ∧
      t.flash = s.flash

/-! ## Encodings -/

/-- A flit block read back from its 512 bytes is the block (R355, R357). For every flit block whose fields fit their widths (kind 8
bits, sequence, ack and management 16, at most four credit returns of lane 2, VC 5 and count 8 bits, lane and VC 1 and 5 bits and both
0 on a management lane, session 6 bits, at most 488 payload bytes; the three fields by which the model knows a waiting block again,
which no wire carries, unset), its encoding takes exactly 512 bytes and reading it gives every field back. -/
def Obligations.FlitBlockRoundTrip : Prop :=
  ∀ f : Flit, f.kind < 256 → f.seq < 65536 → f.ack < 65536 → f.mgmt < 65536 → f.credits.length ≤ 4 →
    (∀ c ∈ f.credits, c.1 < 4 ∧ c.2.1 < 32 ∧ c.2.2 < 256) → f.lane < 2 → f.vc < 32 → (f.mgmt % 2 = 1 → f.lane = 0 ∧ f.vc = 0) →
    f.sess < 64 → f.payload.length ≤ 488 → f.via = 0 → f.rx = none → f.own = 0 → f.bytes.length = 512 ∧ readFlit f.bytes = f

/-- Every element pattern decodes to a number that encodes to the same pattern (R48, R49, R50, R51, R52). For each of the eleven
element formats, scaled or not (FP32 only unscaled), every bit pattern of the format's width that is no NaN decodes to a number whose
encoding is the same pattern, signed zeros and subnormals included. A NaN pattern decodes to NaN, whose encoding is the canonical NaN
of R52. -/
def Obligations.ElementRoundTrip : Prop :=
  ∀ (code : Nat) (scaled : Bool) (w : Nat), code < 11 → (scaled = true → code ≠ FP32) → w < 2 ^ widthOf code →
    (decodeElem code scaled w).isNan = false ∧ encodeElem code scaled (decodeElem code scaled w) = w ∨
    (decodeElem code scaled w).isNan = true ∧ encodeElem code scaled (decodeElem code scaled w) = nanBits code

/-- A message cut into flit blocks is its payloads joined, with its first and last block marked (R357). For every message, the blocks
that carry it hold at most 488 payload bytes each and at least one block is sent; their payloads joined in order are the message;
exactly the first block has start of message and exactly the last has end of message. -/
def Obligations.MessageCutRejoins : Prop :=
  ∀ (proto : Flit) (bytes : List Byte), let l := cutBlocks proto bytes
    l ≠ [] ∧ l.flatMap (·.payload) = bytes ∧ (∀ f ∈ l, f.payload.length ≤ 488 ∧ f.kind = proto.kind ∧ f.key = proto.key ∧ f.sess = proto.sess) ∧
    ∀ k (h : k < l.length), (l[k].som = true ↔ k = 0) ∧ (l[k].eom = true ↔ k + 1 = l.length)

/-! ## The frame of every command -/

/-- What each command may change, and that nothing else differs after it (95_what_each_step_holds, R416). For every command c and every
next state t of exec c s: the queue of waiting commands is as before, and every part of the state that the table
Sys2Proof.Machine.touches does not list for c is as before. The table has one list for each of the 159 commands (a LAYER_SWITCH changes
only blocks, a MEM_REFRESH only memory, a VEC nothing of the job, the governor, the update engine, Drover, power, pins or the register
map, and so on). -/
def Obligations.EveryCommandFrame : Prop :=
  ∀ (c : Instr) (s t : State), exec c s = .next t → Same (touches c) s t

/-! ## Block instructions -/

/-- MMA, CONV, VEC, NORM, SOFTMAX, REDUCE, ROUTE, QUANT, DEQUANT and RNG complete when they may fire (R134, R120, R150, R253). For
every firing whose position holds an instruction of the operation and for which the conditions of R134 hold: where no operand or
destination element lies outside its allocation, exec answers a next state in which that position of the stage is completed and its
destination tensor holds data; where one does, the job fault DESC_BOUNDS of R253 is raised and nothing is written. LOSS, SEND and RECV
fault in the same way; how they and the transfers complete other statements say. -/
def Obligations.ComputingFiresComplete : Prop :=
  ∀ (s : State) (f : Fire) (c : Ctx), s.ctx? f = some c → s.mayFire c = true →
    ∀ i, (i = Instr.mma f ∧ c.i.op = opMma ∨ i = .conv f ∧ c.i.op = opConv ∨ i = .vec f ∧ c.i.op = opVec ∧ c.i.var ≠ 0 ∨
          i = .norm f ∧ c.i.op = opNorm ∨ i = .softmax f ∧ c.i.op = opSoftmax ∨ i = .reduce f ∧ c.i.op = opReduce ∨
          i = .routeTopk f ∧ c.i.op = opRoute ∧ c.i.var = 1 ∨ i = .routeCount f ∧ c.i.op = opRoute ∧ c.i.var = 2 ∨
          i = .quant f ∧ c.i.op = opQuant ∨ i = .dequant f ∧ c.i.op = opDequant ∨ i = .rng f ∧ c.i.op = opRng ∨
          i = .loss f ∧ c.i.op = opLoss ∨ i = .send f ∧ c.i.isSend = true ∨ i = .recv f ∧ c.i.isRecv = true) →
      let s₁ := (s.startFire c).eccUpsets c.b f.ups
      (s₁.strays c = none → i ≠ .loss f → i ≠ .send f → i ≠ .recv f → ∃ t, exec i s = .next t ∧ (t.run c.b c.g.idx).done c.p = true ∧
        (c.i.dst.isT = true → (t.ten (s.tref c.i.dst c.rep c.n).t).holds = true)) ∧
      ∀ y d, s₁.strays c = some (y, d) → exec i s = .next (raise s₁ (faultCode 1 DESC_BOUNDS d) (srcBlock c.b) y)

/-- LOSS completes unless a label is illegal, and then reports INDEX and does not complete (R132, R206, R207, R134). For a LOSS that
may fire and none of whose operands lies outside its allocation: MSE completes; XENT completes when no label is illegal, and where one
is, the job fault INDEX is reported with the position of the first one, after the poisoned labels before it are counted, and the
instruction's position stays as it was. Read labels are those of the state after the firing's start. -/
def Obligations.LossCompletesOrFaultsOnItsLabels : Prop :=
  ∀ (s : State) (f : Fire) (c : Ctx), s.ctx? f = some c → s.mayFire c = true → c.i.op = opLoss →
    let s₁ := (s.startFire c).eccUpsets c.b f.ups
    let labels := s₁.readIndex (s₁.srcView c c.i.srcB) ((s₁.srcView c c.i.srcA).ext.getD 0 1)
    s₁.strays c = none →
    (c.i.var ≠ 1 ∨ firstBad labels = none → ∃ t, exec (.loss f) s = .next t ∧ (t.run c.b c.g.idx).done c.p = true) ∧
    (∀ pos detail, c.i.var = 1 → firstBad labels = some (pos, detail) →
      let t := (s₁.count 2 c.b 5 (countPoisoned (labels.take pos))).indexFault c pos detail
      exec (.loss f) s = .next t ∧ (t.run c.b c.g.idx).oldest = (s.run c.b c.g.idx).oldest)

/-- VEC COPY, GATHER and SCATTER_ADD complete when no delivery unit is barred (R134, R265, R266, R206, R253). For a transfer that may
fire, whose destination can take the layout that waits for it, and of whose delivery units from its cursor on (those of the state after
the firing's start, with that layout taken) none is barred by a page not resident, a fetch or write exhausted, an illegal index or a
bound: exec answers a next state in which the position is completed. A block that the units cover wholly is not read first. -/
def Obligations.TransfersComplete : Prop :=
  ∀ (s : State) (f : Fire) (c : Ctx), s.ctx? f = some c → s.mayFire c = true →
    let s₁ := (s.startFire c).eccUpsets c.b f.ups
    let d := (s₁.tref c.i.dst c.rep c.n).t
    let s₂ := s₁.settleNow f.ups d c.n
    let free (s : State) (l : List XUnit) : Prop :=
      let todo := l.drop (((s.blk c.b).xfer.map (·.cursor)).getD 0)
      ∀ u ∈ todo, (s.takeUp c).barOf f.ups u (if u.adds then [] else (s.takeUp c).covered todo) = none
    let done (i : Instr) := ∃ t, exec i s = .next t ∧ (t.run c.b c.g.idx).done c.p = true
    (c.i.op = opVec → c.i.var = 0 → s₁.settleBar f.ups d c.n = none → free s₂ (s₂.copyUnits c) → done (.vecCopy f)) ∧
    (c.i.op = opGather → s₁.settleBar f.ups d c.n = none → free s₂ (s₂.gatherUnits c) → done (.gather f)) ∧
    (c.i.op = opScatter → free s₁ (s₁.scatterUnits c) → done (.scatterAdd f))

/-- SEND writes the transfer its queue granted and completes (R134, R220, R224, R231). A SEND that may fire holds a grant of its queue.
Where its source lies in its allocation, exec answers a next state in which its position is completed and the grant is used up: the
queue's grants are those of before less one of this SEND. Where the queue is not broken, the units that the grant reserved (the first
of this SEND not yet written, as many as its payload makes) are written: none of them waits to be written any longer, and each word of
the payload (a tensor's elements and scale bytes, or a slot's four bytes, with the length word before a packet) stands at its place. -/
def Obligations.SendWritesItsGrant : Prop :=
  ∀ (s : State) (f : Fire) (c : Ctx), s.ctx? f = some c → s.mayFire c = true → c.i.isSend = true →
    let s₁ := (s.startFire c).eccUpsets c.b f.ups
    let me : Requester := .stage c.b c.g.idx c.p
    s₁.strays c = none →
    ∃ t, exec (.send f) s = .next t ∧ (t.run c.b c.g.idx).done c.p = true ∧
      (t.queue? c.i.dst.queue).map (·.grants) = (s.queue? c.i.dst.queue).map (fun q => q.grants.erase me) ∧
      ∀ q, s₁.queue? c.i.dst.queue = some q → q.broken = false → structural f.ups = [] →
        let v := s₁.slotVal c c.i.srcA.slot
        let data := if c.i.srcA.isS = true then (le 4 (enc32 v.num), List.replicate 4 v.pois) else s₁.payload (s₁.srcView c c.i.srcA)
        let waits (q : Queue) : List QUnit := q.units.filter fun u => u.who == me && !u.written
        let n := (unitSizes q.ent data.1.length).length
        let put := (((waits q).take n).zip (unitWords q.ent c.n data.1 (wordPois data.2))).flatMap fun m => m.1.words.zip m.2
        (t.queue? c.i.dst.queue).map waits = some ((waits q).drop n) ∧
        ((put.map fun x => x.1.cell * 16 + x.1.word).Nodup → ∀ x ∈ put, t.word c.i.dst.queue x.1 = x.2)

/-- RECV completes on a broken queue and wherever its packet fits its destination (R134, R223, R228, R231). A RECV that may fire, with
its destination in its allocation, completes and its destination holds data: from a broken queue with poison throughout, whose units
stay; and from one that is not, unless the packet at its head is larger than the destination, which is the job fault DESC_BOUNDS. The
completed RECV has taken its units from the head of the queue, and what memory and the block store of its block hold is what storing
the payload's bytes left, where the queue takes none from outside the module (whose scale blocks are first checked, R58). -/
def Obligations.RecvTakesItsUnits : Prop :=
  ∀ (s : State) (f : Fire) (c : Ctx) (q : Queue), s.ctx? f = some c → s.mayFire c = true → c.i.isRecv = true →
    let s₁ := (s.startFire c).eccUpsets c.b f.ups
    let s₂ := (structural f.ups).foldl (fun s d => s.breakQueue c.i.srcA.queue d) (s₁.settle (s₁.tref c.i.dst c.rep c.n).t c.n)
    let bytes := (q.ready.take (s₂.recvUnits c q.ent)).flatMap fun u => (s₂.readUnit c.i.srcA.queue q.ent u).1
    s₁.strays c = none → s₂.queue? c.i.srcA.queue = some q →
    let words := (q.ready.take (s₂.recvUnits c q.ent)).flatMap fun u => (s₂.readUnit c.i.srcA.queue q.ent u).2
    let got (s₃ t : State) : Prop := t.mem.data = s₃.mem.data ∧ (t.blk c.b).store = (s₃.blk c.b).store
    (q.broken = true ∨ q.ent.mode ≠ 1 ∨ bytes.length ≤ (s₂.dstView c).bytes →
      ∃ t, exec (.recv f) s = .next t ∧ (t.run c.b c.g.idx).done c.p = true ∧
        (c.i.dst.isT = true → (t.ten (s.tref c.i.dst c.rep c.n).t).holds = true) ∧
        (t.queue? c.i.srcA.queue).map (·.ready) = some (if q.broken = true then q.ready else q.ready.drop (s₂.recvUnits c q.ent)) ∧
        (q.broken = true → got (s₂.storePayload (s₂.dstView c) (List.replicate (s₂.dstView c).bytes 0)
          (List.replicate (ceilDiv (s₂.dstView c).bytes 8) true)).1 t) ∧
        (q.broken = false → fromIngress q.ent = false →
          got (s₂.storePayload (s₂.dstView c) (bytes.take (s₂.dstView c).bytes) (hitWords (payloadHits f.ups) words)).1 t)) ∧
    (q.broken = false → q.ent.mode = 1 → (s₂.dstView c).bytes < bytes.length →
      exec (.recv f) s = .next (raise s₂ (faultCode 1 DESC_BOUNDS 0x01) (srcBlock c.b) (s₂.dstView c).t))

/-- SEAL LAYER hands its records on, fired for its verdict; SEAL STEP ends the block's step, at once or with the verdict (R144, R146,
R155, R134). A SEAL LAYER that may fire and has not fired does all that R144 gives the instruction itself: the block's records of the
layer and direction are added to those of the region's aggregator and leave the block, and the seal stands fired, with its time, for
the verdict that completes it (LAYER_VERDICT); until then the stage has completed what it had. A SEAL STEP that may fire, with every
other stage of its block at rest, starts the block's next step when the step is at most the oldest without a verdict, and waits
otherwise. A seal that has fired already, or a SEAL STEP while another stage of its block does not rest (the model's choice, log 135),
changes nothing. -/
def Obligations.SealsFire : Prop :=
  ∀ (s : State) (f : Fire) (c : Ctx), s.ctx? f = some c → s.mayFire c = true →
    (c.i.isSealLayer = true → (s.run c.b c.g.idx).sealFired = false →
      ∃ t, exec (.sealLayer f) s = .next t ∧ (t.run c.b c.g.idx).sealFired = true ∧ (t.run c.b c.g.idx).sealAt = s.board.time ∧
        (t.rgn (regionOf c.b)).tally = ((s.blk c.b).tally.filter fun e => keyOf c.g.layer c.g.dir e.1).foldl
          (fun m e => addRec e.1 e.2 m) (s.rgn (regionOf c.b)).tally ∧
        (t.run c.b c.g.idx).oldest = (s.run c.b c.g.idx).oldest ∧ (t.run c.b c.g.idx).doneAt = (s.run c.b c.g.idx).doneAt ∧
        ∀ e ∈ (t.blk c.b).tally, keyOf c.g.layer c.g.dir e.1 = false) ∧
    (c.i.isSealStep = true → (s.blk c.b).sealWait = false → s.othersRest c.b c.g.idx = true →
      (c.n ≤ s.gov.step → ∃ t, exec (.sealStep f) s = .next t ∧ (t.blk c.b).step = c.n + 1 ∧ (t.blk c.b).sealWait = false) ∧
      (s.gov.step < c.n → ∃ t, exec (.sealStep f) s = .next t ∧ (t.blk c.b).step = c.n ∧ (t.blk c.b).sealWait = true)) ∧
    ((s.run c.b c.g.idx).sealFired = true → exec (.sealLayer f) s = .next s) ∧
    ((s.blk c.b).sealWait = true ∨ s.othersRest c.b c.g.idx = false → exec (.sealStep f) s = .next s)

/-- An instruction that may not fire yet changes nothing (R134). For every row that fires a block instruction: where the position named
is no instruction of the block, or the conditions of R134 do not hold, exec leaves the state exactly as it was (the model's reading of
a firing that cannot happen, log 9). -/
def Obligations.FiresWaitForTheirConditions : Prop :=
  ∀ (s : State) (f : Fire), (∀ c, s.ctx? f = some c → s.mayFire c = false) →
    ∀ i ∈ [Instr.mma f, .conv f, .vec f, .vecCopy f, .norm f, .softmax f, .reduce f, .gather f, .scatterAdd f, .routeTopk f,
           .routeCount f, .quant f, .dequant f, .rng f, .loss f, .send f, .recv f, .sealLayer f, .sealStep f], exec i s = .next s

/-- Maximum and minimum: NaN if either is NaN; +0 above −0 (R80). The vector unit's maximum and minimum answer NaN if either operand is
NaN. Of a zero of each sign, in either order, the maximum is +0 and the minimum −0. Otherwise the maximum is an operand that is not
less than the other, and the minimum an operand that is not greater. REDUCE by maximum or minimum folds the same function over its
elements, so one NaN anywhere gives NaN. -/
def Obligations.MaximumAndMinimum : Prop :=
  (∀ a b : Number, a.isNan = true ∨ b.isNan = true → a.max b = .nan ∧ a.min b = .nan) ∧
  (∀ a b : Number, a.isZero = true → b.isZero = true → a.sign ≠ b.sign →
    ((a.max b).isZero = true ∧ (a.max b).sign = false) ∧ ((a.min b).isZero = true ∧ (a.min b).sign = true)) ∧
  (∀ a b : Number, a.isNan = false → b.isNan = false → ¬ (a.isZero = true ∧ b.isZero = true) →
    (a.max b = a ∨ a.max b = b) ∧ (a.max b).lt a = false ∧ (a.max b).lt b = false ∧
    (a.min b = a ∨ a.min b = b) ∧ a.lt (a.min b) = false ∧ b.lt (a.min b) = false) ∧
  (∀ (l : List Number) (a first : Number) (seed : Nat) (sto : Bool) (rnd : Nat → Rnd),
    reduceOne 0x03 seed sto rnd first (a :: l) = l.foldl Number.max a ∧ reduceOne 0x04 seed sto rnd first (a :: l) = l.foldl Number.min a) ∧
  (∀ (l : List Number) (a : Number), (a :: l).any Number.isNan = true → (l.foldl Number.max a).isNan = true ∧ (l.foldl Number.min a).isNan = true) ∧
  enc32 .nan = 0x7FC00000

/-- Comparisons: −0 equals +0, and every comparison with NaN is false (R81). Two zeros of any signs compare equal, neither less nor
greater. A comparison with a NaN on either side is false for equal, less and greater. -/
def Obligations.ComparisonsOfZerosAndNan : Prop :=
  (∀ a b : Number, a.isZero = true → b.isZero = true → a.eqv b = true ∧ a.lt b = false ∧ b.lt a = false) ∧
  (∀ a b : Number, a.isNan = true ∨ b.isNan = true → a.eqv b = false ∧ a.lt b = false ∧ b.lt a = false)

/-! ## Layers, steps, the governor and the update engines -/

/-- A layer switch makes the next position live; a prefetch that is due completes (R147, R148, R149, R266, R283). LAYER_SWITCH of a
time-shared block whose issue is not stopped, and which has drained its live layer with a position left, answers a next state in which
the position is one more and the next layer of its sequence is live; no weight tensor of the half just left counts as fetched, its
stages are as they were, and every other block is unchanged. PREFETCH_COMPLETE of a weight tensor that is due, and of whose source and
place nothing is barred, answers a next state in which the tensor holds data and counts as fetched; where a page of its source is not
resident the page is asked for. -/
def Obligations.LayerSwitchAndPrefetch : Prop :=
  ∀ (s : State) (b : Nat), let q := s.seqOf b; let x := s.blk b; let h := look {} b s.job.rblocks
    (∀ l, s.liveLayer b = some l → s.issuing = true → x.pos + 1 < x.pos0 + q.length → s.drained b l = true →
      ∃ t, exec (.layerSwitch b) s = .next t ∧ (t.blk b).pos = x.pos + 1 ∧ t.liveLayer b = q[(x.pos + 1) % q.length]? ∧
        (t.blk b).stages = x.stages ∧ (∀ b', b' ≠ b → t.blk b' = s.blk b') ∧
        ∀ y ∈ (t.blk b).fetched, y ∈ x.fetched ∧
          ¬ (h.h0 + x.pos % 2 * h.half ≤ (s.ten y).desc.base ∧ (s.ten y).desc.base < h.h0 + x.pos % 2 * h.half + h.half)) ∧
    ∀ (y : Nat) (ups : Upsets), s.prefetchDue b y = true →
      (s.barOf ups (s.prefetchUnit b y) = none →
        ∃ t, exec (.prefetchComplete b ⟨y, ups⟩) s = .next t ∧ y ∈ (t.blk b).fetched ∧ (t.ten y).holds = true) ∧
      ∀ p, s.barOf ups (s.prefetchUnit b y) = some (.page p) → exec (.prefetchComplete b ⟨y, ups⟩) s = .next (s.requestPage p (regionOf b))

/-- TALLY_RECORDS moves a region's records of a layer to the layer's home region; merging may go in any order (R152, R155).
TALLY_RECORDS of a region and a layer always answers a next state: what the region had received of the layer is merged into its own
records; in another region than the layer's home none of the layer's records stays, and the home region receives each of them under its
key, after what it had received; regions other than these two are unchanged. Merging two records gives the same in either order, and of
three in any grouping, for records whose histograms have the 32 bins of R153. -/
def Obligations.RecordsReachTheirHome : Prop :=
  (∀ (s : State) (r l : Nat), let h := s.home l; let g := (s.rgn r).mergeInbox l
    ∃ t, exec (.tallyRecords r l) s = .next t ∧ (∀ e ∈ (t.rgn r).inbox, keyLayer e.2.1 ≠ l) ∧
      (h = r → (t.rgn r).tally = g.tally) ∧
      (h ≠ r → (t.rgn r).tally = (g.tally.filter fun e => keyLayer e.1 != l) ∧
        (t.rgn h).inbox = (s.rgn h).inbox ++ (g.tally.filter fun e => keyLayer e.1 == l).map fun e => (r, e.1, e.2)) ∧
      ∀ r', r' ≠ r → r' ≠ h → t.rgn r' = s.rgn r') ∧
  ∀ a b c : TallyRec, a.hist.length = 32 → b.hist.length = 32 → c.hist.length = 32 →
    a.merge b = b.merge a ∧ (a.merge b).merge c = a.merge (b.merge c)

/-- A layer verdict commits the layer, or replays its forward pass when too many blocks overflowed (R144, R160, R161, R162, R163,
R164). A LAYER_VERDICT for a layer and direction that is ready (its last stage has fired SEAL LAYER, its records have reached the home
region) and whose issue is not stopped answers a next state in which no stage of the layer awaits the verdict. The verdict is REPLAY
exactly for a forward pass whose overflow rate over the governed SPEC destinations is at least LREPLAY_RATE, with replays left; then
every stage of the layer is in a replay pass and the layer's count of replays for the step is one more; otherwise none is in a replay
pass. The home region keeps no record of the layer and direction. -/
def Obligations.LayerVerdictCommitsOrReplays : Prop :=
  ∀ (s : State) (layer : Nat) (back : Bool), s.issuing = true → s.layerReady layer back = true →
    (back = true → s.layerReady layer false = false) →
    let stages := s.layerStages layer back
    let n := (stages.head?.map fun x => (s.blk x.1).step).getD 0
    let replays := look 0 (n * 65536 + layer) s.gov.lreplays
    let stat := stages.foldl (fun a x => a.merge (s.run x.1 x.2.idx).specStat) ({} : TallyRec)
    let again := !back && (rateGe (stat.satBlk + stat.fullBlk) stat.liveBlk s.job.prec.lreplayRate && replays < s.job.prec.lreplayMax)
    ∃ t, exec (.layerVerdict layer) s = .next t ∧
      (∀ x ∈ stages, (t.run x.1 x.2.idx).sealFired = false ∧ (t.run x.1 x.2.idx).replayPass = again) ∧
      (again = true → look 0 (n * 65536 + layer) t.gov.lreplays = replays + 1) ∧
      (again = false → t.gov.lreplays = s.gov.lreplays) ∧
      ∀ e ∈ (t.rgn (s.home layer)).tally, keyOf layer (if back then dirBwd else dirFwd) e.1 = false

/-- The module seals its step, and its vote goes to the manager, which keeps votes until it has every one (R146, R166, R319, R321,
R442). MODULE_STEP_SEAL, with the module running and every block past the step, answers a next state in which the step is sealed and
the energy accumulators of that time are latched for it. STEP_VOTE, with the step sealed, not voted and every shard done, answers a
next state in which the step has voted and the verdict is awaited; a module that is no manager has sent its vote to its manager. A
manager's own vote and a VOTE it accepts for the step are held with the votes of other modules; while one of its tier-1 flock is
missing nothing is sent and no verdict formed. -/
def Obligations.StepSealsAndVotes : Prop :=
  (∀ s : State, s.glb.mstate = .running → s.err.stopIssue = false → s.gov.squash = none → s.gov.step ∉ s.gov.sealedSteps →
    s.blocksSealed s.gov.step = true →
    ∃ t, exec .moduleStepSeal s = .next t ∧ s.gov.step ∈ t.gov.sealedSteps ∧ t.gov.step = s.gov.step ∧
      t.eng.seals = (s.eng.seals.filter fun x => x.1 != s.gov.step) ++ [(s.gov.step, s.board.time, s.eng.acc, s.eng.gapTotal)]) ∧
  (∀ s : State, s.flockActive = true → s.stop.round = 0 → s.gov.squash = none → s.gov.step ∈ s.gov.sealedSteps →
    s.gov.step ∉ s.gov.voted → s.shardsDone = true →
    let v := s.makeVote s.gov.step
    let s₁ := { s with gov := { s.gov with voted := insertN s.gov.step s.gov.voted, voteTime := s.board.time, notices := [] },
                       upd := { s.upd with awaiting := true } }
    (s.isManager = false → ∃ t, exec .stepVote s = .next t ∧ t.gov = s₁.gov ∧ t.upd = s₁.upd ∧
      Sent (s.posted { type := mVote, dst := s.managerDev, step := s.gov.step, payload := v.payload }) s t) ∧
    (s.isManager = true → exec .stepVote s = .next (s₁.addVote v))) ∧
  (∀ (s : State) (port : Nat) (m : DMsg), s.accepts port m mVote = true → s.isManager = true → m.step = s.gov.step → s.flockActive = true →
    exec (.vote port m) s = .next ((s.taken port (DMsgBytes m)).addVote (readVote m))) ∧
  ∀ (s : State) (v : Vote),
    let u := { s with drv := { s.drv with votes := (s.drv.votes.filter fun (x : Vote) => x.device != v.device) ++ [v],
                                          voteFrom := some (s.drv.voteFrom.getD s.board.time) } }
    u.ownVotes = none ∨ s.stop.round ≠ 0 → s.addVote v = u

/-- A verdict commits, replays or skips the step: live buffer, step number, epoch, run-ahead work (R169, R170, R279, R282, R304, R323).
A VERDICT that is accepted for the oldest step n without one, while the job runs, answers a next state in which no verdict is awaited,
the epoch is the verdict's and no votes are held. A commit makes the other parameter buffer live, counts one committed update and goes
on to step n + 1 in its first execution. A replay keeps the live buffer and the count, keeps step n, which is no longer in its first
execution, counts one replay of the step and has the run-ahead work squashed. A skip keeps the live buffer and the count too and goes
on to step n + 1, with the same squash. -/
def Obligations.VerdictTurnsTheStep : Prop :=
  ∀ (s : State) (port : Nat) (m : DMsg), s.accepts port m mVerdict = true → s.flockActive = true → s.upd.awaiting = true →
    m.step = s.gov.step →
    ∃ t, exec (.verdict port m) s = .next t ∧ t.upd.awaiting = false ∧ t.drv.epoch = (readVerdict m).epoch ∧ t.drv.votes = [] ∧
      ((readVerdict m).verdict = 0 → t.upd.live = 1 - s.upd.live ∧ t.upd.count = s.upd.count + 1 ∧ t.gov.step = s.gov.step + 1 ∧
        t.gov.first = true ∧ t.gov.replays = 0 ∧ t.gov.squash = s.gov.squash) ∧
      ((readVerdict m).verdict = 1 → t.upd.live = s.upd.live ∧ t.upd.count = s.upd.count ∧ t.gov.step = s.gov.step ∧
        t.gov.first = false ∧ t.gov.replays = s.gov.replays + 1 ∧ t.gov.squash = some (s.gov.step, 1)) ∧
      (2 ≤ (readVerdict m).verdict → t.upd.live = s.upd.live ∧ t.upd.count = s.upd.count ∧ t.gov.step = s.gov.step + 1 ∧
        t.gov.first = true ∧ t.gov.replays = 0 ∧ t.gov.squash = some (s.gov.step, 2))

/-- A vote and a verdict read back from their payloads are what was sent (R320, R323). For every vote whose fields fit the widths of
R320, the payload read as a VOTE of its step and device is the vote with every request and every layer entry. For every verdict whose
fields fit the widths of R323, the payload read as a VERDICT of its step is the verdict with every decision and every layer entry. -/
def Obligations.VoteAndVerdictRoundTrip : Prop :=
  (∀ v : Vote, v.flags < 2 ^ 32 → v.modules < 2 ^ 32 → v.ha < 2 ^ 32 → v.hs < 2 ^ 32 → v.live < 2 ^ 64 → v.satFull < 2 ^ 64 →
    v.nanInf < 2 ^ 64 → v.requests.length < 2 ^ 32 → v.layers.length < 2 ^ 32 →
    (∀ r ∈ v.requests, r.layer < 2 ^ 16 ∧ r.role < 2 ^ 8 ∧ r.kind < 2 ^ 8 ∧ r.density < 2 ^ 32 ∧ r.a < 2 ^ 32 ∧ r.m < 2 ^ 32 ∧
      r.modules < 2 ^ 32) →
    (∀ l ∈ v.layers, l.layer < 2 ^ 16 ∧ l.flags < 2 ^ 16 ∧ l.w2 < 2 ^ 32 ∧ l.u2 < 2 ^ 32 ∧ l.ring < 2 ^ 32) →
    readVote { type := mVote, src := v.device, step := v.step, payload := v.payload } = v) ∧
  ∀ v : Verdict, v.verdict < 2 ^ 8 → v.flags < 2 ^ 8 → v.epoch < 2 ^ 32 → v.decisions.length < 2 ^ 32 → v.layers.length < 2 ^ 32 →
    (∀ d ∈ v.decisions, d.layer < 2 ^ 16 ∧ d.role < 2 ^ 8 ∧ d.kind < 2 ^ 8 ∧ d.value < 2 ^ 8) →
    (∀ l ∈ v.layers, l.1 < 2 ^ 16 ∧ l.2.1 < 2 ^ 8 ∧ l.2.2 < 2 ^ 32) →
    readVerdict { type := mVerdict, step := v.step, payload := v.payload } = v

/-- Due changes of format take effect; after a replay or skip the queues are squashed and blocks start again (R173, R176, R178, R235,
R534). FORMAT_CHANGE_EFFECT answers a next state; while a squash waits it changes nothing. Otherwise changes whose step has begun on no
block still wait, and the others wait no more. A single due change of a governed pair gives it the class (kinds 1 and 2) or the size
(kinds 3 and 4) that the decision names and keeps the other, or λ (kind 5), which remembers the value before. QUEUE_SQUASH, where a
replay or skip of step n awaits it and no block has a transfer in progress, answers a next state in which nothing awaits it, no region
holds a statistics record, and every block that hosts stages starts the step that runs next: n again after a replay, n + 1 after a
skip. -/
def Obligations.FormatChangesAndSquash : Prop :=
  (∀ s : State, s.gov.squash ≠ none → exec .formatChangeEffect s = .next s) ∧
  (∀ s : State, s.gov.squash = none → let top := s.hosting.foldl (fun a b => Nat.max a (s.blk b).step) s.gov.step
    ∃ t, exec .formatChangeEffect s = .next t ∧ t.gov.changes = (s.gov.changes.filter fun c => top < c.step) ∧ t.gov.step = s.gov.step ∧
      ∀ c e k, (s.gov.changes.filter fun c => c.step ≤ top) = [c] → s.policy c.d.layer c.d.role = some e →
        find? (govKey c.d.layer c.d.role) s.gov.ks = some k →
        ∃ k', find? (govKey c.d.layer c.d.role) t.gov.ks = some k' ∧
          (c.d.kind = 1 ∨ c.d.kind = 2 → k'.cls = classCode c.d.value ∧ k'.size = k.size ∧ k'.granted = false) ∧
          (c.d.kind = 3 ∨ c.d.kind = 4 → k'.cls = k.cls ∧ k'.size = c.d.value ∧ k'.granted = false) ∧
          (c.d.kind = 5 → k'.lambda = c.d.value ∧ k'.lambdaOld = k.lambda ∧ k'.cls = k.cls ∧ k'.size = k.size)) ∧
  ∀ (s : State) (n verdict : Nat), s.gov.squash = some (n, verdict) → (∀ b ∈ s.hosting, (s.blk b).xfer = none) →
    let next := if verdict = 2 then n + 1 else n
    ∃ t, exec .queueSquash s = .next t ∧ t.gov.squash = none ∧ t.gov.step = s.gov.step ∧
      (∀ r, r < 4 → (t.rgn r).tally = [] ∧ (t.rgn r).inbox = []) ∧
      ∀ b ∈ s.hosting, (t.blk b).step = next ∧ (t.blk b).sealWait = false

/-- A shard's elements are updated in the other buffer; a poisoned one is reported before any write (R268, R273, R280, R281, R282).
UPDATE_SHARD, with the job running, a shard that its region may start, and a profile and a fold for its layer. Completion, on
conditions of the state alone: no access fails on its link, no tensor that it writes waits for a layout, every byte it reads or writes
lies in its allocation and on a resident page, and no master, state, remainder or gradient is poisoned; then exec answers a next state
in which the ranges of all the shard's elements count as updated, and the live buffer, the count of committed updates and the step are
unchanged. In general, where the layouts that wait can be taken, it takes the elements before the first delivery unit that a page, a
CRC or a bound bars; of a poisoned one it reports POISON_COMMIT at level 2 and writes nothing of them (the manual stops at the element:
the model's choice, log 31). Where a page bars the first unit, the page is asked for. -/
def Obligations.UpdateShardUpdatesItsElements : Prop :=
  ∀ (s : State) (region : Nat) (ups : Upsets) (x : Shard) (pr : Profile) (fold : Fold), s.flockActive = true → s.stop.round = 0 →
    s.gov.squash = none → s.nextShard region = some x → s.profile x.layer = some pr → s.fold? x.fold = some fold →
    let p := s.party x.layer x.tensor
    let u := s.seeds 1
    let v := (u.shardBufs p x).foldl (fun s t => s.settleNow ups t x.step) u
    let room := v.shardRoom p x ups
    let y := x.part 0 room.1
    let s₁ := (v.useUnit ups (v.shardUnit p y)).readGrads region (v.keptEls y).length
    let updated (els : List Nat) : Prop := ∃ t, exec (.updateShard region ups) s = .next t ∧
      look [] x.tensor t.upd.done = look [] x.tensor s.upd.done ++ spansOf els ∧
      t.upd.live = s.upd.live ∧ t.upd.count = s.upd.count ∧ t.gov.step = s.gov.step
    (ups = {} → (∀ t ∈ s.shardBufs p x, (s.ten t).later = none) → (s.shardUnit p x).bar = none →
      (∀ a ∈ (s.shardUnit p x).reads ++ (s.shardUnit p x).writes, (s.page (a / 2 ^ 21)).resident = true) →
      (s.readParty p s.upd.live x).any (·.2) = false → updated x.els) ∧
    (u.shardSettleBar p x ups = none →
      (0 < room.1 ∨ room.2 = none →
        ((s₁.readParty p s₁.upd.live y).any (·.2) = false → updated y.els) ∧
        ((s₁.readParty p s₁.upd.live y).any (·.2) = true →
          exec (.updateShard region ups) s =
            .next (raise s₁ (faultCode 2 POISON_COMMIT 0x01) (srcRegion region) (x.layer * 2 ^ 32 + x.tensor)))) ∧
      ∀ q, room = (0, some (.page q)) → exec (.updateShard region ups) s = .next (v.requestPage q region)) ∧
    ∀ q, u.shardSettleBar p x ups = some (.page q) → exec (.updateShard region ups) s = .next (u.requestPage q region)

/-- A snapshot copy that nothing bars ends with a signed, complete slot; one too large ends NO_RESOURCE (R268, R285, R286, R287, R342,
R347). SNAPSHOT_COPY with a copy in progress on a running or paused module. Completion, on conditions of the state and the operand
alone: the snapshot fits its slot; every unit left of its sections lies in its allocation, on resident pages, and is not poisoned; and
no fetch of a block, of its metadata or of the slot's metadata, and no write of the slot, fails four times. Then exec answers a next
state in which no copy is in progress, the copy's slot is complete with the resume step in its header, and it is the newest one. A
snapshot larger than the slot ends the copy, and the SNAPSHOT operation with NO_RESOURCE. -/
def Obligations.SnapshotCopyEndsComplete : Prop :=
  ∀ (s : State) (ups : Upsets), s.upd.snapBusy = true → s.inState [.running, .paused] = true → s.glb.halted = false →
    s.err.stopIssue = false →
    (s.snapSize ≤ s.slotBytes →
      (∀ k x, (s.snapList.drop s.upd.snapParts.length)[k]? = some x →
        ∀ u ∈ (s.sectionUnits x.1 (bufOf x.2 s.upd.snapBuf)).drop (if k = 0 then s.upd.snapCursor else 0),
          u.unit.bar = none ∧ u.pois = false ∧ (∀ a ∈ u.unit.reads, (s.page (a / 2 ^ 21)).resident = true) ∧
          ∀ b ∈ s.memBlocks u.unit.reads, b ∉ s.mem.poison ∧ crcFails ups b < 4 ∧ crcFails ups (metaBlock b) < 4) →
      (∀ n, ∀ b ∈ s.slotBlocks s.upd.snapSlot n, wrDead ups b = false ∧ crcFails ups (metaBlock b) < 4) →
      ∃ t, exec (.snapshotCopy ups) s = .next t ∧ t.upd.snapBusy = false ∧ t.upd.newest = s.upd.snapSlot ∧ t.upd.anyDone = true ∧
        slotComplete (t.slot s.upd.snapSlot) = true ∧ slotStep (t.slot s.upd.snapSlot) = s.upd.snapStep % 2 ^ 64) ∧
    (s.slotBytes < s.snapSize → exec (.snapshotCopy ups) s = .next (s.copyStops.finishTake stNoRes))

/-! ## Drover and the flock -/

/-- A Drover message is discarded, sent on, refused, dropped as stale or given to its meaning, in that order (R299, R300, R302, R303,
R324, R496). For each of the 17 message types, the command of a message of that type on a port that delivers answers a next state: on a
halted module nothing but its hand-over from the port happens; one with an unlisted type, a reserved field not 0 (of a message for
another device only the header's) or, where it is for this module, a fold of which the module is no member is discarded under R300; one
for another device leaves by the port that ROUTES names, and a FORMED of the flock's manager by the other edges of the control tree, on
the same lane, unless its blocks have gone there already; one whose payload fails its CRC is the job fault CRC_EXHAUST, detail 0x30;
one of a fold with an older epoch is dropped and counted. BAD_DROVER_MESSAGE on a module that is not halted discards likewise: the
source is remembered, and from a source already known the error log is unchanged. -/
def Obligations.DroverMessagesAreChecked : Prop :=
  let cmds (ups : Upsets) : List (Nat × (Nat → DMsg → Instr)) :=
    [(mHead, .head), (mGrant, .grant), (mGrad, .grad), (mParam, fun p m => .param p ⟨m, ups⟩), (mRing, .ring), (mRingFinal, .ringFinal),
     (mVote, .vote), (mVerdict, .verdict), (mFault, .fault), (mStop, .stop), (mRestart, fun p m => .restart p ⟨m, ups⟩),
     (mRestartAck, .restartAck), (mForm, .form), (mFormAck, .formAck), (mProbe, .probe), (mProbeReply, .probeReply), (mFormed, .formed)]
  (∀ (s : State) (port : Nat) (m : DMsg) (ups : Upsets), s.portUp port = true → ∀ x ∈ cmds ups, m.type = x.1 →
    let u := s.taken port (DMsgBytes m)
    let mine := m.mcast = true ∨ m.dst = s.drv.device
    (s.glb.halted = true → exec (x.2 port m) s = .next u) ∧
    (s.glb.halted = false → s.badMsg m = true → exec (x.2 port m) s = .next (u.dropBad port m)) ∧
    (s.glb.halted = false → s.badMsg m = false → ¬ mine → s.gone port m = true → exec (x.2 port m) s = .next u) ∧
    (s.glb.halted = false → s.badMsg m = false → ¬ mine → s.gone port m = false →
      exec (x.2 port m) s = .next (u.passOn (some port) m) ∧
      (s.treeBound m = false → Sent (.drover (s.route m.dst) (laneOf m) m) s (u.passOn (some port) m)) ∧
      (s.treeBound m = true → ∀ p ∈ s.job.flock.ctrlTree, p ≠ port → Sent (.drover p (laneOf m) m) s (u.passOn (some port) m))) ∧
    (s.glb.halted = false → s.badMsg m = false → mine → payloadOk m = false →
      exec (x.2 port m) s = .next (raise u (faultCode 3 CRC_EXHAUST 0x30) (srcDrover (port / 8)) m.src)) ∧
    (s.glb.halted = false → s.badMsg m = false → mine → payloadOk m = true → s.stale m = true →
      exec (x.2 port m) s = .next (u.count 16 0 3 1))) ∧
  ∀ (s : State) (port : Nat) (m : DMsg), s.portUp port = true → s.badMsg m = true → s.glb.halted = false →
    ∃ t, exec (.badDroverMessage port m) s = .next t ∧ m.src ∈ t.drv.badSrc ∧ t.out = s.out ∧
      (m.src ∈ s.drv.badSrc → t.err = s.err ∧ t.drv = s.drv) ∧
      (bitAt s.job.ctrMask 16 = true → m.src ∈ s.drv.badSrc → t.ctr 16 0 8 = satAdd max48 (s.ctr 16 0 8) 1)

/-- A filled bucket is encoded behind heads; a head is granted or waits; a grant releases the segments (R35, R305, R307, R308).
BUCKET_FILL of a bucket that is full and not yet handled, with no lower chunk of its layer full, answers a next state in which the
bucket counts as handled and every segment with another owner stands in a contribution to that owner, which waits for its grant; where
an element of its accumulator is poisoned POISON_COMMIT is reported and nothing of the bucket is sent (the model's choice for the whole
bucket, log 33). A HEAD accepted while the job runs and no pause marker has been sent either joins the entry of its bucket, or waits;
with no other head waiting, a place in the reorder table and no newer epoch than the module's it joins, and a GRANT with its identifier
goes to its sender; one of a newer epoch waits for the verdict (the model's choice, log 35). A GRANT for a contribution that waits
sends every segment of it. -/
def Obligations.ContributionsTravelBehindHeads : Prop :=
  (∀ (s : State) (layer chunk : Nat) (ups : Upsets) (x : Full) (f : Fold), s.flockActive = true → s.stop.round = 0 → s.gov.squash = none →
    s.fullBucket layer chunk = some x → s.foldOfLayer layer = some f → (∀ c, c < chunk → s.fullBucket layer c = none) →
    let s₁ := s.eccUpsets (s.ten x.acc).desc.block ups
    let poisoned := (List.range x.count).any fun k => (s₁.elem (s₁.liveView x.acc) (x.first + k)).pois
    (poisoned = false → ∃ t, exec (.bucketFill layer chunk ups) s = .next t ∧ (layer * 65536 + chunk, x.step) ∈ t.drv.filled ∧
      ∀ sp ∈ s.segments x.tensor x.first x.count, s.ownerOf x.tensor sp.1 ≠ s.drv.device →
        ∃ h ∈ t.drv.outHeads, h.owner = s.ownerOf x.tensor sp.1 ∧ h.step = x.step ∧ h.epoch = s.drv.epoch ∧ h.layer = layer ∧
          h.chunk = chunk ∧ ∃ g ∈ h.grads, g.type = mGrad ∧ g.first = sp.1 ∧ g.count = sp.2) ∧
    (poisoned = true → exec (.bucketFill layer chunk ups) s = .next (raise s₁ (faultCode 2 POISON_COMMIT 0x02)
      (srcDrover (regionOf (s.ten x.acc).desc.block)) (layer * 2 ^ 32 + x.tensor)))) ∧
  (∀ (s : State) (port : Nat) (m : DMsg), s.accepts port m mHead = true → s.flockActive = true → s.stop.round = 0 →
    ∃ t, exec (.head port m) s = .next t ∧
      (m ∈ t.drv.waitHeads ∨ ∃ e, t.entry? m.step m.epoch m.layer m.chunk = some e ∧ m.src ∈ e.contrib) ∧
      (s.drv.epoch < m.epoch → m ∈ t.drv.waitHeads) ∧
      (s.drv.waitHeads = [] → m.epoch ≤ s.drv.epoch → (s.joinEntry m.fold m.step m.epoch m.layer m.chunk m.src).isSome = true →
        t.drv.waitHeads = [] ∧ (∃ e, t.entry? m.step m.epoch m.layer m.chunk = some e ∧ m.src ∈ e.contrib) ∧
        ∃ g, Sent (.drover (s.route m.src) (laneOf g) g) s t ∧ g.type = mGrant ∧ g.dst = m.src ∧ g.fold = m.fold ∧ g.step = m.step ∧
          g.epoch = m.epoch ∧ g.layer = m.layer ∧ g.chunk = m.chunk)) ∧
  ∀ (s : State) (port : Nat) (m : DMsg) (h : OutHead), s.accepts port m mGrant = true → s.flockActive = true → s.stop.round = 0 →
    (s.drv.outHeads.find? fun h => h.sent && h.fold == m.fold && h.owner == m.src && h.step == m.step && h.layer == m.layer &&
      h.chunk == m.chunk && h.epoch == m.epoch) = some h →
    ∃ t, exec (.grant port m) s = .next t ∧ ∀ g ∈ h.grads, Sent (s.posted g) s t

/-- A segment is added once for each member: the first writes its elements, each later one adds in FP32 (R308, R310, R311, R312). A
GRAD accepted while the job runs, for a bucket with an entry, answers a next state in which the bucket's entry notes the segment as
contributed by its sender. The first contribution to a segment writes each element, each later one adds to it in FP32 under nearest
even; poison of either stays. A segment that the sender has contributed already leaves the sums as they are. -/
def Obligations.SegmentsAreReducedOnce : Prop :=
  (∀ (s : State) (port : Nat) (m : DMsg) (f : Fold) (e : Reorder), s.accepts port m mGrad = true → s.flockActive = true →
    s.fold? m.fold = some f → s.entry? m.step m.epoch m.layer m.chunk = some e →
    ((m.first, m.src) ∉ e.seen →
      ∃ t, exec (.grad port m) s = .next t ∧ ∃ e', t.entry? m.step m.epoch m.layer m.chunk = some e' ∧ (m.first, m.src) ∈ e'.seen) ∧
    ((m.first, m.src) ∈ e.seen → exec (.grad port m) s = .next ((s.taken port (DMsgBytes m)).retryStalled.admitHeads))) ∧
  (∀ (e : Reorder) (member first : Nat) (vals : List Val) (k : Nat) (v : Val), vals[k]? = some v → e.first ≤ first →
    first + k - e.first < e.acc.length →
    (e.addSegment member first vals).at (first + k) =
      (if e.seen.any (fun x => x.1 == first) then (enc32 (fadd (dec32 (e.at (first + k)).1) v.num), (e.at (first + k)).2 || v.pois)
       else (enc32 v.num, v.pois)) ∧
    ∀ i, e.first ≤ i → i < first ∨ first + vals.length ≤ i → (e.addSegment member first vals).at i = e.at i) ∧
  ∀ (s : State) (f : Fold) (e : Reorder) (member first : Nat) (vals : List Val), (first, member) ∈ e.seen →
    s.reduceSegment f e member first vals = s

/-- A ring chunk goes on hop by hop, its final sums start lap 1, and an escaped block stays escaped (R35, R315, R317, R318). A RING
accepted while the job runs and no pause marker has been sent, for an entry reduced in this tier-1 flock and a chunk of it without
poison, answers a next state: in the last hop of lap 0 the final sums are noted for the entry and start lap 1 to the next flock, in any
other the message goes on in lap 0 with its hop one more; where the chunk holds poison POISON_COMMIT is reported in place of a message.
A RING_FINAL notes the chunk's final sums and goes on unchanged in lap 1, hop one more, unless the next flock started it. A block that
has escaped stays escaped, and escapes at no later hop; one that has not stays in GRAD_FMT unless it escapes here. -/
def Obligations.RingMessagesGoRound : Prop :=
  (∀ (s : State) (port : Nat) (m : DMsg) (e : Reorder) (c : Nat), s.flockActive = true → s.stop.round = 0 →
    s.entry? m.step m.epoch m.layer m.chunk = some e → e.tier1 = true → s.ringChunkAt e m.first = some c →
    let blks := readRing m.fmt ((s.ringChunk e c).map List.length) m.payload
    let l := (s.ringHops e c m.scale (some blks)).map (·.1)
    (s.accepts port m mRing = true → s.ringPoison e c = false →
      ∃ t, exec (.ring port m) s = .next t ∧
        (s.ringLast c = false → Sent (s.posted (s.ringMsg e c 0 (m.hop + 1) m.scale l)) s t) ∧
        (s.ringLast c = true → Sent (s.posted (s.ringMsg e c 1 1 m.scale l)) s t ∧
          ∃ e', t.entry? m.step m.epoch m.layer m.chunk = some e' ∧ c ∈ e'.ringDone)) ∧
    (s.accepts port m mRing = true → s.ringPoison e c = true → exec (.ring port m) s =
      .next ((raise (s.taken port (DMsgBytes m)) (faultCode 3 POISON_COMMIT 0x03) (srcDrover (s.home e.layer))
        (e.layer * 2 ^ 32 + e.tensor)).passEntries.retryStalled).admitHeads) ∧
    (s.accepts port m mRingFinal = true →
      ∃ t, exec (.ringFinal port m) s = .next t ∧ (∃ e', t.entry? m.step m.epoch m.layer m.chunk = some e' ∧ c ∈ e'.ringDone) ∧
        ((s.flockIdx + 1) % s.flocksN ≠ (c + s.flocksN - 1) % s.flocksN →
          Sent (s.posted (s.ringMsg e c 1 (m.hop + 1) m.scale blks)) s t))) ∧
  (∀ (fw scale : Nat) (bits : List Nat) (loc : List Number) (b : Bool),
    (ringHop fw scale (some (true, bits)) loc b).1.1 = true ∧ (ringHop fw scale (some (true, bits)) loc b).2 = false) ∧
  ∀ (fw scale : Nat) (bits : List Nat) (loc : List Number) (b : Bool),
    (ringHop fw scale (some (false, bits)) loc b).1.1 = (ringHop fw scale (some (false, bits)) loc b).2

/-- A PARAM goes on along the fold's tree and is counted into its working copy (R268, R281, R299, R313, R314). A PARAM accepted while
the job runs answers the next state that its flooding, its storing, the waiting messages and the waiting heads give, in that order: it
has left on every other edge of the fold's tree; one whose blocks have gone on already is not flooded again. Stored, a range that names
a copy of this module and a place in it, and whose memory nothing bars, counts in the copy of the buffer it fills: the elements the
copy has of the step are as many more as the message carries. Of a range that meets a page not resident the elements from that delivery
unit on wait as a message of their own, and the page is asked for. -/
def Obligations.ParametersAreFloodedAndStored : Prop :=
  (∀ (s : State) (port : Nat) (m : DMsg) (ups : Upsets), s.accepts port m mParam = true → s.flockActive = true →
    let tree := ((s.fold? m.fold).map (·.tree)).getD []
    let v := s.taken port (DMsgBytes m)
    let u := ((v.flood tree (some port) m).count 16 0 7 (msgBytes m * (tree.filter (· != port)).length)).count 16 0 6 m.payload.length
    let after (u : State) : State := ((u.onParam ups m).retryStalled ups).admitHeads
    (s.gone port m = false → exec (.param port ⟨m, ups⟩) s = .next (after u) ∧ ∀ p ∈ tree, p ≠ port → Sent (.drover p (laneOf m) m) s (after u)) ∧
    (s.gone port m = true → exec (.param port ⟨m, ups⟩) s = .next (after (v.count 16 0 6 m.payload.length)))) ∧
  ∀ (u : State) (m : DMsg) (ups : Upsets) (c a₀ : Nat), (u.copiesOf m.layer m.tensor)[m.hop]? = some c →
    let t := bufOf c (u.paramBuf m.step)
    let v := u.settleNow ups t m.step
    let w := v.liveView t
    let n := unitSize w.d
    let bar := v.firstSpan ups w (v.unreadBlocks (v.paramUnit w (a₀, m.count))) (cutSpan n (m.count / n + 1) (a₀, m.count))
    u.settleBar ups t m.step = none → v.copyStart w m.layer m.tensor m.hop m.first = some a₀ →
    (bar = none → ((u.onParam ups m).ten t).fillStep = m.step ∧
      ((u.onParam ups m).ten t).fillCount = (if (u.ten t).fillStep = m.step then (u.ten t).fillCount else 0) + m.count) ∧
    ∀ a p, bar = some (a, .page p) →
      (∃ f, (w.d.sparse = 0 → f = masterPlace (v.desc m.tensor) (v.copyDim m.layer m.tensor m.hop) a) ∧
        (u.onParam ups m).drv.stalled = u.drv.stalled ++ [{ paramPart { m with first := a₀ } w a (m.count - (a - a₀)) with first := f }]) ∧
      ((∃ r ∈ (u.onParam ups m).mem.requests, r.page = p) ∨ ∃ x ∈ (u.onParam ups m).mem.moves, x.page = p ∧ x.up = true)

/-- FAULT, STOP and lost peers: the verdict manager stops its flock, and every module that runs is FAULTED (R36, R325, R326, R424,
R463). A FAULT accepted by a running verdict manager that has stopped nothing yet is remembered as the first, STOP goes down the
control tree and the manager is FAULTED; a later one only reaches the log; another manager sends it on to the top manager. A STOP goes
on along the other edges of the control tree, where its blocks have not gone there already; a module whose job runs or pauses is
FAULTED with issue stopped, and every open session is told with the fault and its device. PEER_LOST, for the lowest device awaited
under its detail, is kept with that device, and reported at level 3 while the job runs or starts, or where a restart is not answered,
after which none follows by itself; in formation the start-up fails with it. -/
def Obligations.FaultsStopTheFlock : Prop :=
  (∀ (s : State) (port : Nat) (m : DMsg), s.accepts port m mFault = true → let code := leAt m.payload 0 2
    (s.isVerdictManager = true → s.drv.faultSent = false → s.glb.mstate = .running →
      ∃ t, exec (.fault port m) s = .next t ∧ t.glb.mstate = .faulted ∧ t.drv.faultSent = true ∧ t.drv.firstFault = some (code, m.src) ∧
        ∀ p ∈ s.job.flock.ctrlTree, Sent (.drover p (laneOf { type := mStop })
          (s.dmsg { type := mStop, mcast := true, payload := le 2 code ++ le 2 m.src })) s t) ∧
    (s.isVerdictManager = true → s.drv.faultSent = true →
      ∃ t, exec (.fault port m) s = .next t ∧ t.glb = s.glb ∧ t.out = s.out ∧ t.drv = s.drv) ∧
    (s.isVerdictManager = false → s.drv.role = 2 →
      ∃ t, exec (.fault port m) s = .next t ∧ Sent (.drover (s.route 0) (laneOf m) { m with dst := 0 }) s t)) ∧
  (∀ (s : State) (port : Nat) (m : DMsg), s.accepts port m mStop = true →
    ∃ t, exec (.stop port m) s = .next t ∧
      (m.mcast = true → s.gone port m = false → ∀ p ∈ s.job.flock.ctrlTree, p ≠ port → Sent (.drover p (laneOf m) m) s t) ∧
      (s.glb.mstate = .running ∨ s.glb.mstate = .paused → t.glb.mstate = .faulted ∧ t.err.stopIssue = true ∧
        ∀ n ∈ s.openSessions, Sent (.notice n 0x02 s.glb.mstate.code ModState.faulted.code (leAt m.payload 0 2) (leAt m.payload 2 2)
          s.now 0 0 0) s t)) ∧
  ∀ (s : State) (detail device : Nat), device ∈ s.awaited detail → (∀ d ∈ s.awaited detail, device ≤ d) →
    let u := { s with drv := { s.drv with lostValid := true, lostDetail := detail, lostDevice := device,
                                          restartOver := s.drv.restartOver || detail == 0x06 } }
    (s.glb.mstate ≠ .starting → s.glb.mstate = .running ∨ s.glb.jobStarting = true ∨ detail = 0x06 → exec (.peerLost detail device) s =
      .next (raise u (faultCode 3 PEER_LOST detail) (srcDrover 0) device)) ∧
    (s.glb.mstate = .starting → ∃ t, exec (.peerLost detail device) s = .next t ∧ t.glb.mstate = .faulted ∧ t.glb.failed = true ∧
      t.glb.startFault = faultCode 3 PEER_LOST detail ∧ t.drv.lostValid = true ∧ t.drv.lostDetail = detail ∧ t.drv.lostDevice = device)

/-- An automatic restart runs a FAULTED module again under the next epoch and is answered (R289, R324, R327, R328, R424).
AUTOMATIC_RESTART of a stopped flock, by the verdict manager, with restarts left, takes the newest complete slot or the image contents:
RESTART with the slot and the next epoch goes down the control tree, and where the slot can be read and is not refused the module runs
again under that epoch, its restart counted. A RESTART accepted by a FAULTED worker with a job does the same on it and is answered with
0; a worker in another state stays as it is and answers WRONG_STATE. A RESTART_ACK of success is noted by a manager that waits for
more; the last one ends the wait, and the verdict manager tells every open session. One of failure leaves the verdict manager FAULTED,
and it restarts the flock no more. -/
def Obligations.RestartRunsTheFlockAgain : Prop :=
  (∀ s : State, s.isVerdictManager = true → s.glb.mstate = .faulted → s.glb.job = true → s.glb.trip = none → s.board.gated = false →
    s.drv.faultSent = true → s.drv.restartsUsed < s.drv.restartMax → s.drv.restartFrom = none → s.drv.restartSeen = false → s.drv.restartOver = false →
    s.pwr.state = 0 →
    let slot := if s.upd.anyDone then s.upd.newest else 0xFF
    ∃ t, exec .automaticRestart s = .next t ∧
      (∀ p ∈ s.job.flock.ctrlTree, Sent (.drover p (laneOf { type := mRestart })
        (s.dmsg { type := mRestart, mcast := true, payload := le 1 slot ++ le 4 (s.drv.epoch + 1) })) s t) ∧
      ((s.slotChecked (s.slotUpsets slot) slot).2 = none → t.glb.mstate = .running ∧ t.drv.epoch = s.drv.epoch + 1 ∧
        t.drv.restartsUsed = s.drv.restartsUsed + 1)) ∧
  (∀ (s : State) (port : Nat) (m : DMsg) (ups : Upsets), s.accepts port m mRestart = true → s.drv.role ≠ 2 → s.drv.role ≠ 3 →
    let ack (r : Nat) : DMsg := { type := mRestartAck, dst := s.managerDev, payload := le 1 r }
    (s.glb.mstate = .faulted → s.glb.job = true → s.glb.trip = none → s.board.gated = false →
      (s.slotChecked ups (leAt m.payload 0 1)).2 = none →
      ∃ t, exec (.restart port ⟨m, ups⟩) s = .next t ∧ t.glb.mstate = .running ∧ t.drv.epoch = leAt m.payload 1 4 ∧ Sent (t.posted (ack 0)) s t) ∧
    (s.glb.mstate ≠ .faulted → ∃ t, exec (.restart port ⟨m, ups⟩) s = .next t ∧ t.glb = s.glb ∧ t.gov = s.gov ∧
      Sent (t.posted (ack stWrong)) s t)) ∧
  ∀ (s : State) (port : Nat) (m : DMsg), s.accepts port m mRestartAck = true → s.isManager = true → m.src ∈ s.restartAwaited →
    s.drv.restartFrom ≠ none →
    (leAt m.payload 0 1 = 0 → ∃ t, exec (.restartAck port m) s = .next t ∧ t.glb = s.glb ∧ m.src ∈ t.drv.restartAcks ∧
      ((∃ d ∈ s.restartAwaited, d ≠ m.src) → t.drv.restartFrom = s.drv.restartFrom ∧ t.out = s.out) ∧
      ((∀ d ∈ s.restartAwaited, d = m.src) → t.drv.restartFrom = none ∧ (s.isVerdictManager = true → ∀ n ∈ s.openSessions,
        Sent (.notice n 0x03 ModState.faulted.code ModState.running.code 0 s.drv.device s.now s.glb.resumeStep s.drv.restartSlot
          s.drv.epoch) s t))) ∧
    (leAt m.payload 0 1 ≠ 0 → s.isVerdictManager = true → ∃ t, exec (.restartAck port m) s = .next t ∧ t.glb.mstate = .faulted ∧
      t.drv.restartOver = true)

/-- Formation: agreement, probes, offsets and READY, or a start-up that fails (R296, R297, R298, R399, R404). FLOCK_FORMATION of a
start-up at order 13 with every port in use up begins order 14: a manager sends FORM with its nonce to every other member. FORM is
answered with nonce, serial number, stepping and agreement digest. A FORM_ACK awaited with the manager's nonce is noted when serial
number and digest agree; one that differs fails the start-up with IMAGE_FORMAT, detail 0x40. PROBE is answered with the times of
receipt and sending. PROBE_REPLY ends an exchange; with the 16th the offset is that of an exchange with the smallest round trip. FORMED
from its manager gives a worker its offset and error bound, and a start-up at order 14 is READY. -/
def Obligations.TheFlockForms : Prop :=
  (∀ s : State, s.glb.mstate = .starting → s.glb.order = 13 → s.portsReady = true →
    ∃ t, exec .flockFormation s = .next t ∧
      (s.drv.form = 2 → t.glb.mstate = .ready ∧ t.glb.order = 15) ∧
      (s.drv.form ≠ 2 → s.isManager = false → t.glb.mstate = .starting ∧ t.glb.order = 14 ∧ t.drv.form = 1 ∧ t.out = s.out) ∧
      (s.drv.form ≠ 2 → s.isManager = true → ∀ d ∈ s.otherMembers,
        Sent (s.posted { type := mForm, dst := d, payload := t.drv.formNonce }) s t)) ∧
  (∀ (s : State) (port : Nat) (m : DMsg), s.accepts port m mForm = true → s.drv.role ≠ 0 →
    ∃ t, exec (.form port m) s = .next t ∧ t.drv.form ≠ 0 ∧
      Sent (s.posted { type := mFormAck, dst := m.src, payload := s.formAck (slice m.payload 0 16) }) s t) ∧
  (∀ (s : State) (port : Nat) (m : DMsg), s.accepts port m mFormAck = true → s.drv.form = 1 → s.isManager = true → s.drv.phase = 0 →
    m.src ∈ s.otherMembers → slice m.payload 0 16 = s.drv.formNonce →
    let agrees := (m.src, leAt m.payload 16 16) ∈ s.job.flock.members ∧ leAt m.payload 34 32 = s.job.agree
    (agrees → ∃ t, exec (.formAck port m) s = .next t ∧ m.src ∈ t.drv.formAcks) ∧
    (¬ agrees → ∃ t, exec (.formAck port m) s = .next t ∧ t.glb.mstate = .faulted ∧ t.glb.failed = true ∧ t.drv.form = 3 ∧
      t.glb.startFault = faultCode 3 IMAGE_FORMAT 0x40)) ∧
  (∀ (s : State) (port : Nat) (m : DMsg), s.accepts port m mProbe = true →
    ∃ t, exec (.probe port m) s = .next t ∧
      Sent (s.posted { type := mProbeReply, dst := m.src, payload := le 8 (s.localTime (srcDrover 0) 2) ++ le 8 (s.localTime (srcDrover 0) 3) }) s t) ∧
  (∀ (s : State) (port : Nat) (m : DMsg) (p : Probe) (t1 : Nat), s.accepts port m mProbeReply = true →
    (s.drv.probes.find? fun p => p.device == m.src) = some p → p.t1 = some t1 →
    ∃ t, exec (.probeReply port m) s = .next t ∧ ∃ q ∈ t.drv.probes, q.device = m.src ∧
      q.done = p.done ++ [(t1, leAt m.payload 0 8, leAt m.payload 8 8, s.localTime (srcDrover 0) 4)] ∧
      (q.done.length < 16 → q.offset = none) ∧ (16 ≤ q.done.length → q.offset = (bestExchange q.done).map exchangeOffset)) ∧
  (∀ (l : List (Nat × Nat × Nat × Nat)), l ≠ [] → ∃ x ∈ l, bestExchange l = some x ∧ ∀ y ∈ l, roundTrip x ≤ roundTrip y) ∧
  ∀ (s : State) (port : Nat) (m : DMsg), s.accepts port m mFormed = true → s.drv.role = 1 → s.drv.form = 1 → m.src = s.managerDev →
    ∃ t, exec (.formed port m) s = .next t ∧ t.drv.form = 2 ∧ t.drv.offset = signed 64 (leAt m.payload 0 8) ∧
      t.drv.offsetErr = s.offsetBound ∧ (s.glb.mstate = .starting → s.glb.order = 14 → t.glb.mstate = .ready ∧ t.glb.order = 15)

/-! ## Queues -/

/-- Requests wait in order, and the first is granted unless credit, pool or gate bars it (R31, R224, R225, R226, R227, R231).
CELL_REQUEST of a SEND that asks and has not asked before, of the control port for the next message of its stream that waits, or of a
Drover slice for its next packet, places the request behind the earlier ones with the amount asked for and the time. CELL_GRANT, in a
module that is not halted, first opens the step gate where the gate admits the first request of a stage for a later step, whatever else
bars it. Where then nothing bars the first request and its requester's turn at the region's pool has come, it answers a next state in
which that request has gone from the front; one of a SEND stands among the grants, and the first message of a stream that it serves
waits no more. A request that credit, the pool, the gate or another's turn holds stays. -/
def Obligations.QueuesGrantInOrder : Prop :=
  (∀ (s : State) (k : Nat) (q : Queue), s.queue? k = some q →
    let placed (who : Requester) (step amount : Nat) (given : Nat) : Prop :=
      ∃ t, exec (.cellRequest k who given) s = .next t ∧
        t.queue? k = some { q with reqs := q.reqs ++ [{ who := who, step := step, amount := amount, since := s.board.time }] } ∧
        (∀ k', k' ≠ k → t.queue? k' = s.queue? k')
    (∀ b st pos n c, s.sendAsks k b st pos = some c → q.asked (.stage b st pos) = false →
      placed (.stage b st pos) c.n (s.requestBytes k (.stage b st pos) n) n) ∧
    (∀ j x m n, s.streamOf k = some (j, x) → x.waiting[q.waits .ingress]? = some m → placed .ingress 0 m.length n) ∧
    ∀ r step m n, (s.drv.packets.filter fun x => x.1 == k)[q.waits (.drover r)]? = some (k, step, m) →
      placed (.drover r) step m.length n) ∧
  ∀ (s : State) (k : Nat) (q : Queue) (x : QReq) (rest : List QReq), s.queue? k = some q → q.reqs = x :: rest → s.glb.halted = false →
    s.inState [.ready, .running, .paused] = true →
    let u := s.gateOpens k
    ∃ p, u.queue? k = some p ∧ p.reqs = q.reqs ∧ p.grants = q.grants ∧
      p.gate = (if !q.broken && x.isStage && q.gate < x.step && s.gateAdmits q x then x.step else q.gate) ∧
      (u.grantBar p x = none → u.hasTurn (qRegion k) x.who = true → ∃ t q', exec (.cellGrant k) s = .next t ∧ t.queue? k = some q' ∧
        q'.reqs = rest ∧ (∀ b st pos, x.who = .stage b st pos → q'.grants = q.grants ++ [x.who]) ∧
        ∀ j y m l, x.who = .ingress → s.streamOf k = some (j, y) → y.waiting = m :: l →
          (find? j t.hci.streams).map (·.waiting) = some l) ∧
      (u.grantBar p x ≠ none ∨ u.hasTurn (qRegion k) x.who = false → exec (.cellGrant k) s = .next u)

/-- Written units become visible in order, and egress sends what stands before MARK0 up to poison (R222, R227, R231, R234).
DATA_VISIBLE of a queue with units written in closed cells at the front of its reservations answers a next state in which those units,
and no others, can now be read, with VIS and VCNT after them. EGRESS_FORWARD of a sound egress queue with units before MARK0, on a
control port that is up: with no upset and no poison every such unit is sent on the stream in order and has left the queue; a poisoned
unit at the head is not sent, and POISON_COMMIT is reported unless issue has stopped already; a structural parity error breaks the
queue and nothing is sent. -/
def Obligations.DataBecomesVisibleAndLeaves : Prop :=
  (∀ (s : State) (k : Nat) (q : Queue), s.queue? k = some q → s.visibleNow k q ≠ [] →
    let seen := s.visibleNow k q
    ∃ t, exec (.dataVisible k) s = .next t ∧
      t.queue? k = some { q with units := q.units.drop seen.length, ready := q.ready ++ seen,
                                 vis := q.nextPos (q.units.drop seen.length), vcnt := Min.min 65535 (q.ready ++ seen).length }) ∧
  ∀ (s : State) (k : Nat) (q : Queue) (ups : Upsets), s.queue? k = some q → q.ent.cls = 2 → q.broken = false → (s.port 32).st = 2 →
    let upto := q.ready.takeWhile fun u => u.first != q.mark0
    (ups.queue = [] → upto ≠ [] → (∀ u ∈ upto, ∀ p ∈ (s.readUnit k q.ent u).2, p = false) →
      ∃ t q', exec (.egressForward k ups) s = .next t ∧ t.queue? k = some q' ∧ q'.ready = q.ready.drop upto.length ∧
        ∀ u ∈ upto, Sent (.egress q.ent.stream k (s.readUnit k q.ent u).1) s t) ∧
    (ups.queue = [] → ∀ u rest, upto = u :: rest → (∃ p ∈ (s.readUnit k q.ent u).2, p = true) → s.err.stopIssue = false →
      ∃ t, exec (.egressForward k ups) s = .next t ∧ t.out = s.out ∧ t.queue? k = some q ∧
        t = raise (s.count 8 (qRegion k) 9 ((s.readUnit k q.ent u).2.filter id).length) (faultCode 2 POISON_COMMIT 0x04) (srcPort 32) k) ∧
    (structural ups ≠ [] → upto ≠ [] → ∃ t q', exec (.egressForward k ups) s = .next t ∧ t.queue? k = some q' ∧ q'.broken = true ∧
      t.out = s.out)

/-- A queue not read in time raises its notice, and a module that cannot go on reports DEADLOCK (R221, R229, R230, R238).
QUEUE_READ_TIMEOUT of a waiting queue that has not raised its notice since it was read answers a next state in which it has, and its
region shows the queue and counts one more. DEADLOCK on a running module whose issue is not stopped and in which no stage waits for an
external reason reports DEADLOCK at level 3: with no waiting stage under detail 0x06; otherwise under the detail of a stage that has
waited longest, with its queue, stage and block in the context (which of several is free, log 24). -/
def Obligations.WaitingQueuesAndDeadlocksAreNoticed : Prop :=
  (∀ (s : State) (k : Nat) (q : Queue), s.queue? k = some q → q.toFlag = false → s.queueWaits k q = true →
    ∃ t, exec (.queueReadTimeout k) s = .next t ∧ (t.queue? k).map (·.toFlag) = some true ∧ (t.rgn (qRegion k)).toValid = true ∧
      (t.rgn (qRegion k)).toQueue = qLocal k ∧ (t.rgn (qRegion k)).toCnt = satAdd max32 (s.rgn (qRegion k)).toCnt 1) ∧
  ∀ s : State, s.glb.mstate = .running → s.err.stopIssue = false → s.externalWait = false →
    let u := { s with fresh := s.fresh + 1 }
    (s.stuck = [] → exec .deadlock s = .next (raise u (faultCode 3 DEADLOCK 0x06) (srcRegion 0) 0)) ∧
    (s.stuck ≠ [] → ∃ x ∈ s.stuck, (∀ y ∈ s.stuck, s.waitsSince x ≤ s.waitsSince y) ∧ exec .deadlock s =
      .next (raise u (faultCode 3 DEADLOCK x.1) (srcRegion 0) (x.2.2.2 * 2 ^ 20 + x.2.2.1 % 16 * 2 ^ 16 + x.2.1)))

/-! ## Memory -/

/-- A requested page moves to a free frame with its contents, and keeps its old frame when the move fails (R261, R262, R263, R264,
R267, R341, R342, R349). PAGE_MIGRATION of a requested, mapped page that is neither resident nor moving, with an engine and a frame
free, starts the move to that frame and ends the request; with no frame free the request waits from then on. MIGRATION_COMPLETE with no
fetch of a block of the old frame, or of metadata of either, failing four times and no write of the new one failed for good leaves the
page at the new frame and not moving; otherwise at the old frame. A frame moved keeps the byte at every place. EVICTION below MIG_LOW
free frames (and below MIG_HIGH) starts evicting, and from MIG_HIGH on stops. MIGRATION_WATCHDOG reports WATCHDOG detail 0x02 and the
page keeps its frame. -/
def Obligations.PagesMigrate : Prop :=
  (∀ (s : State) (r p : Nat) (q : PageReq), (s.mem.requests.find? fun x => x.page == p && x.region == r) = some q → s.bringing = true →
    (s.page p).mapped = true → (s.page p).resident = false → (s.page p).moving = false → s.movesIn r < s.job.migConc →
    (∀ c f, s.firstFrame (upOrder r) = some (c, f) → ∃ t, exec (.pageMigration r p) s = .next t ∧
      t.page p = { s.page p with moving := true } ∧ t.mem.requests = s.mem.requests.erase q ∧
      t.mem.moves = s.mem.moves ++ [{ page := p, up := true, ctl := c, frame := f, since := q.since, region := r }]) ∧
    (s.firstFrame (upOrder r) = none → ∃ t, exec (.pageMigration r p) s = .next t ∧ t.mem.pages = s.mem.pages ∧ t.mem.moves = s.mem.moves ∧
      { q with waitFrom := some (q.waitFrom.getD s.board.time) } ∈ t.mem.requests)) ∧
  (∀ (s : State) (p : Nat) (ups : Upsets) (m : Move), (s.mem.moves.find? fun m => m.page == p) = some m →
    let old := frameBlocks (frameBase (s.page p).ctl (s.page p).frame)
    let new := frameBlocks (frameBase m.ctl m.frame)
    ((∀ b ∈ old, crcFails ups b < 4 ∧ crcFails ups (metaBlock b) < 4) → (∀ b ∈ new, wrDead ups b = false ∧ crcFails ups (metaBlock b) < 4) →
      ∃ t, exec (.migrationComplete p ups) s = .next t ∧
      (t.page p).ctl = m.ctl ∧ (t.page p).frame = m.frame ∧ (t.page p).lp = !m.up ∧ (t.page p).moving = false) ∧
    ((∃ b ∈ old, 4 ≤ crcFails ups b) ∨ (∃ b ∈ new, wrDead ups b = true) → ∃ t, exec (.migrationComplete p ups) s = .next t ∧
      (t.page p).ctl = (s.page p).ctl ∧ (t.page p).frame = (s.page p).frame ∧ (t.page p).moving = false ∧ t.mem.data = s.mem.data)) ∧
  (∀ (s : State) (c f c' f' k : Nat), k < 2 ^ 21 →
    readByte (s.moveFrame c f c' f').mem.data (frameBase c' f' * 256 + k) = readByte s.mem.data (frameBase c f * 256 + k)) ∧
  (∀ s : State, s.migrating = true → s.job.loaded = true →
    (s.freeHbm < s.job.migLow → s.freeHbm < s.job.migHigh → ∃ t, exec .eviction s = .next t ∧ t.mem.evicting = true ∧
      ∀ p c f, s.freeHbm + (s.mem.moves.filter fun m => !m.up).length < s.job.migHigh →
        s.oldestPage (s.evictable.filter fun p => s.movesIn ((s.page p).ctl / 4) < s.job.migConc) = some p →
        s.firstFrame (homeOrder false p) = some (c, f) → 0 < s.job.migConc → ∃ m ∈ t.mem.moves, m.page = p ∧ m.up = false ∧ m.ctl = c ∧ m.frame = f) ∧
    (s.job.migHigh ≤ s.freeHbm → ∃ t, exec .eviction s = .next t ∧ t.mem.evicting = false ∧ t.mem.moves = s.mem.moves)) ∧
  ∀ (s : State) (p r : Nat), ((s.mem.moves.find? fun m => m.page == p && m.up).map (·.region)).or
      ((s.mem.requests.find? fun x => x.page == p).map (·.region)) = some r →
    exec (.migrationWatchdog p) s = .next (raise (s.dropMove p) (faultCode 3 WATCHDOG 0x02) (srcRegion r) p) ∧
      (s.dropMove p).page p = { s.page p with moving := false }

/-- A device's temperature sets its band at once upward, downward with 2 °C to spare; refresh changes nothing readable (R344, R345).
MEM_TEMPERATURE_READ of one of the 24 controllers, with the memory on, answers a next state in which temperature and band are those of
the reading; a band 3 reading is reported as THERMAL at level 3 with the controller in the context. A band goes up at once to that of
the temperature; it stays while the temperature is above its lower bound less 2 °C; a device in a band is left to the next lower one
only there. MEM_REFRESH notes the bank's refresh and changes nothing else. -/
def Obligations.TemperatureBandsAndRefresh : Prop :=
  (∀ (s : State) (ctl temp : Nat), ctl < 24 → temp < 256 → s.memOn = true →
    ∃ t, exec (.memTemperatureRead ctl temp) s = .next t ∧ look 0 ctl t.mem.temp = temp ∧
      look 0 ctl t.mem.band = bandAfter temp (look 0 ctl s.mem.band) ∧
      (bandAfter temp (look 0 ctl s.mem.band) ≠ 3 → t.err = s.err) ∧
      (bandAfter temp (look 0 ctl s.mem.band) = 3 → ∃ u, t = raise u (faultCode 3 THERMAL (if isHbm ctl then 0x21 else 0x22)) (srcMem ctl)
        (temp * 65536 + ctl) ∧ u.err = s.err)) ∧
  (∀ t b : Nat, (b ≤ bandOf t → bandAfter t b = bandOf t) ∧ (0 < b → bandFloor b < t + 2 → bandOf t < b → bandAfter t b = b) ∧
    (0 < b → t + 2 ≤ bandFloor b → bandAfter t b = bandAfter t (b - 1)) ∧
    (t < 85 ↔ bandOf t = 0) ∧ (85 ≤ t ∧ t < 95 ↔ bandOf t = 1) ∧ (95 ≤ t ∧ t < 105 ↔ bandOf t = 2) ∧ (105 ≤ t ↔ bandOf t = 3)) ∧
  ∀ (s : State) (ctl bank : Nat), ctl < 24 → s.memOn = true →
    exec (.memRefresh ctl bank) s =
      .next { s with mem := { s.mem with refresh := put (ctl * 65536 + bank) s.board.time s.mem.refresh } }

/-! ## Links -/

/-- Blocks are taken in order and once; a bad or unexpected one is answered by a NAK; a NAK or a timer resends (R302, R355, R356, R357,
R358, R359, R362). On a link that is up or asleep: FLIT_BLOCK of a block that FEC or the CRC refuses, or of a good sequenced block out
of order, takes nothing, leaves a NAK pending and sends one if none was. A good sequenced block with the number expected raises the
number, ends the pending NAK, and a block that is a whole message is handed on; the first block of a message that goes on waits at
once, or has left, on the same lane of every port with a link that the message goes on by. A NAK has every unacked block sent again
with the present ack. NAK_RESEND_TIMER repeats a pending NAK. ACK_TIMEOUT resends; after three resends of the oldest block the link
retrains, and after a retrain too it goes down. -/
def Obligations.BlocksAreAcceptedInOrder : Prop :=
  (∀ (s : State) (p : Nat) (bytes : List Byte), s.opticsOn = true → (s.port p).st = 2 ∨ (s.port p).st = 4 →
    let x := s.port p; let f := readFlit bytes
    let refused (fec : Bool) : Prop := ∃ t, exec (.flitBlock p bytes fec) s = .next t ∧ (t.port p).e = x.e ∧ (t.port p).nakPending = true ∧
      (t.port p).delivered = x.delivered ∧ (x.nakPending = false → Sent (.flit p { kind := 2, nak := true, ack := x.ack }) s t)
    refused true ∧ (crc32c (bytes.take 508) ≠ leAt bytes 508 4 → refused false) ∧
    (crc32c (bytes.take 508) = leAt bytes 508 4 →
      (f.nak = false → f.seqd = true → f.seq ≠ x.e → refused false) ∧
      (f.nak = false → f.seqd = true → f.seq = x.e → ∃ t, exec (.flitBlock p bytes false) s = .next t ∧
        (t.port p).e = (x.e + 1) % 65536 ∧ (t.port p).nakPending = false ∧
        (f.kind = 1 → f.abort = false → f.som = true → f.eom = true →
          (t.port p).delivered = x.delivered ++ [(f.key + 128 * f.sess, f.payload)]) ∧
        (f.kind = 1 → f.abort = false → f.som = true → ∀ l, s.onwardOf p f.key f.payload = some l →
          ∀ q ∈ l, (s.port q).st = 2 ∨ (s.port q).st = 3 ∨ (s.port q).st = 4 → ∃ g : Flit,
            (g ∈ (t.port q).txq ∨ Sent (.flit q g) s t) ∧ g.key = f.key ∧ g.som = true ∧ g.eom = f.eom ∧ g.payload = f.payload)) ∧
      (f.nak = true → (x.freeThrough f.ack).replay ≠ [] → (x.freeThrough f.ack).resends < 3 →
        ∃ t, exec (.flitBlock p bytes false) s = .next t ∧
          ∀ g ∈ (x.freeThrough f.ack).replay, Sent (.flit p { g with ack := x.ack }) s t))) ∧
  (∀ (s : State) (p : Nat), let x := s.port p
    (x.st = 2 → x.nakPending = true → ∃ t, exec (.nakResendTimer p) s = .next t ∧ t.port p = x ∧
      Sent (.flit p { kind := 2, nak := true, ack := x.ack }) s t) ∧
    (x.st = 2 → x.replay ≠ [] → x.resends < 3 → ∃ t, exec (.ackTimeout p) s = .next t ∧ (t.port p).resends = x.resends + 1 ∧
      ∀ g ∈ x.replay, Sent (.flit p { g with ack := x.ack }) s t) ∧
    (x.st = 2 → x.replay ≠ [] → 3 ≤ x.resends → x.retrained = false → ∃ t, exec (.ackTimeout p) s = .next t ∧ (t.port p).st = 3 ∧
      (t.port p).replay = x.replay) ∧
    (x.st = 2 → x.replay ≠ [] → 3 ≤ x.resends → x.retrained = true → ∃ t, exec (.ackTimeout p) s = .next t ∧ (t.port p).st = 5 ∧
      (t.port p).replay = []))

/-- A link comes up by its hellos, retrains with its buffer kept, sleeps and wakes, or goes down (R359, R363, R364, R365, R366, R367,
R368, R402). SIGNAL_DETECT, FEC_LOCK, HELLO_TIMER and HELLO take a training port up exactly when its own hello and the peer's carry the
heard flag and the jobs agree, with the peer's credits; a peer of the wrong kind takes it down with detail 0x04, one of another job
with 0x05. LINK_TRAINING_TIMEOUT names how far training came. LINK_RETRY trains anew. FAST_RETRAIN and LOSS_OF_SIGNAL of an up link
keep the replay buffer, and FEC_LOCK ends the retrain; the third failed RETRAIN_ATTEMPT_TIMEOUT takes it down. HELLO_TIMER sends the
hello in an unsequenced link-control block. LINK_SLEEP and LINK_WAKE take their message and leave numbers and buffers. A link that goes
down shows its detail, and on a port in use stops issue; a message that was going on from it is ended by an abort-flagged block on
every other port with a link that it went on by. LINK_WAIT_EXPIRY fails the start for the lowest port in use that is not up. -/
def Obligations.LinksTrainAndRetrain : Prop :=
  (∀ (s : State) (p : Nat), s.opticsOn = true → let x := s.port p
    (x.st = 1 ∨ x.st = 3 → ∃ t, exec (.signalDetect p) s = .next t ∧ t.port p = { x with signal := true }) ∧
    (x.signal = true → x.st = 1 → ∃ t, exec (.fecLock p) s = .next t ∧ t.port p = { x with locked := true }) ∧
    (x.signal = true → x.st = 3 → ∃ t, exec (.fecLock p) s = .next t ∧ (t.port p).st = 2 ∧ (t.port p).resends = 0 ∧ (t.port p).e = x.e ∧
      x.replay <+: (t.port p).replay) ∧
    (x.st = 2 ∨ x.st = 4 → ¬ (3 ≤ x.resends ∧ x.retrained = true) → ∃ t, exec (.fastRetrain p) s = .next t ∧
      t.port p = { x with st := 3, locked := false, attempts := 1 }) ∧
    (x.st = 2 ∨ x.st = 4 → 3 ≤ x.resends → x.retrained = true → ∃ t, exec (.fastRetrain p) s = .next t ∧ (t.port p).st = 5) ∧
    (x.st = 2 ∨ x.st = 4 → ∃ t, exec (.lossOfSignal p) s = .next t ∧
      t.port p = { x with st := 3, signal := false, locked := false, attempts := 1 }) ∧
    (x.st = 1 ∨ x.st = 3 → ∃ t, exec (.lossOfSignal p) s = .next t ∧ t.port p = { x with signal := false, locked := false }) ∧
    (x.st = 2 → ∃ t, exec (.linkSleep p) s = .next t ∧ (t.port p).st = 4 ∧ (t.port p).e = x.e ∧ (t.port p).replay = x.replay ∧
      (t.port p).txq = x.txq) ∧
    (x.st = 4 → ∃ t, exec (.linkWake p) s = .next t ∧ (t.port p).st = 2 ∧ (t.port p).e = x.e)) ∧
  (∀ (s : State) (p : Nat), s.portTrains p = true → let x := s.port p
    (x.st = 1 → x.locked = true → ∃ t, exec (.helloTimer p) s = .next t ∧ Sent (.hello p (s.ownHello p)) s t ∧
      Sent (.flit p (helloFlit (s.ownHello p) x.ack)) s t ∧
      ((t.port p).st = 2 ↔ x.heard = true ∧ ∃ h, x.peerHello = some h ∧ h.heard = true ∧ (p = 32 ∨ h.job = s.glb.jobId)) ∧
      ∀ h, x.peerHello = some h → (t.port p).st = 2 → (t.port p).e = 0 ∧ (t.port p).nextSeq = 0 ∧ (t.port p).replay = [] ∧
        ∀ k, look 0 k (t.port p).credits = h.credits.getD k 0) ∧
    (∀ h : Hello, x.st = 1 → x.locked = true →
      (h.kind ≠ (if p = 32 then 2 else 0) → exec (.hello p h) s = .next (s.linkDown p 0x04)) ∧
      (h.kind = 0 → p ≠ 32 → h.job ≠ s.glb.jobId → h.job ≠ 0 → s.glb.jobId ≠ 0 → exec (.hello p h) s = .next (s.linkDown p 0x05)) ∧
      (h.kind = (if p = 32 then 2 else 0) → p = 32 ∨ h.job = s.glb.jobId → ∃ t, exec (.hello p h) s = .next t ∧
        (t.port p).heard = true ∧ (t.port p).peerHello = some h ∧ (t.port p).st = if h.heard && x.sentHeard then 2 else 1)) ∧
    (x.st = 1 → exec (.linkTrainingTimeout p) s =
      .next (s.linkDown p (if x.signal = false then 0x01 else if x.locked = false then 0x02 else 0x03))) ∧
    (x.st = 0 ∨ x.st = 5 → ∃ t, exec (.linkRetry p) s = .next t ∧
      t.port p = { x with st := 1, signal := false, locked := false, heard := false, sentHeard := false })) ∧
  (∀ (s : State) (p : Nat), (s.port p).st = 3 →
    ((s.port p).attempts < 3 → ∃ t, exec (.retrainAttemptTimeout p) s = .next t ∧
      t.port p = { s.port p with attempts := (s.port p).attempts + 1 }) ∧
    (3 ≤ (s.port p).attempts → exec (.retrainAttemptTimeout p) s = .next (s.linkDown p (if (s.port p).signal then 0x02 else 0x01)))) ∧
  (∀ (s : State) (p d : Nat), d < 256 → ((s.linkDown p d).port p).st = 5 ∧ ((s.linkDown p d).port p).downValid = true ∧
    ((s.linkDown p d).port p).downDetail = d ∧
    (p < 32 → (s.port p).inUse = true → s.inState [.running, .paused] = true → (s.linkDown p d).err.stopIssue = true) ∧
    (p < 32 → (s.port p).inUse = false → (s.linkDown p d).err.stopIssue = s.err.stopIssue) ∧
    ∀ k l, k < 65 → find? k (s.port p).onward = some l → ∀ q ∈ l, q ≠ p → (s.port q).st = 2 ∨ (s.port q).st = 3 ∨ (s.port q).st = 4 →
      ∃ g : Flit, (g ∈ ((s.linkDown p d).port q).txq ∨ Sent (.flit q g) s (s.linkDown p d)) ∧ g.key = k ∧ g.abort = true ∧ g.eom = true) ∧
  ∀ s : State, s.glb.mstate = .starting → s.glb.order = 13 →
    ((∀ p, p < 32 → (s.port p).inUse = true → (s.port p).st = 2) → exec .linkWaitExpiry s = .next s) ∧
    ∀ p, p < 32 → (s.port p).inUse = true → (s.port p).st ≠ 2 → (∀ q, q < p → (s.port q).inUse = true → (s.port q).st = 2) →
      ∃ t, exec .linkWaitExpiry s = .next t ∧ t.glb.mstate = .faulted ∧ t.glb.failed = true ∧ (t.port p).st = 5 ∧
        (t.port p).downValid = true ∧ t.glb.startFault = faultCode 3 LINK_DOWN (t.port p).downDetail

/-! ## Stopping -/

/-- A stop request spreads once and is acted on; a pause ends with its eighth round (R490, R491, R492, R493, R494, R495, R496).
STOP_REQUEST not seen before goes out on every other fabric port in use and is noted; one seen before, with the same requester's time,
changes nothing more. A pause of a running module becomes the one in force unless one of a lower identifier is; a halt leaves the
module PAUSED and halted; a resume runs a PAUSED module that is not halted, and a running one abandons its pause. PAUSE_MARKER counts
its round for the identifier in force and for no higher one. PAUSE_ROUND_ONE sends the round-1 markers once the module may, and the
eighth round in completes the pause once every packet written is visible, and waits until then; a round that is not in waits. -/
def Obligations.StopRequestsAndPauseRounds : Prop :=
  (∀ (s : State) (port action dev handle time : Nat), port < 32 → s.portUp port = true → 0 < action → action ≤ 3 →
    ((action, dev, handle, time) ∈ s.stop.seen →
      exec (.stopRequest port action dev handle time) s = .next (s.taken port (stopRequestBytes action dev handle time))) ∧
    ((action, dev, handle, time) ∉ s.stop.seen → ∃ t, exec (.stopRequest port action dev handle time) s = .next t ∧
      t.stop.seen = (action, dev, handle, time) :: s.stop.seen ∧
      (∀ q ∈ s.portsInUse, q ≠ port → Sent (.linkCtl q (stopRequestBytes action dev handle time)) s t) ∧
      (action = 1 → s.glb.mstate = .running → t.glb.mstate = .running ∧
        t.stop.id = some (match s.stop.id with
          | some old => if idBefore (dev, handle) old then (dev, handle) else old
          | none => (dev, handle))) ∧
      (action = 2 → s.inState [.running, .paused] = true → t.glb.mstate = .paused ∧ t.glb.halted = true ∧ t.stop.kind = 2 ∧
        t.stop.complete = true ∧ t.stop.id = none) ∧
      (action = 3 → s.glb.mstate = .paused → s.glb.halted = false → t.glb.mstate = .running ∧ t.stop.id = none) ∧
      (action = 3 → s.glb.mstate = .running → t.glb.mstate = .running ∧ t.stop.id = none))) ∧
  (∀ (s : State) (port round dev handle : Nat), port < 32 → s.portUp port = true → 0 < round → round ≤ 8 → s.glb.halted = false →
    (s.stop.id = some (dev, handle) → ∃ t, exec (.pauseMarker port round dev handle) s = .next t ∧ round ∈ (t.port port).rounds) ∧
    ∀ old, s.stop.id = some old → old ≠ (dev, handle) → idBefore (dev, handle) old = false →
      exec (.pauseMarker port round dev handle) s = .next (s.taken port (markerBytes round dev handle))) ∧
  ∀ s : State,
    (∀ dev handle, s.stop.round = 0 → s.roundOneReady = true → s.stop.id = some (dev, handle) →
      ∃ t, exec .pauseRoundOne s = .next t ∧ 1 ≤ t.stop.round ∧ ∀ q ∈ s.portsInUse, Sent (.linkCtl q (markerBytes 1 dev handle)) s t) ∧
    (s.stop.round = 8 → s.roundIn = true → s.glb.mstate = .running →
      (s.allVisible = true → ∃ t, exec .pauseRoundOne s = .next t ∧ t.glb.mstate = .paused ∧ t.stop.kind = 1 ∧ t.stop.complete = true ∧
        t.glb.halted = s.glb.halted) ∧
      (s.allVisible = false → exec .pauseRoundOne s = .next s)) ∧
    (s.stop.round ≠ 0 → s.roundIn = false → exec .pauseRoundOne s = .next s)

/-! ## The host -/

/-- Sessions open in a role and close; streams take packets of their queue's length until they close (R223, R239, R407, R411, R412,
R420). OPEN is refused with BAD_ARGUMENT for an open session or an unlisted role and with NOT_PERMITTED for a fifth operator; otherwise
the session is open in its role. CLOSE of an open session releases it: no handle and no stream but a closing one still names it. A
head-lane message that is no listed kind or too short is counted. STREAM_OPEN binds a free stream to its session; STREAM_CLOSE
completes with the counts once nothing of the stream waits, and waits otherwise; STREAM_MESSAGE of the binding session takes a packet
of the queue's length and counts any other as rejected. While a message of a stream waits for cells, a further block on the stream's
lane leaves the credits owed as they are, and its credit is withheld; once none waits every credit withheld is owed. -/
def Obligations.SessionsAndStreams : Prop :=
  (∀ (s : State) (n : Nat) (msg : List Byte), s.hostUp = true → leAt msg 0 1 = 1 → 16 ≤ msg.length → n < 64 →
    let role := leAt msg 1 1
    let full := 4 ≤ (s.openSessions.filter fun n => (s.sess n).oper).length
    let refused (st : Nat) : Prop := ∃ t, exec (.openSession n msg) s = .next t ∧ Sent (.openReply n st s.now) s t ∧ t.hci = s.hci
    ((s.sess n).isOpen = true ∨ 1 < role → refused stBad) ∧
    ((s.sess n).isOpen = false → role = 1 → full → refused stNotPerm) ∧
    ((s.sess n).isOpen = false → role = 0 ∨ role = 1 ∧ ¬ full → ∃ t, exec (.openSession n msg) s = .next t ∧
      Sent (.openReply n stDone s.now) s t ∧ t.sess n = { isOpen := true, oper := role == 1, next := 1 } ∧
      ∀ k, k ≠ n → t.sess k = s.sess k)) ∧
  (∀ (s : State) (n : Nat), s.hostUp = true → n < 64 → (s.sess n).isOpen = true → ∃ t, exec (.closeSession n) s = .next t ∧
    (t.sess n).isOpen = false ∧ (∀ h ∈ t.hci.handles, h.sess ≠ n) ∧
    ∀ k x, find? k t.hci.streams = some x → x.sess = n → x.closing = true) ∧
  (∀ (s : State) (n : Nat) (msg : List Byte), s.hostUp = true → headLegal msg = false → ∃ t, exec (.hciBadMessage n msg) s = .next t ∧
    t.hci = { s.hci with bad := satAdd max32 s.hci.bad 1 } ∧ t.out = s.out) ∧
  (∀ (s u : State) (c : Cmd) (h : Hnd), s.admitted c 0x70 = some (u, h) →
    (u.streamArg c = none → ∃ t, exec (.streamOpen c) s = .next t ∧ Completed h stBad [] s t) ∧
    ∀ k e, u.streamArg c = some (k, e) →
      (has k u.hci.streams = true → ∃ t, exec (.streamOpen c) s = .next t ∧ Completed h stNoRes [] s t) ∧
      (has k u.hci.streams = false → ∃ t, exec (.streamOpen c) s = .next t ∧ Completed h stDone (le 8 s.now) s t ∧
        find? k t.hci.streams = some { sess := c.sess, queue := e.qid, topen := s.now })) ∧
  (∀ (s u : State) (c : Cmd) (h : Hnd), s.admitted c 0x71 = some (u, h) →
    (u.streamArg c = none → ∃ t, exec (.streamClose c) s = .next t ∧ Completed h stBad [] s t) ∧
    ∀ k e, u.streamArg c = some (k, e) →
      (find? k u.hci.streams = none → ∃ t, exec (.streamClose c) s = .next t ∧ Completed h stWrong [] s t) ∧
      (∀ x, find? k u.hci.streams = some x → x.closing = true → ∃ t, exec (.streamClose c) s = .next t ∧ Completed h stWrong [] s t) ∧
      ∀ x, find? k u.hci.streams = some x → x.closing = false → (∀ y ∈ s.hci.handles, y.opcode = 0x71 → y.arg ≠ k) →
        let waits := x.waiting ≠ [] ∨ (u.queue? x.queue).any (fun q => q.units.any fun y => y.who == .ingress) = true
        let status := if x.rejected ≠ 0 then stBad else if x.missed ≠ 0 then stMissed else stDone
        ∃ t, exec (.streamClose c) s = .next t ∧
          (waits → find? k t.hci.streams = some { x with closing := true } ∧ t.out = u.out) ∧
          (¬ waits → find? k t.hci.streams = none ∧ Completed h status (le 8 x.accepted ++ le 4 x.rejected ++ le 4 x.missed) s t)) ∧
  (∀ (s : State) (k : Nat) (x : Stream), find? k s.hci.streams = some x →
    (x.waiting ≠ [] → (s.owe 32 (streamLane k)).port 32 = s.port 32 ∧
      find? k (s.owe 32 (streamLane k)).hci.streams = some { x with withheld := x.withheld + 1 }) ∧
    (x.waiting = [] → x.withheld ≠ 0 → (s.port 32).st ≠ 2 → look 0 (streamLane k) ((s.endPressure k).port 32).owed =
      look 0 (streamLane k) (s.port 32).owed + x.withheld ∧ find? k (s.endPressure k).hci.streams = some { x with withheld := 0 })) ∧
  ∀ (s : State) (n k : Nat) (data : List Byte) (x : Stream), s.hostUp = true → k < 16 → find? k s.hci.streams = some x → x.closing = false →
    let fits := ∃ q, s.queue? x.queue = some q ∧ q.ent.len = data.length
    ∃ t, exec (.streamMessage n k data) s = .next t ∧
      (x.sess = n → fits → find? k t.hci.streams = some { x with accepted := x.accepted + 1, waiting := x.waiting ++ [data] }) ∧
      (x.sess ≠ n ∨ ¬ fits → find? k t.hci.streams = some { x with rejected := x.rejected + 1 })

/-- Each command of the control port is acknowledged, and refused for its header, room, role or state (R407, R408, R410, R413, R414,
R416, R417). For each of the 18 command rows of the control port that Sys2Proof.Machine.hostCommands lists, and SNAPSHOT in both its
rows, from an open session of a module that serves commands: an illegal header, or a 65th outstanding command of the session, is
refused in the acknowledgement and leaves sessions and handles as they were; any other is acknowledged with the session's next handle,
and completes NOT_PERMITTED for an observer outside its opcodes, else WRONG_STATE where the module state does not admit it. An opcode
outside the table is acknowledged BAD_ARGUMENT. From a session that is not open nothing is answered. In P1 and P2 any of these commands
is held, behind those held before, and nothing else happens. -/
def Obligations.EveryCommandIsAcknowledged : Prop :=
  (∀ (s : State) (i : Cmd → Instr) (op : Nat) (c : Cmd) (ups : Upsets), s.hostUp = true → c.sess < 64 →
    (i, op) ∈ hostCommands ups ∨ (i = .snapshotTake ∧ snapArgs c ≠ some 1 ∨ i = .snapshotWrite ∧ snapArgs c = some 1) ∧ op = 0x20 →
    let x := s.sess c.sess
    let h : Hnd := { handle := c.sess * 2 ^ 26 + x.next, sess := c.sess, tag := c.tag, opcode := op, accepted := s.now }
    let refused (st : Nat) : Prop := ∃ t, exec (i c) s = .next t ∧ Sent (.ack c.sess st 0 c.tag) s t ∧ t.hci = s.hci
    (x.isOpen = true → cmdLegal c = false → refused stBad) ∧
    (x.isOpen = true → cmdLegal c = true → 64 ≤ s.outOf c.sess → refused stNoRes) ∧
    (x.isOpen = true → cmdLegal c = true → s.outOf c.sess < 64 → ∃ t, exec (i c) s = .next t ∧ Sent (.ack c.sess 0 h.handle c.tag) s t ∧
      (x.oper = false → observerMay op = false → Completed h stNotPerm [] s t) ∧
      (x.oper = true ∨ observerMay op = true → s.admits op = false → Completed h stWrong [] s t)) ∧
    (x.isOpen = false → exec (i c) s = .next (s.taken 32 (cmdBytes op c)))) ∧
  (∀ (s : State) (op : Nat) (c : Cmd), s.hostUp = true → (s.sess c.sess).isOpen = true → op ≠ 0x20 → (∀ x ∈ hostCommands {}, x.2 ≠ op) →
    (∃ t, exec (.unlistedOpcode op c) s = .next t ∧ Sent (.ack c.sess stBad 0 c.tag) s t ∧ t.hci = s.hci)) ∧
  ∀ (s : State) (i : Cmd → Instr) (op : Nat) (c : Cmd) (ups : Upsets), s.heldAt 32 = true →
    (i, op) ∈ hostCommands ups ∨ (i = .snapshotTake ∧ snapArgs c ≠ some 1 ∨ i = .snapshotWrite ∧ snapArgs c = some 1) ∧ op = 0x20 ∨
      i = .unlistedOpcode op ∧ op ≠ 0x20 ∧ (∀ x ∈ hostCommands ups, x.2 ≠ op) →
    exec (i c) s = .next { s with hci := { s.hci with held := s.hci.held ++ [i c] } }

/-- Identity, registers, counters, traces, records and power states: what each command answers (R418, R421, R430, R449, R478, R483,
R485, R504). An admitted command with legal arguments: IDENTIFY completes with the module's identity, ATTEST with the body over its
nonce and the device's signature, READ_REGS with the words of its registers, WRITE_REGS with the writes done in order. COUNTERS_READ,
TRACE_READ and ENERGY_REPORT send their messages on VC 24, 22 and 23 and complete when they are gone. TRACE_ARM leaves the regions of
its mask armed and empty with its event mask and depth, or frozen. POWER_STATE enters the state named, or completes REFUSED with the
first refuser's code, which is counted. An entry to P2 that finds a fabric port with blocks not acknowledged is in progress and waits:
at the next idle step (that it is looked at there is the model's choice, log 78) it is undone and refused where Drover traffic or host
work has come up, waits on while a port has not drained, and commits once they have, after which a wake that was held follows. -/
def Obligations.QueriesAndRegistersComplete : Prop :=
  (∀ (s u : State) (c : Cmd) (h : Hnd), s.admitted c 0x01 = some (u, h) → c.args = [] → c.bulkLen = 0 →
    ∃ t, exec (.identify c) s = .next t ∧ Completed h stDone s.identity s t) ∧
  (∀ (s u : State) (c : Cmd) (h : Hnd), s.admitted c 0x02 = some (u, h) → c.args.length = 32 → c.bulkLen = 0 →
    ∃ t, exec (.attest c) s = .next t ∧
      Completed h stDone (s.attestBody c.args ++ le 64 (Config.sm2Sign (s.attestBody c.args)).toNat) s t) ∧
  (∀ (s u : State) (c : Cmd) (h : Hnd), s.admitted c 0x40 = some (u, h) → c.bulkLen = 0 → ∀ n, n = leAt c.args 0 4 → 1 ≤ n → n ≤ 112 →
    c.args.length = 4 + 4 * n → ∀ l, l = (List.range n).map (fun k => leAt c.args (4 + 4 * k) 4) → (∀ a ∈ l, regMapped a = true) →
    ∃ t, exec (.readRegs c) s = .next t ∧ Completed h stDone ((u.readRegs [] l).1.flatMap (le 4)) s t) ∧
  (∀ (s u : State) (c : Cmd) (h : Hnd), s.admitted c 0x41 = some (u, h) → c.bulkLen = 0 → ∀ n, n = leAt c.args 0 4 → 1 ≤ n → n ≤ 56 →
    c.args.length = 4 + 8 * n → ∀ l, l = (List.range n).map (fun k => (leAt c.args (4 + 8 * k) 4, leAt c.args (8 + 8 * k) 4)) →
    (∀ x ∈ l, regMapped x.1 = true) → ∃ t, exec (.writeRegs c) s = .next t ∧ Completed h stDone [] s t ∧
      t.pwr = (l.foldl (fun (s : State) x => s.writeAt x.1 x.2) u).pwr ∧ t.err = (l.foldl (fun (s : State) x => s.writeAt x.1 x.2) u).err) ∧
  (∀ (s u : State) (c : Cmd) (h : Hnd), s.admitted c 0x50 = some (u, h) → c.args.length = 8 → c.bulkLen = 0 → leAt c.args 4 4 < 16 →
    ∀ l, l = groupsOf (leAt c.args 0 4) → (∀ g ∈ l, (groupSize g).isSome = true) →
    let msgs := l.map fun g => u.bankCycles.groupMsg g (leAt c.args 4 4)
    let v := u.bankCycles.strobesMarked (l.flatMap fun g => (instancesOf g (leAt c.args 4 4)).map fun i => (g, i))
    ∃ t, exec (.countersRead c) s = .next t ∧ DataSent v h 24 msgs (le 4 msgs.length ++ le 8 (msgs.map List.length).sum) s t) ∧
  (∀ (s u : State) (c : Cmd) (h : Hnd), s.admitted c 0x52 = some (u, h) → c.args.length = 4 → c.bulkLen = 0 → leAt c.args 0 4 < 16 →
    ∀ rs, rs = (List.range 4).filter (fun r => bitAt (leAt c.args 0 4) r) →
    ((∃ r ∈ rs, (s.rgn r).trace.armed = true ∧ (s.rgn r).trace.frozen = false) → ∃ t, exec (.traceRead c) s = .next t ∧ Completed h stWrong [] s t) ∧
    ((∀ r ∈ rs, (s.rgn r).trace.armed = true → (s.rgn r).trace.frozen = true) → ∃ t, exec (.traceRead c) s = .next t ∧
      DataSent u h 22 (rs.map u.traceMsg) (le 8 ((rs.map u.traceMsg).map List.length).sum ++ le 8 (rs.map fun r => (u.rgn r).trace.drops).sum) s t)) ∧
  (∀ (s u : State) (c : Cmd) (h : Hnd), s.admitted c 0x60 = some (u, h) → c.args.length = 16 → c.bulkLen = 0 →
    0 < leAt c.args 8 4 → leAt c.args 8 4 ≤ 65536 → leAt c.args 12 4 < 2 → (∃ e ∈ s.eng.recs, e.2.sig.isSome = true) →
    leAt c.args 0 8 ≤ s.eng.head →
    let l := (s.reportOf (leAt c.args 0 8) (if leAt c.args 12 4 = 1 then some c.sess else none)).take (leAt c.args 8 4)
    ∃ t, exec (.energyReport c) s = .next t ∧ DataSent u h 23 (l.map ERec.message) (le 4 l.length) s t) ∧
  (∀ (s u : State) (c : Cmd) (h : Hnd), s.admitted c 0x51 = some (u, h) → c.args.length = 32 → c.bulkLen = 0 → leAt c.args 25 7 = 0 →
    (readTrace c.args).legal = true → ∃ t, exec (.traceArm c) s = .next t ∧ Completed h stDone [] s t ∧
      ∀ r, r < 4 → bitAt (readTrace c.args).regions r = true →
        (bitAt (readTrace c.args).flags 1 = true → (s.rgn r).trace.armed = true → (t.rgn r).trace.frozen = true) ∧
        (bitAt (readTrace c.args).flags 1 = false → (t.rgn r).trace = { armed := true, mask := (readTrace c.args).mask, depth := (readTrace c.args).depth } ∧
          t.trc.body = readTrace c.args)) ∧
  (∀ (b : State) (h : Hnd), b.pending = [] → b.board.powerGood = true → b.pwr.busy = true → b.pwr.target = 2 → b.outstanding 0x30 = some h →
    h.sess < 64 → (b.sess h.sess).isOpen = true →
    (∀ code, b.entryBar h = some code → ∃ t, step b = .next t ∧ t.pwr.busy = false ∧ t.pwr.state = b.pwr.state ∧ t.pwr.lastRefuser = code ∧
      Sent (h.completion stRefused [] code 0 b.now) b t) ∧
    (b.entryBar h = none → b.undrained = true → ∃ t, step b = .next t ∧ t.pwr = b.pwr) ∧
    (b.entryBar h = none → b.undrained = false → ∃ t, step b = .next t ∧ Completed h stDone [] b t ∧ t.pwr.busy = false ∧
      (b.pwr.wakeHeld = false → t.pwr.state = 2) ∧ (b.pwr.wakeHeld = true → t.pwr.state = 0))) ∧
  ∀ (s u : State) (c : Cmd) (h : Hnd), s.admitted c 0x30 = some (u, h) → c.args.length = 8 → c.bulkLen = 0 → leAt c.args 1 7 = 0 →
    1 ≤ leAt c.args 0 1 → leAt c.args 0 1 ≤ 3 → s.glb.mstate = .running ∨ s.glb.mstate.permits (leAt c.args 0 1) = true →
    (u.refuser h (s.port 32).owesHost = none → leAt c.args 0 1 ≠ 2 ∨ u.undrained = false → ∃ t, exec (.powerState c) s = .next t ∧
      t.pwr.state = leAt c.args 0 1 ∧ Completed h stDone [] s t) ∧
    (u.refuser h (s.port 32).owesHost = none → leAt c.args 0 1 = 2 → u.undrained = true →
      exec (.powerState c) s = .next { u with pwr := { u.pwr with busy := true, target := 2 } }) ∧
    ∀ code, u.refuser h (s.port 32).owesHost = some code → ∃ t, exec (.powerState c) s = .next t ∧ t.pwr.state = s.pwr.state ∧
      t.pwr.lastRefuser = code ∧ t.pwr.refuse = s.pwr.refuse.set (code - 1) (satAdd max32 (s.pwr.refuse.getD (code - 1) 0) 1) ∧
      Sent (h.completion stRefused [] code 0 s.now) s t

/-- JOB_START, JOB_PAUSE, JOB_HALT, JOB_RESUME and JOB_ABORT (R289, R416, R418, R437, R490, R491, R494, R495, R496). An admitted
JOB_START with a slot that may be restored, or none, begins the job: it is starting under epoch 0, every block stands at the step the
job resumes from, and the handle waits; a job that already starts, a slot refused, one not complete among them, or a failed reload
completes it with its status; a slot whose read fails for good stops the start, which waits for the job fault. JOB_PAUSE and JOB_HALT
and JOB_RESUME spread a stop request on every fabric port in use: a pause is in force from then on and its handle waits; a halt leaves
the module PAUSED and halted; a resume leaves it RUNNING. JOB_ABORT leaves it READY with nothing of the job's messages. -/
def Obligations.JobCommandsRunTheJob : Prop :=
  (∀ (s u : State) (c : Cmd) (h : Hnd) (ups : Upsets), s.admitted c 0x10 = some (u, h) → c.args.length = 8 → c.bulkLen = 0 →
    leAt c.args 1 7 = 0 → ∀ k, k = leAt c.args 0 1 → k = 0 ∨ k = 1 ∨ k = 0xFF →
    (∀ code, s.glb.reloadFault = some code →
      ∃ t, exec (.jobStart ⟨c, ups⟩) s = .next t ∧ Sent (h.completion stJobFault [] 0 code s.now) s t) ∧
    (s.glb.reloadFault = none → s.glb.jobStarting = true ∨ s.job.loaded = false →
      ∃ t, exec (.jobStart ⟨c, ups⟩) s = .next t ∧ Completed h stWrong [] s t) ∧
    (s.glb.reloadFault = none → s.glb.jobStarting = false → s.job.loaded = true →
      let v := u.setHnd { h with arg := k }
      let w : State := { v with glb := { v.glb with jobStarting := true }, err := { v.err with stopIssue := false } }
      let waits (t : State) : Prop := t.glb.jobStarting = true ∧ { h with arg := k } ∈ t.hci.handles ∧ t.glb.mstate = s.glb.mstate
      (∀ st, (w.slotChecked ups k).2 = some st → st ≠ stJobFault → ∃ t, exec (.jobStart ⟨c, ups⟩) s = .next t ∧ Completed h st [] s t) ∧
      ((w.slotChecked ups k).2 = some stJobFault → ∃ t, exec (.jobStart ⟨c, ups⟩) s = .next t ∧ waits t ∧ t.err.stopIssue = true) ∧
      ((w.slotChecked ups k).2 = none → ∃ t, exec (.jobStart ⟨c, ups⟩) s = .next t ∧ waits t ∧ t.glb.resumeStep = (match slotOf k with
          | some n => slotStep (s.slot n)
          | none => 0) ∧ t.drv.epoch = 0 ∧
        ∀ b ∈ s.hosting, (t.blk b).step = t.glb.resumeStep) ∧
      (k = 0xFF → (w.slotChecked ups k).2 = none) ∧
      (k < 2 → slotComplete (s.slot k) = false → (w.slotChecked ups k).2 = some stBad))) ∧
  (∀ (s u : State) (c : Cmd) (h : Hnd), s.admitted c 0x11 = some (u, h) → c.args = [] → c.bulkLen = 0 → s.stop.id = none →
    ∃ t, exec (.jobPause c) s = .next t ∧ t.stop.id = some (s.drv.device, h.handle) ∧
      h ∈ t.hci.handles ∧ t.glb.mstate = s.glb.mstate ∧
      ∀ q ∈ s.portsInUse, Sent (.linkCtl q (stopRequestBytes 1 s.drv.device h.handle s.now)) s t) ∧
  (∀ (s u : State) (c : Cmd) (h : Hnd), s.admitted c 0x12 = some (u, h) → c.args = [] → c.bulkLen = 0 →
    ∃ t, exec (.jobHalt c) s = .next t ∧ t.glb.mstate = .paused ∧ t.glb.halted = true ∧
      Completed h stDone (le 8 s.now) s t ∧
      ∀ q ∈ s.portsInUse, Sent (.linkCtl q (stopRequestBytes 2 s.drv.device h.handle s.now)) s t) ∧
  (∀ (s u : State) (c : Cmd) (h : Hnd), s.admitted c 0x13 = some (u, h) → c.args = [] → c.bulkLen = 0 →
    ∃ t, exec (.jobResume c) s = .next t ∧ t.glb.mstate = .running ∧
      Completed h stDone (le 8 s.now) s t ∧
      ∀ q ∈ s.portsInUse, Sent (.linkCtl q (stopRequestBytes 3 s.drv.device h.handle s.now)) s t) ∧
  ∀ (s u : State) (c : Cmd) (h : Hnd), s.admitted c 0x14 = some (u, h) → c.args = [] → c.bulkLen = 0 →
    ∃ t, exec (.jobAbort c) s = .next t ∧ t.glb.mstate = .ready ∧ t.glb.halted = false ∧ t.err.stopIssue = false ∧ t.drv.stalled = [] ∧
      t.drv.reorder = [] ∧ (∀ r, r < 4 → (t.rgn r).work = []) ∧ Completed h stDone (le 8 s.now) s t

/-- SNAPSHOT, its bulk argument, SNAPSHOT_SHIP, shipped chunks and ABORT_HANDLE (R58, R286, R287, R288, R409, R419, R422, R423).
SNAPSHOT take on the verdict manager of a running job arms the copy for the next commit, and starts it on a paused one. SNAPSHOT write
empties the slot that is not the newest complete one and waits for its bulk argument; BULK_ARGUMENT joins what came before; the whole
argument is checked, and a right one leaves the slot complete, unless a write of it fails for good. SNAPSHOT_SHIP reads a complete slot
and sends every chunk of it to the session or to its device; a read that fails for good ends it and empties the slot. SNAPSHOT_CHUNK
for this device keeps a sound chunk whose writes do not fail; the last one leaves the slot complete exactly when its header's signature
holds; one for another device goes on by its route. ABORT_HANDLE stops a target at its abort point, or reports the status the target
completed with. -/
def Obligations.SnapshotsAreTakenWrittenAndShipped : Prop :=
  (∀ (s u : State) (c : Cmd) (h : Hnd), s.admitted c 0x20 = some (u, h) → snapArgs c = some 0 → c.bulkLen = 0 → s.isVerdictManager = true →
    u.snapRunning h = false → s.nextShipped = false →
    (s.glb.mstate = .running → ∃ t, exec (.snapshotTake c) s = .next t ∧ t.upd = { s.upd with snapArmed := true } ∧ h ∈ t.hci.handles) ∧
    (s.glb.mstate = .paused → s.glb.halted = false → ∃ t, exec (.snapshotTake c) s = .next t ∧ t.upd.snapBusy = true ∧
      t.upd.snapStep = s.gov.step ∧ h ∈ t.hci.handles)) ∧
  (∀ (s u : State) (c : Cmd) (h : Hnd), s.admitted c 0x20 = some (u, h) → snapArgs c = some 1 → s.glb.mstate = .ready →
    s.glb.jobStarting = false → 256 ≤ c.bulkLen → u.snapRunning h = false → s.nextShipped = false → c.bulkLen ≤ s.slotBytes →
    ∃ t, exec (.snapshotWrite c) s = .next t ∧ t.slot s.nextSlot = [] ∧ { h with arg := 1, bulkLen := c.bulkLen } ∈ t.hci.handles) ∧
  (∀ (s : State) (n : Nat) (data : List Byte) (h : Hnd) (ups : Upsets), s.hostUp = true → n < 64 → (s.sess n).isOpen = true →
    (s.hci.handles.find? fun h => h.sess == n && h.opcode == 0x20 && h.arg == 1) = some h →
    (∀ tag rsv, tag ≠ h.tag ∨ rsv ≠ 0 → ∃ t, exec (.bulkArgument n tag rsv ⟨data, ups⟩) s = .next t ∧ Completed h stBad [] s t) ∧
    (data.length + 8 ≤ 2 ^ 24 →
      ((h.bulk ++ data).length < h.bulkLen → ∃ t, exec (.bulkArgument n h.tag 0 ⟨data, ups⟩) s = .next t ∧
        { h with bulk := h.bulk ++ data } ∈ t.hci.handles ∧ t.upd = s.upd) ∧
      ((h.bulk ++ data).length = h.bulkLen → ∀ l, l = h.bulk ++ data →
        let sound := leAt l 0 4 = 0x00005301 ∧ bitAt (leAt l 6 2) 0 = false ∧ leAt l 0x60 32 = 0 ∧ leAt l 0x80 64 = 0
        let legal := ∀ x ∈ slotFormats l, fwLegal x.2 = true
        let ours := leAt l 8 16 = Config.serial.toNat ∧ leAt l 0x40 32 = s.job.layout
        ∃ t, exec (.bulkArgument n h.tag 0 ⟨data, ups⟩) s = .next t ∧ (¬ sound → Completed h stBad [] s t ∧ t.upd = s.upd) ∧
          (sound → ¬ ours → Completed h stSig [] s t ∧ t.upd = s.upd) ∧
          (sound → ours → ¬ legal → Completed h stBad [] s t ∧ t.upd = s.upd) ∧
          let blocks := s.slotBlocks s.nextSlot (s.acceptSlot l).1.length
          (sound → ours → legal → (∀ b ∈ blocks, wrDead ups b = false ∧ crcFails ups (metaBlock b) < 4) →
            slotComplete (t.slot s.nextSlot) = true ∧ t.upd.newest = s.nextSlot ∧
            Completed h stDone (le 1 s.nextSlot ++ le 8 (slotStep (t.slot s.nextSlot))) s t) ∧
          (sound → ours → legal → (∃ b ∈ blocks, wrDead ups b = true) → t.upd = s.upd ∧
            Sent (h.completion stJobFault [] 0 (faultCode 3 CRC_EXHAUST 0x04) s.now) s t)))) ∧
  (∀ (s u : State) (c : Cmd) (h : Hnd) (ups : Upsets), s.admitted c 0x21 = some (u, h) → c.args.length = 8 → c.bulkLen = 0 →
    leAt c.args 4 4 = 0 → leAt c.args 0 1 = 0 ∨ leAt c.args 0 1 = 1 ∨ leAt c.args 0 1 = 0xFF → s.shipping = false →
    ∀ k, s.shipSlot (leAt c.args 0 1) = some k →
    let l := chunksOf (s.slot k); let x := u.readSlot ups k; let dev := leAt c.args 2 2
    (leAt c.args 1 1 = 0 → x.2 = false → ∃ t, exec (.snapshotShip ⟨c, ups⟩) s = .next t ∧
      DataSent x.1 { h with arg := k } 25 l (le 4 l.length ++ le 8 (s.slot k).length) s t) ∧
    (leAt c.args 1 1 = 1 → (∃ r ∈ s.job.flock.routes, r.1 = dev) → x.2 = false → ∃ t, exec (.snapshotShip ⟨c, ups⟩) s = .next t ∧
      ∀ m ∈ l, Sent (.chunk (s.route dev) dev m) s t) ∧
    (leAt c.args 1 1 = 0 ∨ leAt c.args 1 1 = 1 ∧ (∃ r ∈ s.job.flock.routes, r.1 = dev) → x.2 = true →
      ∃ t, exec (.snapshotShip ⟨c, ups⟩) s = .next t ∧ t.slot k = [] ∧
        ∃ d, (d = 2 ∨ d = 3) ∧ Sent (h.completion stJobFault (le 12 0) 0 (faultCode 3 CRC_EXHAUST d) s.now) s t) ∧
    ((∀ b ∈ s.slotBlocks k (s.slot k).length, crcFails ups b < 4 ∧ crcFails ups (metaBlock b) < 4) → x.2 = false)) ∧
  (∀ (s : State) (port src index count : Nat) (data : List Byte) (ups : Upsets), port < 32 → s.portUp port = true →
    (s.upd.snapBusy = false → s.nextShipped = false → (∀ h ∈ s.hci.handles, h.opcode = 0x20 → h.arg ≠ 1) → data.length ≤ chunkSize →
      index < count → count * chunkSize ≤ s.slotBytes →
      let old := if index = 0 then [] else s.upd.chunks
      let got := put index data old
      let image := (List.range count).flatMap fun i => look [] i got
      let blocks := s.chunkBlocks s.nextSlot index data.length
      ∃ t, exec (.snapshotChunk port src index count data.length (crc32c data) ⟨⟨s.drv.device, data⟩, ups⟩) s = .next t ∧
        t.upd.newest = s.upd.newest ∧
        ((∃ b ∈ blocks, wrDead ups b = true) → t.upd.chunks = old ∧ t.slot s.nextSlot = []) ∧
        ((∀ b ∈ blocks, wrDead ups b = false ∧ crcFails ups (metaBlock b) < 4) →
          ((∃ i, i < count ∧ has i got = false) → t.upd.chunks = got ∧ t.slot s.nextSlot = []) ∧
          ((∀ i, i < count → has i got = true) → t.upd.chunks = [] ∧ t.slot s.nextSlot =
            if slotComplete image && Config.sm2Verify (Config.peerKey src) (image.take 0x80) (BitVec.ofNat 512 (leAt image 0x80 64))
            then image else []))) ∧
    ∀ dst len crc : Nat, dst ≠ s.drv.device → (∃ r ∈ s.job.flock.routes, r.1 = dst) →
      ∃ t, exec (.snapshotChunk port src index count len crc ⟨⟨dst, data⟩, ups⟩) s = .next t ∧ t.upd = s.upd ∧
        Sent (.chunk (s.route dst) dst (chunkBytes index count len crc data)) s t) ∧
  ∀ (s u : State) (c : Cmd) (h : Hnd), s.admitted c 0x7F = some (u, h) → c.args.length = 8 → c.bulkLen = 0 → leAt c.args 4 4 = 0 →
    ∀ n, n = leAt c.args 0 4 → n ≠ h.handle → (s.sess c.sess).oper = true ∨ n / 2 ^ 26 = c.sess →
    (∀ x v, u.target n = some x → x.handle ≠ h.handle → (u.setHnd { h with arg := x.handle }).abortNow x = some v → ∃ t, exec (.abortHandle c) s = .next t ∧
      t.hci.won = satAdd 0xFFFF s.hci.won 1 ∧ Completed h stDone (le 1 stAborted ++ le 7 0) s t) ∧
    (∀ x, u.target n = some x → x.handle ≠ h.handle → x.opcode = 0x30 → x.sending = none → s.pwr.busy = true → ∃ t, exec (.abortHandle c) s = .next t ∧
      t.pwr.busy = false ∧ t.pwr.state = s.pwr.state ∧ t.pwr.lastRefuser = 0x06 ∧ Completed h stDone (le 1 stAborted ++ le 7 0) s t) ∧
    (∀ x, u.target n = some x → (u.setHnd { h with arg := x.handle }).abortNow x = none → ∃ t, exec (.abortHandle c) s = .next t ∧
      { h with arg := x.handle } ∈ t.hci.handles) ∧
    (u.target n = none → ∀ st, find? n (u.sess (n / 2 ^ 26)).remembered = some st → ∃ t, exec (.abortHandle c) s = .next t ∧
      Completed h stAlready (le 1 st ++ le 7 0) s t)

/-! ## Power and energy -/

/-- WAKE returns the module to P0; rail samples add to the accumulators and lose nothing (R417, R424, R436, R440, R441, R452, R470).
WAKE of a powered module that is neither OFF nor STARTING ends a power state: it is in P0, the time of the exit is kept, no saved
register is left, and from P1 and P2 every open session is told, with the module state as it was; then the messages held in P1 and P2
(commands and other messages of sessions, Drover's, stop requests and markers) are taken in the order of their arrival. In P0 it
changes nothing, but during an entry it is held. A domain whose rail is off has samples of 0. RAIL_SAMPLE of six samples adds each
domain's sample, and for each missing period before it the mean of its neighbours, to the accumulator and its fraction; a missing
sample leaves both and counts as a missing period of the domain; a period with a missing sample is one gap, also where a lost event had
counted it; every outstanding handle takes its share and its gap; the seconds that came full count in the bins of their dies, and no
bin falls. -/
def Obligations.WakeAndRailSamples : Prop :=
  (∀ s : State, s.board.powerGood = true → s.glb.mstate ≠ .off → s.glb.mstate ≠ .starting → s.pwr.state ≠ 0 → s.pwr.busy = false →
    let w := s.wake
    w.pwr.state = 0 ∧ w.pwr.wakeTime = s.board.time ∧ w.pwr.saved = [] ∧ w.hci.held = s.hci.held ∧
    (s.pwr.state ≠ 3 → w.glb.mstate = s.glb.mstate) ∧
    exec .wake s = runAll s.hci.held { w with hci := { w.hci with held := [] } } ∧
    ∃ t, exec .wake s = .next t ∧ (s.hci.held = [] → t.pwr.state = 0) ∧
      (s.pwr.state ≠ 3 → ∀ n ∈ s.openSessions, Sent (.notice n 0x04 s.pwr.state 0 0 s.drv.device s.now 0 0 0) s t)) ∧
  (∀ (i : Instr) (rest : List Instr) (s t : State), runAll [] s = .next s ∧ (runHeld i s = .next t → runAll (i :: rest) s = runAll rest t)) ∧
  (∀ (s : State) (c : Cmd) (ups : Upsets) (n k a d h time op len crc : Nat) (l : List Byte) (p : Nat) (m : DMsg),
    (∀ x ∈ hostCommands ups, exec (x.1 c) s = runHeld (x.1 c) s) ∧
    ∀ i ∈ [Instr.snapshotTake c, .snapshotWrite c, .unlistedOpcode op c, .openSession n l, .closeSession n, .hciBadMessage n l,
           .bulkArgument n k a ⟨l, ups⟩, .streamMessage n k l, .snapshotChunk p a n k len crc ⟨⟨d, l⟩, ups⟩, .head p m, .grant p m, .grad p m,
           .param p ⟨m, ups⟩, .ring p m, .ringFinal p m, .vote p m, .verdict p m, .fault p m, .stop p m, .restart p ⟨m, ups⟩, .restartAck p m,
           .form p m, .formAck p m, .probe p m, .probeReply p m, .formed p m, .badDroverMessage p m, .stopRequest p a d h time,
           .pauseMarker p a d h], exec i s = runHeld i s) ∧
  (∀ s : State, s.glb.mstate ≠ .starting → s.pwr.state = 0 → s.pwr.busy = false → exec .wake s = .next s) ∧
  (∀ s : State, s.glb.mstate ≠ .starting → s.pwr.state = 0 → s.pwr.busy = true →
    exec .wake s = .next { s with pwr := { s.pwr with wakeHeld := true } }) ∧
  ∀ (s : State) (nj : List (Option Nat)) (dies : List DieRead), s.board.powerGood = true → nj.length = 6 → s.eng.acc.length = 6 → s.eng.frac.length = 6 →
    s.eng.lastSample.length = 6 → s.eng.missing.length = 6 → let got := nj.zipIdx.map fun x => if s.railOff x.2 then some 0 else x.1
    ∃ t, exec (.railSample ⟨nj, dies⟩) s = .next t ∧
      t.eng.acc.length = 6 ∧ t.eng.frac.length = 6 ∧ t.eng.lastSample.length = 6 ∧ t.eng.missing.length = 6 ∧
      t.age.hist = (dies.foldl Age.spent s.age).hist ∧ (∀ k, s.age.hist.getD k 0 ≤ t.age.hist.getD k 0) ∧
      (∀ d e, got[d]? = some (some e) → let sum := s.eng.frac.getD d 0 + sampleEnergy (s.eng.lastSample.getD d 0) (s.eng.missing.getD d 0) e
        t.eng.acc.getD d 0 = (s.eng.acc.getD d 0 + sum / 1000000) % 2 ^ 64 ∧ t.eng.frac.getD d 0 = sum % 1000000 ∧
        t.eng.lastSample.getD d 0 = e ∧ t.eng.missing.getD d 0 = 0) ∧
      (∀ d, got[d]? = some none → t.eng.acc.getD d 0 = s.eng.acc.getD d 0 ∧ t.eng.frac.getD d 0 = s.eng.frac.getD d 0 ∧
        t.eng.lastSample.getD d 0 = s.eng.lastSample.getD d 0 ∧ t.eng.missing.getD d 0 = s.eng.missing.getD d 0 + 1) ∧
      (let gap := none ∈ got ∧ s.eng.lost = false
       (gap → t.eng.gapTotal = s.eng.gapTotal + 1 ∧ t.eng.gaps = satAdd max32 s.eng.gaps 1) ∧
       (¬ gap → t.eng.gapTotal = s.eng.gapTotal ∧ t.eng.gaps = s.eng.gaps) ∧ t.eng.lost = false ∧
       t.hci.handles.map (·.handle) = s.hci.handles.map (·.handle) ∧
       ∀ k (hk : k < s.hci.handles.length) (hk' : k < t.hci.handles.length),
         t.hci.handles[k].shares = s.eng.sharesOf s.hci.handles[k] got (s.hci.handles.length + b2n (s.glb.mstate == .running)) ∧
         (gap → t.hci.handles[k].gaps = s.hci.handles[k].gaps + 1) ∧ (¬ gap → t.hci.handles[k].gaps = s.hci.handles[k].gaps))

/-- Records take the next numbers, are signed in order over the digest of the one before, and the head is saved (R442, R445, R446,
R447, R448, R450, R453, R469). INTERVAL_RECORD_TIMER, with the chain started and an interval in progress, closes a record of kind 2
over the interval with the energy since its start: it is written under the next sequence number, to be signed, or waits where records
wait already or 1,000 numbers were taken within 1 s; the next interval starts there. RECORD_SIGNED, with what the rate allows of the
waiting records written first, gives the oldest body that waits for it the digest of the newest signed record and the device's
signature, and makes it the head. CHAIN_HEAD_SAVE writes head and digest into a lifetime record. SIGN on a manager whose policy asks
for it does so with a flock record over the staged entries, which takes the numbers of its annex too. A write of stage word 11 appends
an entry up to 256; CLEAR discards them. -/
def Obligations.RecordsEnterTheChain : Prop :=
  (∀ s : State, s.mgmtUp = true → s.pwr.state = 0 → s.eng.isRange = false → s.eng.started = true → s.eng.oldest ≤ s.eng.nextSeq →
    ∃ t r, exec .intervalRecordTimer s = .next t ∧ r.kind = 2 ∧ r.start = s.eng.baseStart ∧ r.stop = s.board.time ∧
      r.energy = energyFrom s.eng.baseAcc s.eng.acc ∧ r.gaps = s.eng.gapTotal - s.eng.baseGaps ∧ r.sig = none ∧
      t.eng.baseStart = s.board.time ∧ t.eng.baseAcc = s.eng.acc ∧
      (s.eng.waiting = [] → s.eng.taken s.board.time < 1000 → find? s.eng.nextSeq t.eng.recs = some r ∧ r.seq = s.eng.nextSeq ∧
        t.eng.nextSeq = s.eng.nextSeq + 1 ∧ t.eng.queue = s.eng.queue ++ [s.eng.nextSeq] ∧ t.eng.waiting = []) ∧
      (1000 ≤ s.eng.taken s.board.time → t.eng.waiting = s.eng.waiting ++ [r] ∧ t.eng.recs = s.eng.recs ∧ t.eng.nextSeq = s.eng.nextSeq ∧
        t.eng.queue = s.eng.queue)) ∧
  (∀ (s : State) (q : Nat) (rest : List Nat) (r : ERec), s.mgmtUp = true → s.pwr.state = 0 → let e := s.admitRecs.eng
    e.queue = q :: rest → find? q e.recs = some r → ∃ t r', exec .recordSigned s = .next t ∧ find? q t.eng.recs = some r' ∧
      r' = { r with prev := s.eng.headDigest, sig := r'.sig } ∧ r'.sig = some (Config.sm2Sign r'.body).toNat ∧ t.eng.queue = rest ∧
      t.eng.head = q ∧ t.eng.headDigest = (Config.sm3 r'.bytes).toNat ∧ ∀ k, k ≠ q → find? k t.eng.recs = find? k e.recs) ∧
  (∀ (s : State), (s.eng.waiting = [] → s.admitRecs = s) ∧
    s.admitRecs.eng.taken s.board.time ≤ Nat.max 1000 (s.eng.taken s.board.time)) ∧
  (∀ s : State, s.mgmtUp = true → s.pwr.state = 0 → s.pwr.busy = false → s.eng.started = true → ∃ t, exec .chainHeadSave s = .next t ∧
    t.flash.chainSeq = s.eng.head ∧ t.flash.chainDigest = s.eng.headDigest ∧ t.eng.lastSave = s.board.time ∧
    ∃ r ∈ t.flash.life, r.kind = 0x0005 ∧ r.seq = s.flash.lifeSeq ∧ r.prev = lifePrev s ∧
      r.body = le 8 s.eng.head ++ le 32 s.eng.headDigest) ∧
  (∀ s : State, s.mgmtUp = true → s.glb.mstate ≠ .starting → s.eng.started = true → s.drv.role = 2 ∨ s.drv.role = 3 →
    bitAt s.job.energyFlags 1 = true → s.eng.entries ≠ [] → s.eng.entries.length ≤ 256 → s.eng.oldest ≤ s.eng.nextSeq →
    let n := 1 + annexSlots s.eng.entries.length
    ∃ t r, exec .sign s = .next t ∧ r.kind = 4 ∧ r.annex = annexBytes s.eng.entries ∧ t.eng.entries = [] ∧
      (s.eng.waiting = [] → s.eng.taken s.board.time + n ≤ 1000 → find? s.eng.nextSeq t.eng.recs = some r ∧ t.eng.nextSeq = s.eng.nextSeq + n) ∧
      (1000 ≤ s.eng.taken s.board.time → t.eng.waiting = s.eng.waiting ++ [r] ∧ t.eng.nextSeq = s.eng.nextSeq)) ∧
  ∀ s : State, s.winAnswers .eng = true → s.glb.mstate ≠ .starting → (∃ t, exec .clear s = .next t ∧ t.eng = { s.eng with entries := [] }) ∧
    ∀ v : Reg, (s.eng.entries.length < 256 → ∃ t, exec (.engFlkStageAppend v) s = .next t ∧
        t.eng = { s.eng with entries := s.eng.entries ++ [s.eng.stage.take 11 ++ [v.toNat]] }) ∧
      (256 ≤ s.eng.entries.length → exec (.engFlkStageAppend v) s = .next s)

/-! ## Errors -/

/-- A report enters the log, a job fault stops issue, and the earliest one latches and leaves the module FAULTED (R36, R416, R418,
R424, R454, R455, R456, R458, R462, R463, R464). REPORT of a legal code and source: merged, it counts in its entry with the new time;
otherwise it takes the entry at WR, and with 1,024 entries unread the oldest is overwritten and counted. A job fault on a running or
paused module stops issue and waits for the latch; a contained one stops nothing; a notice, and a job fault that stops no job, sets
NOTICE. FIRST_FAULT_WINDOW latches the earliest of the module's own reports, or the fault that STOP carried, where the latch is free,
and keeps a held one; a module whose issue is stopped is FAULTED from then on. A job fault while a job starts stops it without a latch:
when the window closes the start ends and its module stays READY (that it does not latch is read from R456, log 45). -/
def Obligations.ReportsAreLoggedAndTheFirstLatches : Prop :=
  (∀ (s : State) (code source ctx time : Nat), s.mgmtUp = true → code < 65536 → 0 < codeClass code → codeClass code ≤ 0x14 →
    srcLegal source = true → ∃ t, exec (.report code source ctx time) s = .next t ∧
      (∀ i x, mergeTarget s.err code source time = some i → find? (logSlot i) s.err.log = some x →
        find? (logSlot i) t.err.log = some { x with count := satAdd 0xFFFFFFFF x.count 1, last := time } ∧ t.err.wr = s.err.wr) ∧
      (mergeTarget s.err code source time = none →
        find? (logSlot s.err.wr) t.err.log = some { code := code, source := source, first := time, last := time, ctx := ctx } ∧
        t.err.wr = (s.err.wr + 1) % 2048 ∧
        (s.err.unread = 1024 → t.err.rd = (s.err.rd + 1) % 2048 ∧ t.err.overwritten = satAdd 0xFFFF s.err.overwritten 1 ∧
          bitAt t.err.alert 3 = true) ∧
        (s.err.unread ≠ 1024 → t.err.rd = s.err.rd ∧ t.err.overwritten = s.err.overwritten)) ∧
      (disposition s code ctx = .jobFault → s.inState [.running, .paused] = true → t.err.stopIssue = true ∧
        t.err.window = s.err.window ++ [({ code := code, source := source, first := time, last := time, ctx := ctx }, none)] ∧
        t.err.windowAt = some (s.err.windowAt.getD s.board.time)) ∧
      (disposition s code ctx = .jobFault → s.inState [.running, .paused] = false → s.glb.jobStarting = true → alwaysFaults code = false →
        t.err.stopIssue = true ∧ t.err.window = s.err.window ∧
        t.err.quiet = s.err.quiet ++ [({ code := code, source := source, first := time, last := time, ctx := ctx }, none)] ∧
        t.err.windowAt = some (s.err.windowAt.getD s.board.time)) ∧
      (disposition s code ctx = .contained → t.err.stopIssue = s.err.stopIssue ∧ t.err.window = s.err.window) ∧
      (disposition s code ctx = .notice ∨ disposition s code ctx = .jobFault ∧ s.inState [.running, .paused] = false ∧ alwaysFaults code = false →
        bitAt t.err.alert 2 = true)) ∧
  (∀ (s : State) (w : Nat) (x : LogEnt) (dev : Option Nat), s.err.windowAt = some w → s.err.chosen.or (chosenOf s.err.quiet) = some (x, dev) →
    ∃ t, exec .firstFaultWindow s = .next t ∧ t.err.window = [] ∧ t.err.quiet = [] ∧ t.err.windowAt = none ∧
      (s.err.valid = false → s.err.window ≠ [] → t.err.valid = true ∧ t.err.code = x.code ∧ t.err.source = x.source ∧
        t.err.time = x.first ∧ t.err.ctx = x.ctx ∧
        t.err.remote = dev.isSome ∧ t.err.device = dev.getD s.drv.device ∧ bitAt t.err.alert 0 = true) ∧
      (s.err.valid = true ∨ s.err.window = [] → t.err.valid = s.err.valid ∧ t.err.code = s.err.code ∧ t.err.source = s.err.source ∧
        t.err.time = s.err.time) ∧
      (s.err.stopIssue = true → s.inState [.running, .paused] = true → t.glb.mstate = .faulted ∧ ∀ n ∈ s.openSessions,
        Sent (.notice n 0x02 s.glb.mstate.code ModState.faulted.code x.code (dev.getD s.drv.device) s.now 0 0 0) s t) ∧
      (s.glb.mstate = .ready → s.glb.jobStarting = true → (∀ y ∈ s.err.window ++ s.err.quiet, alwaysFaults y.1.code = false) →
        t.glb.mstate = .ready ∧ t.glb.jobStarting = false ∧ t.err.stopIssue = false)) ∧
  ∀ e : Err, (∃ y, (y, none) ∈ e.window) → ∃ x, e.chosen = some (x, none) ∧ (x, none) ∈ e.window ∧
    ∀ y, (y, none) ∈ e.window → x.first < y.first ∨ x.first = y.first ∧ x.source ≤ y.source

/-- Temperatures, the management controller, the reference clock, droops, overruns and mesh errors (R37, R41, R456, R457, R458, R459,
R460, R510, R512, R513, R527). THERMAL_TRIP drives THERMTRIP_N, keeps the report over the loss of the rails, and leaves no job, no
session, every port dark, and nothing of what the memory devices held (what lost memory reads as is the model's choice, log 142). A die
from 110 °C and an optical engine from 80 °C raise THERMAL, the management controller's three failures WATCHDOG, and each stops issue
on a running module. The reference clock lost raises WATCHDOG detail 0x05, in every power state; 100 µs later the islands are gated; on
its return they are clocked. SUPPLY_DROOP counts. EVENT_OVERRUN counts every loss and raises CDC_OVERRUN at the first since the flag
was cleared. A mesh flit is sent again up to three times, then CRC_EXHAUST is raised (which flit failed is free, log 48). What is
raised reaches the log, but for a contained report or a notice behind four of its island (a region's blocks count together) within 2
µs, which may be dropped and counted (free, log 141). -/
def Obligations.PhysicalEventsRaiseTheirFaults : Prop :=
  (∀ (s : State) (die temp : Nat), die < 4 → 125 ≤ temp → temp < 256 → s.board.powerGood = true → s.glb.mstate ≠ .off → s.glb.trip = none →
    ∃ t, exec (.thermalTrip die temp) s = .next t ∧ t.board.thermTrip = true ∧ t.glb.job = false ∧ t.pwr.state = 0 ∧
      (∃ x, t.glb.trip = some x ∧ x.code = faultCode 3 THERMAL 0x02 ∧ x.ctx = temp * 65536 + die) ∧
      (∀ p, p < 33 → (t.port p).st = 0) ∧ (∀ n, (t.sess n).isOpen = false) ∧ t.mem.data = [] ∧ t.upd.slots = [] ∧ t.eng.recs = [] ∧ (s.glb.mstate ≠ .faulted → t.err.stopIssue = true)) ∧
  (∀ (s : State), s.mgmtUp = true →
    (∀ die temp, die < 4 → 110 ≤ temp → temp < 256 → exec (.dieOvertemperature die temp) s =
      .next (raise s (faultCode 3 THERMAL 0x01) (srcRegion die) (temp * 65536 + die))) ∧
    (∀ port temp, port < 33 → 80 ≤ temp → temp < 256 → s.opticsOn = true → exec (.opticalEngineOvertemperature port temp) s =
      .next (raise s (faultCode 3 THERMAL 0x03) (srcPort port) (temp * 65536 + port))) ∧
    exec .firmwareWatchdog s = .next (raise s (faultCode 3 WATCHDOG 0x01) srcMgmt 0) ∧
    exec .lockstepDivergence s = .next (raise s (faultCode 3 WATCHDOG 0x03) srcMgmt 0) ∧
    exec .identityTimeout s = .next (raise s (faultCode 3 WATCHDOG 0x04) srcMgmt 0)) ∧
  (∀ (s : State) (code src ctx : Nat),
    let passed (u t : State) : Prop := ∃ r, t = reportAt { u with err := { u.err with recent := r } } code src ctx s.stamp
    (s.stamped.bufferFull code src ctx = false → passed s.stamped (raise s code src ctx)) ∧
    (s.stamped.bufferFull code src ctx = true → passed (takeFree s.stamped).2 (raise s code src ctx) ∨
      (raise s code src ctx).err.log = s.err.log ∧ (raise s code src ctx).err.dropped = satAdd 0xFFFF s.err.dropped 1 ∧
        bitAt (raise s code src ctx).err.alert 3 = true)) ∧
  (∀ (s : State) (cls d src ctx : Nat), cls = THERMAL ∨ cls = WATCHDOG → d < 256 → s.inState [.running, .paused] = true →
    (raise s (faultCode 3 cls d) src ctx).err.stopIssue = true) ∧
  (∀ s : State, (s.board.refRunning = true → ∃ t, exec .referenceClockLoss s = .next t ∧
      t.board = { s.board with refRunning := false, refLostAt := s.board.time } ∧
      (s.board.powerGood = true → s.glb.bootRom = false → s.inState [.ready, .running, .paused] = true → t.err.stopIssue = true)) ∧
    (s.board.refRunning = false → s.board.powerGood = true → ∃ t, exec .islandClockGate s = .next t ∧ t.board = { s.board with gated := true }) ∧
    (s.board.refRunning = false → ∃ t, exec .referenceClockReturn s = .next t ∧ t.glb = s.glb ∧
      t.board = { s.board with refRunning := true, gated := false })) ∧
  (∀ (s : State) (b : Nat), b < 256 → s.computeOn = true →
    ((s.blk b).excluded = false → ∃ t, exec (.supplyDroop b) s = .next t ∧
      t.blk b = { s.blk b with droop := satAdd max32 (s.blk b).droop 1 } ∧ ∀ c, c ≠ b → t.blk c = s.blk c) ∧
    ∃ t n, exec (.meshFlitCrcFail b) s = .next t ∧ (n = 1 ∨ n = (s.rgn (regionOf b)).meshTry + 1) ∧
      (n < 4 → (t.rgn (regionOf b)).meshTry = n ∧ (t.rgn (regionOf b)).meshResend = satAdd max32 (s.rgn (regionOf b)).meshResend 1 ∧
        bitAt (t.rgn (regionOf b)).sticky 5 = true ∧ t.err = s.err) ∧
      (4 ≤ n → ∃ u, t = raise u (faultCode 2 CRC_EXHAUST 0x10) (srcRegion (regionOf b)) b ∧ u.err = s.err ∧
        (u.rgn (regionOf b)).meshTry = 0)) ∧
  ∀ (s : State) (src line : Nat), srcLegal src = true → line / 8 = src / 4096 → line % 8 < cdcLines (src / 4096) →
    s.board.powerGood = true → s.srcPowered src = true → let x := s.cdcOf src (line % 8)
    ∃ t, exec (.eventOverrun src line) s = .next t ∧ t.cdcOf src (line % 8) = { flag := true, lost := satAdd 0xFFFF x.lost 1 } ∧
      (x.flag = true → t.err = s.err) ∧
      (x.flag = false → ∃ u, t = raise u (faultCode (srcLevel src) CDC_OVERRUN line) src line ∧ u.err = s.err) ∧
      t.eng.gapTotal = s.eng.gapTotal + (if line = 0x30 then 1 else 0) ∧ (line = 0x30 → t.eng.lost = true)

/-- A measurement due begins at its point, plans every block within limits and is written to the journal (R376, R465, R466, R467, R469,
R470, R474). AGEING_DUE and NOW, with no measurement in progress, begin one at once where no job runs and the islands are clocked, and
note it as due otherwise. AGEING_MEASUREMENT_END gives a block read once the plan of R467 and leaves blocks not read at their offset
and cap; the newest version of the journal's plan is the plan in force, and an ageing record is written. Every plan keeps its offset
within −20 to 60 mV, and one not left short has at least the slack required. SUMMARY_TIMER writes a summary of the totals, which it
leaves. -/
def Obligations.AgeingMeasurementsAndPlans : Prop :=
  (∀ s : State, s.age.busy = false → let free := s.pwr.state = 0 ∧ s.pwr.busy = false ∧ s.glb.trip = none ∧ s.board.gated = false ∧ s.inState [.ready, .paused, .faulted] = true
    let begun : State := { s with age := { s.age with busy := true, due := false } }
    let noted : State := { s with age := { s.age with due := true } }
    (s.mgmtUp = true → free → exec .ageingDue s = .next begun) ∧ (s.mgmtUp = true → ¬ free → exec .ageingDue s = .next noted) ∧
    (s.winAnswers .age = true → s.glb.mstate ≠ .starting → free → exec .now s = .next begun) ∧
    (s.winAnswers .age = true → s.glb.mstate ≠ .starting → ¬ free → exec .now s = .next noted)) ∧
  (∀ (s : State) (reads : List AgeRead), s.age.busy = true → s.computeOn = true → ∃ t, exec (.ageingMeasurementEnd reads) s = .next t ∧
    t.age.busy = false ∧ t.age.due = false ∧ t.age.last = s.board.time ∧ t.age.p0ns = 0 ∧ t.flash.planNow = some t.marginPlan ∧
    (∃ r ∈ t.flash.life, r.kind = 0x0004 ∧ r.seq = s.flash.lifeSeq ∧ r.body = t.ageBody reads) ∧
    (∀ b, (∀ r ∈ reads, r.blk ≠ b) → (t.blk b).offset = (s.blk b).offset ∧ (t.blk b).cap = (s.blk b).cap) ∧
    ∀ r, reads = [r] → r.blk < 256 → (s.blk r.blk).excluded = false →
      let p := replan (s.blk r.blk).offset (s.blk r.blk).cap s.job.mhz (leastSlack r.at0) (leastSlack r.at1)
      (t.blk r.blk).offset = p.offset ∧ (t.blk r.blk).cap = p.cap ∧ (t.blk r.blk).slack = p.slack ∧ (t.blk r.blk).short = p.short) ∧
  (∀ (off : Int) (cap mhz : Nat) (s0 s1 : Int), 0 < mhz → let p := replan off cap mhz s0 s1
    p.offset ≤ 60 ∧ -20 ≤ p.offset ∧ (p.short = false → 30 ≤ p.slack) ∧ (p.cap < mhz ∨ p.cap = 1900)) ∧
  ∀ s : State, s.pwr.state = 0 → s.pwr.busy = false → s.mgmtUp = true → ∃ t, exec .summaryTimer s = .next t ∧
    t.age.lastSummary = s.board.time ∧ t.age.hist = s.age.hist ∧ t.age.resid = s.age.resid ∧
    ∃ r ∈ t.flash.life, r.kind = 0x0002 ∧ r.seq = s.flash.lifeSeq ∧ r.body = t.summaryBody

/-! ## Trace and registers -/

/-- Records wait in the FIFO or drop; the trigger fires once; regions freeze; a capture records every counter (R479, R480, R483, R484,
R498). TRACE_RECORD of a wanted record, or of a watch pair, in a capturing region joins the input FIFO, of which the buffer then takes
some of the oldest (how many is free, log 54); where it does not fit into 256 entries it is dropped whole and counted, and a marker
with the number of drops joins once there is room. Elsewhere it changes nothing. TRACE_TIME_TRIGGER at its time and FORCE fire the
trigger once per arming, in every capturing region that has not taken one, for its own depth. TRACE_FREEZE freezes a region whose
records after the trigger are written; DISARM freezes every armed one. PERIODIC_CAPTURE offers a record of every counter of every
enabled group to its region, where that captures and wants it: it stands in the buffer or its FIFO, unless records were dropped or the
ring has wrapped (without a trigger condition; the trace counts of group 11 change as they are captured and are left out here). -/
def Obligations.TracesTriggerAndFreeze : Prop :=
  (∀ (s : State) (r : Nat) (x : TRec) (second : Option TRec), r < 4 → s.computeOn = true →
    (second = none ∧ x.kind ≠ 0x28 ∧ x.kind ≠ 0x29 ∨ x.kind = 0x28 ∧ ∃ y, second = some y ∧ y.kind = 0x29) →
    let b := (s.rgn r).trace; let l := x :: second.toList
    (b.capturing = false ∨ (∃ y ∈ l, b.wants y.kind = false) → exec (.traceRecord r ⟨x, second⟩) s = .next s) ∧
    (b.capturing = true → (∀ y ∈ l, b.wants y.kind = true) → ∃ t, exec (.traceRecord r ⟨x, second⟩) s = .next t ∧
      (let u := (t.rgn r).trace; let quiet := b.triggered = false ∧ s.trc.body.kind = 0
       (b.fifo.length + l.length ≤ 256 → ∃ m : List TRec, (∀ y ∈ m, y.kind = 0x3F) ∧ u.fifo <:+ b.fifo ++ l ++ m ∧
        (quiet → (t.rgn r).trcDrop = (s.rgn r).trcDrop ∧ u.drops = b.drops ∧ ∀ y ∈ m, y.obj = b.dropsSince)) ∧
       (256 < b.fifo.length + l.length → b.drops + l.length ≤ u.drops ∧ ∃ m : List TRec, (∀ y ∈ m, y.kind = 0x3F) ∧ u.fifo <:+ b.fifo ++ m ∧
        (quiet → (t.rgn r).trcDrop = satAdd max32 (s.rgn r).trcDrop l.length ∧ u.drops = b.drops + l.length ∧
          ∀ y ∈ m, y.obj = b.dropsSince + l.length))))) ∧
  (∀ s : State, let fires (i : Instr) : Prop := (s.trc.fired = true → exec i s = .next s) ∧
      (s.trc.fired = false → (∃ r, r < 4 ∧ (s.rgn r).trace.awaits = true) → ∃ t, exec i s = .next t ∧ t.trc.fired = true ∧
        t.trc.trigTime = s.now ∧ ∀ r, r < 4 →
          ((s.rgn r).trace.awaits = true → (t.rgn r).trace.triggered = true ∧ (t.rgn r).trace.trigTime = s.now ∧
            (t.rgn r).trace.left = (s.rgn r).trace.depth * 32) ∧
          ((s.rgn r).trace.awaits = false → t.rgn r = s.rgn r))
    (s.trc.body.kind = 5 → s.trc.body.arg ≤ s.board.time → s.computeOn = true → fires .traceTimeTrigger) ∧
    (s.winAnswers .trc = true → s.glb.mstate ≠ .starting → fires .force)) ∧
  (∀ (s : State) (r : Nat), r < 4 → (s.rgn r).trace.ended = true → (s.rgn r).trace.armed = true → ∃ t, exec (.traceFreeze r) s = .next t ∧
    (t.rgn r).trace.frozen = true ∧ (t.rgn r).trace.recs = (s.rgn r).trace.recs) ∧
  (∀ s : State, s.winAnswers .trc = true → s.glb.mstate ≠ .starting → ∃ t, exec .disarm s = .next t ∧ ∀ r, r < 4 →
    ((s.rgn r).trace.armed = true → (t.rgn r).trace.frozen = true) ∧ (t.rgn r).trace.recs = (s.rgn r).trace.recs) ∧
  ∀ s : State, s.computeOn = true → s.job.ctrMs ≠ 0 → s.pwr.busy = false → ∃ t, exec .periodicCapture s = .next t ∧ t.trc.lastCapture = s.board.time ∧
    (s.trc.body.kind = 0 → ∀ g n i k, g < 32 → g ≠ 11 → bitAt s.job.ctrMask g = true → groupSize g = some n →
      i ∈ instancesOf g 15 → k < n → let r := traceRegion (instanceSrc g i)
      (s.rgn r).trace.capturing = true → (s.rgn r).trace.triggered = false → bitAt (s.rgn r).trace.mask 12 = true →
        (s.rgn r).trace.drops < (t.rgn r).trace.drops ∨ (t.rgn r).trace.wrapped = true ∨
        ∃ y ∈ (t.rgn r).trace.recs ++ (t.rgn r).trace.fifo, y.kind = 0x21 ∧ y.src = instanceSrc g i ∧ s.board.time ≤ y.start ∧ y.start ≤ s.board.time + 4 ∧
          y.detail = g * 256 + k ∧ y.obj = s.bankCycles.ctr g i k)

/-- Register reads latch and clear, writes take effect, and the sideband answers, repeats or refuses (R12, R14, R241, R463, R464, R473,
R499, R500, R501, R502, R503, R505). QUE_DESC_SEL captures a descriptor; a write of RD consumes log entries forward and not beyond WR;
VALID written re-arms the latch, so that what waited for it latches no more; a read of ERR_LOG_0 latches words 1 to 7, one of a LO
register its partner; a read of an RC field leaves it 0; a flag cleared through GLB_CDC or BLK_CDC is clear and no loss is. During
STARTING these writes and those of SIGN, CLEAR, NOW, FORCE, DISARM, WAKE and the staged entries, but for RD, change nothing and count.
Nor does WRITE_REGS write then. A write of an unmapped offset changes nothing, one over the sideband counts. A sideband transaction of
the right form answers, a read with its data and its PEC (the polynomial is the family's, log 157); one of another count or an
unaligned offset or a bad PEC is NACKed at its byte and counted; the repeat sends the last response again; the alert response names the
address. -/
def Obligations.RegistersAnswerTheirPaths : Prop :=
  (∀ (s : State) (r : Nat) (v : Reg), s.winAnswers .rgn = true → s.glb.mstate ≠ .starting → r < 4 → ∃ t, exec (.queDescSel r v) s = .next t ∧
    t.rgn r = { s.rgn r with descSel := v.toNat % 65536, descCap := ((s.queue? (r * 65536 + v.toNat % 65536)).map Queue.bits).getD 0 }) ∧
  (∀ (s : State) (v : Reg), s.winAnswers .err = true → let d := field v.toNat 26 16
    (∃ t, exec (.errLogPtrRd v) s = .next t ∧
      t.err = { s.err with rd := if (d + 2048 - s.err.rd) % 2048 ≤ s.err.unread then d % 2048 else s.err.wr }) ∧
    (s.glb.mstate ≠ .starting → ∃ t, exec .errFirstValidClear s = .next t ∧ t.err.valid = false ∧ (s.err.valid = false → t = s) ∧
      (s.err.valid = true → t.err = { s.err with valid := false, window := [], quiet := s.err.quiet ++ s.err.window })) ∧
    ∃ t, exec (.errLog0Read .sideband) s = .next t ∧ t.err = s.err ∧
      ∀ k, k < 7 → find? (0x4044 + 4 * k) t.sb.latches = some (s.logWord (k + 1))) ∧
  (∀ (s : State) (a : Nat) (r h : RegId), regAt a = some r → r.isLo = true → regAt (a + 4) = some h → s.winAnswers r.win = true →
    (∃ t, exec (.loRegisterRead .sideband a) s = .next t ∧ find? (a + 4) t.sb.latches = some (s.regWord h)) ∧
    exec (.loRegisterRead .command a) s = .next s) ∧
  (∀ (s : State) (a : Nat) (r : RegId) (path : Path), regAt a = some r → r.isRc = true → s.winAnswers r.win = true →
    ∃ t, exec (.rcFieldRead path a) s = .next t ∧
      (r = .drvFoldTbl → look 0 s.drv.foldSel t.drv.peak = 0) ∧ (∀ g, r = .glbCdc ∨ r = .blkCdc g → t.regWord r < 65536) ∧
      (r ≠ .glbCdc → r ≠ .drvFoldTbl → (∀ g, r ≠ .blkCdc g) → t.regWord r = 0)) ∧
  (∀ (s : State) (b : Option Nat) (mask : Nat), (b = none → s.winAnswers .glb = true) → (∀ g, b = some g → s.winAnswers .blk = true ∧ g < 256) →
    let src := (match b with | none => s.cdc.sel | some g => srcBlock g)
    s.glb.mstate ≠ .starting → srcLegal src = true → s.srcPowered src = true → ∃ t, exec (.glbCdcFlagsClear b mask) s = .next t ∧
      ∀ i, i < (if b = none then 8 else 3) → (t.cdcOf src i).flag = ((s.cdcOf src i).flag && !bitAt mask i) ∧
        (t.cdcOf src i).lost = (s.cdcOf src i).lost) ∧
  (∀ (s : State) (r g mask : Nat) (v : Reg), s.glb.mstate = .starting → r < 4 → g < 256 →
    ∀ i ∈ [Instr.queDescSel r v, .errFirstValidClear, .glbCdcFlagsClear none mask, .glbCdcFlagsClear (some g) mask, .sign, .clear,
           .engFlkStageAppend v, .now, .force, .disarm, .wake], exec i s = .next s.badAccess) ∧
  (∀ (s : State) (a : Nat) (v : Reg), (regAt a = none → exec (.registerWrite .command a v) s = .next s ∧
      exec (.registerWrite .sideband a v) s = .next s.badAccess) ∧
    (s.glb.mstate = .starting → exec (.registerWrite .command a v) s = .next s) ∧
    (∀ r, s.glb.mstate ≠ .starting → regAt a = some r → s.winAnswers r.win = true → r ≠ .pwrCtl →
      exec (.registerWrite .command a v) s = .next (s.writePlain r v.toNat)) ∧
    (a = 0x4024 → s.glb.mstate ≠ .starting → s.winAnswers .err = true → ∃ t, exec (.registerWrite .command a v) s = .next t ∧ t.err = { s.err with alertEn := v.toNat % 16 }) ∧
    (a = 0x4020 → s.glb.mstate ≠ .starting → s.winAnswers .err = true → ∃ t, exec (.registerWrite .command a v) s = .next t ∧
      ∀ i, i < 4 → bitAt t.err.alert i = (bitAt s.err.alert i && !bitAt v.toNat i))) ∧
  ∀ s : State, s.board.powerGood = true →
    let nacked (i : Instr) (byte : Nat) : Prop := ∃ t, exec i s = .next t ∧ Sent (.sideband (some byte) 0 []) s t ∧ t.sb = s.badAccess.sb
    let badPec (i : Instr) (byte : Nat) : Prop := ∃ t, exec i s = .next t ∧ Sent (.sideband (some byte) 0 []) s t ∧ t.err = s.err ∧
      t.sb = { s.sb with pecErr := satAdd 4095 s.sb.pecErr 1 }
    let pec (code : Nat) (written : List Byte) (last : List Nat) (count : Nat) : Byte :=
      pecOf ([BitVec.ofNat 8 (2 * s.board.addr), BitVec.ofNat 8 code, BitVec.ofNat 8 written.length] ++ written ++
        [BitVec.ofNat 8 (2 * s.board.addr + 1), BitVec.ofNat 8 count] ++ last.flatMap (le 4))
    let told (last : List Nat) : List Reg := last.map fun v => BitVec.ofNat 32 v
    (∀ count bytes ok, count ≠ 8 → nacked (.sidebandWrite count bytes ok) 2 ∧ nacked (.sidebandBlockRead ⟨count, ok⟩ bytes) 2) ∧
    (∀ count bytes ok, count ≠ 4 → nacked (.sidebandRead ⟨count, ok⟩ bytes) 2) ∧
    (∀ count ok, count ≠ 0 → nacked (.sidebandRepeatRead ⟨count, ok⟩) 2) ∧
    (∀ code, code ∉ [0x10, 0x11, 0x12, 0x14] → nacked (.sidebandUnlistedCommand code) 1) ∧
    (∀ bytes, bytes.length = 8 → leAt bytes 0 4 % 4 = 0 →
      badPec (.sidebandWrite 8 bytes false) 11 ∧
      ∃ t, exec (.sidebandWrite 8 bytes true) s = .next t ∧ Sent (.sideband none 0 []) s t ∧
        (s.hci.held = [] → t.err = (s.sbWrite (leAt bytes 0 4) (leAt bytes 4 4)).err)) ∧
    (∀ bytes, bytes.length = 8 → leAt bytes 0 4 % 4 ≠ 0 → ∀ ok, nacked (.sidebandWrite 8 bytes ok) 3 ∧ nacked (.sidebandBlockRead ⟨8, ok⟩ bytes) 3) ∧
    (∀ bytes ok, bytes.length = 4 → leAt bytes 0 4 % 4 ≠ 0 → nacked (.sidebandRead ⟨4, ok⟩ bytes) 3) ∧
    (∀ bytes r, bytes.length = 4 → leAt bytes 0 4 % 4 = 0 → regAt (leAt bytes 0 4) = some r → find? (leAt bytes 0 4) s.sb.latches = none →
      let v := if s.winAnswers r.win then s.regWord r else 0
      badPec (.sidebandRead ⟨4, false⟩ bytes) 7 ∧ ∃ t, exec (.sidebandRead ⟨4, true⟩ bytes) s = .next t ∧
        Sent (.sideband none 4 (told [v]) (some (pec 0x11 bytes [v] 4))) s t ∧ t.sb.last = [v] ∧ t.sb.lastCount = 4) ∧
    (∀ bytes n, bytes.length = 8 → leAt bytes 0 4 % 4 = 0 → leAt bytes 4 4 = n → 1 ≤ n → n ≤ 8 →
      (∀ k, k < n → regMapped (leAt bytes 0 4 + 4 * k) = true) → badPec (.sidebandBlockRead ⟨8, false⟩ bytes) 11 ∧
      ∃ t, exec (.sidebandBlockRead ⟨8, true⟩ bytes) s = .next t ∧
        Sent (.sideband none (4 * n) (told t.sb.last) (some (pec 0x12 bytes t.sb.last (4 * n)))) s t ∧
        t.sb.last = (s.readRegs s.sb.latches ((List.range n).map (leAt bytes 0 4 + 4 * ·))).1) ∧
    badPec (.sidebandRepeatRead ⟨0, false⟩) 3 ∧
    (∃ t, exec (.sidebandRepeatRead ⟨0, true⟩) s = .next t ∧ t.sb = s.sb ∧
      Sent (.sideband none s.sb.lastCount (told s.sb.last) (some (pec 0x14 [] s.sb.last s.sb.lastCount))) s t) ∧
    (Nat.land s.err.alert s.err.alertEn ≠ 0 → ∃ t, exec .alertResponse s = .next t ∧ Sent (.alertAddress s.board.addr) s t ∧ t.err = s.err) ∧
    (Nat.land s.err.alert s.err.alertEn = 0 → exec .alertResponse s = .next s)

/-! ## Reset -/

/-- RESET_N starts an OFF module as far as order 13 or a named failure, and a fall ends everything but what is kept (R396, R397, R399,
R402, R404, R405, R426, R524). RESET_N_RISE of a powered OFF module answers a next state in which the start waits at order 13 with its
job loaded, or has failed: the module is then FAULTED, with the fault waiting for the latch of ERR_FIRST, and has failed an order, or
runs the recovery image, or stays in its boot ROM. It waits at order 13 where the boot ROM accepts the main image and no order from 4
to 13 finds an error (both rest on signatures, whose check is uninterpreted here). RESET_N_FALL below 1 µs changes nothing. From 10 µs
the module is OFF with no job, no session and no port; the flash, the accumulators, the log and every byte of LPDDR5X are as they were.
Between the two bounds either happens (free, log 1). -/
def Obligations.ResetStartsAndEndsTheModule : Prop :=
  (∀ (s : State) (env : StartEnv), s.board.powerGood = true → s.glb.mstate = .off → ∃ t, exec (.resetNRise env) s = .next t ∧
    t.board.resetN = true ∧ t.board.time = s.board.time ∧
    (t.glb.mstate = .starting ∧ t.glb.order = 13 ∧ t.job.loaded = true ∧ t.glb.job = true ∨
      t.glb.mstate = .faulted ∧ t.glb.job = false ∧ t.err.window ≠ [] ∧ t.err.windowAt.isSome = true ∧
        (t.glb.failed = true ∨ t.glb.recovery = true ∨ t.glb.bootRom = true))) ∧
  (∀ (s : State) (env : StartEnv) (v : Nat), s.board.powerGood = true → s.glb.mstate = .off → bootCheck false s.flash.image = .ok v →
    ((s.booted v).ordered env).err = none → ∃ t, exec (.resetNRise env) s = .next t ∧ t.glb.mstate = .starting ∧ t.glb.order = 13 ∧
      t.job.loaded = true ∧ t.glb.job = true ∧ t.glb.fwVersion = v ∧ t.board.resetN = true) ∧
  (∀ (s : State) (env : StartEnv), s.glb.mstate ≠ .off → exec (.resetNRise env) s = .next s) ∧
  ∀ (s : State) (ns : Nat), s.board.powerGood = true → s.board.resetN = true →
    let ended (u t : State) : Prop := t.glb.mstate = .off ∧ t.board.resetN = false ∧ t.job = {} ∧ t.hci = {} ∧ t.ports = [] ∧
      t.flash = u.flash ∧ t.eng.acc = u.eng.acc ∧ t.err.log = u.err.log ∧ t.err.valid = u.err.valid ∧
      ∀ a, isHbm (baCtl (a / 256)) = false → readByte t.mem.data a = readByte u.mem.data a
    (ns < 1000 → exec (.resetNFall ns) s = .next s) ∧
    (10000 ≤ ns → ∃ t, exec (.resetNFall ns) s = .next t ∧ ended s t) ∧
    (1000 ≤ ns → ns < 10000 → ∃ t, exec (.resetNFall ns) s = .next t ∧ (t = { s with fresh := s.fresh + 1 } ∨ ended s t))
end

