-- ==== Sys2Proof/Laws/Memory.lean ====
section
/-! SUPPORT. Tables in rising order and byte stores in their canonical form: every operation keeps the form, and a read after a write. -/

namespace Sys2Proof.Machine

/-! ## Tables in rising order -/

theorem rising_cons (a : Nat) (l : List Nat) : rising (a :: l) = true ↔ (∀ b ∈ l, a < b) ∧ rising l = true := by
  induction l generalizing a with
  | nil => simp [rising]
  | cons b r ih =>
    simp only [rising, Bool.and_eq_true, decide_eq_true_eq, List.mem_cons, forall_eq_or_imp]
    rw [ih b]
    constructor
    · rintro ⟨h, k, l⟩
      exact ⟨⟨h, fun x hx => Nat.lt_trans h (k x hx)⟩, k, l⟩
    · rintro ⟨⟨h, _⟩, k⟩
      exact ⟨h, k⟩

theorem mem_put_keys {α : Type} {k x : Nat} {v : α} {m : Map α} (h : x ∈ (put k v m).map (·.1)) : x = k ∨ x ∈ m.map (·.1) := by
  induction m with
  | nil => simpa [put] using h
  | cons e r ih =>
    obtain ⟨a, y⟩ := e
    simp only [put] at h
    split at h
    · simpa using h
    · split at h
      · rename_i e
        simp only [List.map_cons, List.mem_cons] at h ⊢
        exact h.imp_right Or.inr
      · simp only [List.map_cons, List.mem_cons] at h ⊢
        rcases h with h | h
        · exact .inr (.inl h)
        · exact (ih h).imp_right Or.inr

theorem rising_put {α : Type} {k : Nat} {v : α} {m : Map α} (h : rising (m.map (·.1)) = true) : rising ((put k v m).map (·.1)) = true := by
  induction m with
  | nil => rfl
  | cons e r ih =>
    obtain ⟨a, y⟩ := e
    simp only [List.map_cons, rising_cons] at h
    simp only [put]
    split
    · rename_i hk
      simp only [List.map_cons, rising_cons, List.mem_cons, forall_eq_or_imp]
      exact ⟨⟨hk, fun b hb => Nat.lt_trans hk (h.1 b hb)⟩, h.1, h.2⟩
    · split
      · rename_i e
        simp only [List.map_cons, rising_cons, e]
        exact h
      · simp only [List.map_cons, rising_cons]
        refine ⟨fun b hb => ?_, ih h.2⟩
        rcases mem_put_keys hb with rfl | hb
        · omega
        · exact h.1 b hb

theorem rising_filter {α : Type} {p : Nat × α → Bool} {m : Map α} (h : rising (m.map (·.1)) = true) :
    rising ((m.filter p).map (·.1)) = true := by
  induction m with
  | nil => rfl
  | cons e r ih =>
    simp only [List.map_cons, rising_cons] at h
    simp only [List.filter_cons]
    split
    · simp only [List.map_cons, rising_cons]
      refine ⟨fun b hb => h.1 b ?_, ih h.2⟩
      simp only [List.mem_map, List.mem_filter] at hb ⊢
      obtain ⟨x, hx, rfl⟩ := hb
      exact ⟨x, hx.1, rfl⟩
    · exact ih h.2

/-! ## The canonical form of byte stores is kept by every operation on them -/

theorem Memory.wf_iff (m : Bytes) : Memory.wf m = true ↔ rising (m.map (·.1)) = true ∧ ∀ c ∈ m, c.2 ≠ 0 := by
  simp [Memory.wf]

theorem mem_put {α : Type} {k : Nat} {v : α} {m : Map α} {e : Nat × α} (h : e ∈ put k v m) : e = (k, v) ∨ e ∈ m := by
  induction m with
  | nil => simpa [put] using h
  | cons x r ih =>
    obtain ⟨a, y⟩ := x
    simp only [put] at h
    split at h
    · simpa using h
    · split at h
      · simp only [List.mem_cons] at h ⊢
        exact h.imp_right Or.inr
      · simp only [List.mem_cons] at h ⊢
        rcases h with h | h
        · exact .inr (.inl h)
        · exact (ih h).imp_right Or.inr

theorem wf_filter {m : Bytes} (p : Host.Cell → Bool) (h : Memory.wf m = true) : Memory.wf (m.filter p) = true := by
  rw [Memory.wf_iff] at h ⊢
  exact ⟨rising_filter h.1, fun c hc => h.2 c (List.mem_filter.1 hc).1⟩

theorem wf_writeByte {m : Bytes} (a : Nat) (v : Byte) (h : Memory.wf m = true) : Memory.wf (writeByte m a v) = true := by
  unfold writeByte
  split
  · exact wf_filter _ h
  · rename_i hv
    rw [Memory.wf_iff] at h ⊢
    refine ⟨rising_put h.1, fun c hc => ?_⟩
    rcases mem_put hc with rfl | hc
    · exact hv
    · exact h.2 c hc

theorem wf_writeBytes {m : Bytes} (a : Nat) (l : List Byte) (h : Memory.wf m = true) : Memory.wf (writeBytes m a l) = true := by
  induction l generalizing m a with
  | nil => exact h
  | cons b r ih => exact ih _ (wf_writeByte a b h)

/-! ## Reading what was written -/

theorem look_put {α : Type} (d : α) (k j : Nat) (v : α) (m : Map α) : look d j (put k v m) = if j = k then v else look d j m := by
  induction m with
  | nil => simp [put, look]
  | cons e r ih =>
    obtain ⟨a, y⟩ := e
    simp only [put]
    split
    · simp only [look]
    · split
      · rename_i e
        subst e
        simp only [look]
        split <;> simp_all
      · simp only [look, ih]
        split
        · rename_i e
          subst e
          rw [if_neg]
          omega
        · rfl

@[simp] theorem look_put_self {α : Type} (d : α) (k : Nat) (v : α) (m : Map α) : look d k (put k v m) = v := by simp [look_put]

theorem find?_put {α : Type} (k j : Nat) (v : α) (m : Map α) : find? j (put k v m) = if j = k then some v else find? j m := by
  induction m with
  | nil => simp [put, find?]
  | cons e r ih =>
    obtain ⟨a, y⟩ := e
    simp only [put]
    split
    · simp only [find?]
    · split
      · rename_i e
        subst e
        simp only [find?]
        split <;> simp_all
      · simp only [find?, ih]
        split
        · rename_i e
          subst e
          rw [if_neg]
          omega
        · rfl

@[simp] theorem find?_put_self {α : Type} (k : Nat) (v : α) (m : Map α) : find? k (put k v m) = some v := by simp [find?_put]

theorem look_drop {α : Type} (d : α) (k j : Nat) (m : Map α) : look d j (drop k m) = if j = k then d else look d j m := by
  unfold drop
  induction m with
  | nil => simp [look]
  | cons e r ih =>
    obtain ⟨a, y⟩ := e
    simp only [List.filter_cons]
    split
    · rename_i ha
      simp only [bne_iff_ne, ne_eq] at ha
      simp only [look, ih]
      split
      · rename_i e
        subst e
        rw [if_neg ha]
      · rfl
    · rename_i ha
      simp only [bne_iff_ne, ne_eq, Decidable.not_not] at ha
      subst ha
      rw [ih]
      simp only [look]
      split
      · rfl
      · rfl

theorem readByte_writeByte (m : Bytes) (a b : Nat) (v : Byte) : readByte (writeByte m a v) b = if b = a then v else readByte m b := by
  unfold readByte writeByte
  split
  · rename_i hv
    subst hv
    exact look_drop 0 a b m
  · exact look_put 0 a b v m

end Sys2Proof.Machine
end

