-- ==== Sys2Proof/Laws/State.lean ====
section
/-! SUPPORT. What each plain update of the state leaves as it was, one lemma for each field, and what a part reads as after it. -/

namespace Sys2Proof.Machine

/-! ## setBlk -/

@[simp] theorem State.setBlk_board (s : State) (b : Nat) (x : Block) : (s.setBlk b x).board = s.board := rfl
@[simp] theorem State.setBlk_glb (s : State) (b : Nat) (x : Block) : (s.setBlk b x).glb = s.glb := rfl
@[simp] theorem State.setBlk_sb (s : State) (b : Nat) (x : Block) : (s.setBlk b x).sb = s.sb := rfl
@[simp] theorem State.setBlk_cdc (s : State) (b : Nat) (x : Block) : (s.setBlk b x).cdc = s.cdc := rfl
@[simp] theorem State.setBlk_flash (s : State) (b : Nat) (x : Block) : (s.setBlk b x).flash = s.flash := rfl
@[simp] theorem State.setBlk_job (s : State) (b : Nat) (x : Block) : (s.setBlk b x).job = s.job := rfl
@[simp] theorem State.setBlk_regions (s : State) (b : Nat) (x : Block) : (s.setBlk b x).regions = s.regions := rfl
@[simp] theorem State.setBlk_queues (s : State) (b : Nat) (x : Block) : (s.setBlk b x).queues = s.queues := rfl
@[simp] theorem State.setBlk_tensors (s : State) (b : Nat) (x : Block) : (s.setBlk b x).tensors = s.tensors := rfl
@[simp] theorem State.setBlk_mem (s : State) (b : Nat) (x : Block) : (s.setBlk b x).mem = s.mem := rfl
@[simp] theorem State.setBlk_gov (s : State) (b : Nat) (x : Block) : (s.setBlk b x).gov = s.gov := rfl
@[simp] theorem State.setBlk_upd (s : State) (b : Nat) (x : Block) : (s.setBlk b x).upd = s.upd := rfl
@[simp] theorem State.setBlk_drv (s : State) (b : Nat) (x : Block) : (s.setBlk b x).drv = s.drv := rfl
@[simp] theorem State.setBlk_ports (s : State) (b : Nat) (x : Block) : (s.setBlk b x).ports = s.ports := rfl
@[simp] theorem State.setBlk_lnkPorts (s : State) (b : Nat) (x : Block) : (s.setBlk b x).lnkPorts = s.lnkPorts := rfl
@[simp] theorem State.setBlk_hci (s : State) (b : Nat) (x : Block) : (s.setBlk b x).hci = s.hci := rfl
@[simp] theorem State.setBlk_pwr (s : State) (b : Nat) (x : Block) : (s.setBlk b x).pwr = s.pwr := rfl
@[simp] theorem State.setBlk_eng (s : State) (b : Nat) (x : Block) : (s.setBlk b x).eng = s.eng := rfl
@[simp] theorem State.setBlk_err (s : State) (b : Nat) (x : Block) : (s.setBlk b x).err = s.err := rfl
@[simp] theorem State.setBlk_age (s : State) (b : Nat) (x : Block) : (s.setBlk b x).age = s.age := rfl
@[simp] theorem State.setBlk_trc (s : State) (b : Nat) (x : Block) : (s.setBlk b x).trc = s.trc := rfl
@[simp] theorem State.setBlk_stop (s : State) (b : Nat) (x : Block) : (s.setBlk b x).stop = s.stop := rfl
@[simp] theorem State.setBlk_counters (s : State) (b : Nat) (x : Block) : (s.setBlk b x).counters = s.counters := rfl
@[simp] theorem State.setBlk_clearTime (s : State) (b : Nat) (x : Block) : (s.setBlk b x).clearTime = s.clearTime := rfl
@[simp] theorem State.setBlk_out (s : State) (b : Nat) (x : Block) : (s.setBlk b x).out = s.out := rfl
@[simp] theorem State.setBlk_pending (s : State) (b : Nat) (x : Block) : (s.setBlk b x).pending = s.pending := rfl
@[simp] theorem State.setBlk_fresh (s : State) (b : Nat) (x : Block) : (s.setBlk b x).fresh = s.fresh := rfl

/-! ## setRgn -/

@[simp] theorem State.setRgn_board (s : State) (r : Nat) (x : Region) : (s.setRgn r x).board = s.board := rfl
@[simp] theorem State.setRgn_glb (s : State) (r : Nat) (x : Region) : (s.setRgn r x).glb = s.glb := rfl
@[simp] theorem State.setRgn_sb (s : State) (r : Nat) (x : Region) : (s.setRgn r x).sb = s.sb := rfl
@[simp] theorem State.setRgn_cdc (s : State) (r : Nat) (x : Region) : (s.setRgn r x).cdc = s.cdc := rfl
@[simp] theorem State.setRgn_flash (s : State) (r : Nat) (x : Region) : (s.setRgn r x).flash = s.flash := rfl
@[simp] theorem State.setRgn_job (s : State) (r : Nat) (x : Region) : (s.setRgn r x).job = s.job := rfl
@[simp] theorem State.setRgn_blocks (s : State) (r : Nat) (x : Region) : (s.setRgn r x).blocks = s.blocks := rfl
@[simp] theorem State.setRgn_queues (s : State) (r : Nat) (x : Region) : (s.setRgn r x).queues = s.queues := rfl
@[simp] theorem State.setRgn_tensors (s : State) (r : Nat) (x : Region) : (s.setRgn r x).tensors = s.tensors := rfl
@[simp] theorem State.setRgn_mem (s : State) (r : Nat) (x : Region) : (s.setRgn r x).mem = s.mem := rfl
@[simp] theorem State.setRgn_gov (s : State) (r : Nat) (x : Region) : (s.setRgn r x).gov = s.gov := rfl
@[simp] theorem State.setRgn_upd (s : State) (r : Nat) (x : Region) : (s.setRgn r x).upd = s.upd := rfl
@[simp] theorem State.setRgn_drv (s : State) (r : Nat) (x : Region) : (s.setRgn r x).drv = s.drv := rfl
@[simp] theorem State.setRgn_ports (s : State) (r : Nat) (x : Region) : (s.setRgn r x).ports = s.ports := rfl
@[simp] theorem State.setRgn_lnkPorts (s : State) (r : Nat) (x : Region) : (s.setRgn r x).lnkPorts = s.lnkPorts := rfl
@[simp] theorem State.setRgn_hci (s : State) (r : Nat) (x : Region) : (s.setRgn r x).hci = s.hci := rfl
@[simp] theorem State.setRgn_pwr (s : State) (r : Nat) (x : Region) : (s.setRgn r x).pwr = s.pwr := rfl
@[simp] theorem State.setRgn_eng (s : State) (r : Nat) (x : Region) : (s.setRgn r x).eng = s.eng := rfl
@[simp] theorem State.setRgn_err (s : State) (r : Nat) (x : Region) : (s.setRgn r x).err = s.err := rfl
@[simp] theorem State.setRgn_age (s : State) (r : Nat) (x : Region) : (s.setRgn r x).age = s.age := rfl
@[simp] theorem State.setRgn_trc (s : State) (r : Nat) (x : Region) : (s.setRgn r x).trc = s.trc := rfl
@[simp] theorem State.setRgn_stop (s : State) (r : Nat) (x : Region) : (s.setRgn r x).stop = s.stop := rfl
@[simp] theorem State.setRgn_counters (s : State) (r : Nat) (x : Region) : (s.setRgn r x).counters = s.counters := rfl
@[simp] theorem State.setRgn_clearTime (s : State) (r : Nat) (x : Region) : (s.setRgn r x).clearTime = s.clearTime := rfl
@[simp] theorem State.setRgn_out (s : State) (r : Nat) (x : Region) : (s.setRgn r x).out = s.out := rfl
@[simp] theorem State.setRgn_pending (s : State) (r : Nat) (x : Region) : (s.setRgn r x).pending = s.pending := rfl
@[simp] theorem State.setRgn_fresh (s : State) (r : Nat) (x : Region) : (s.setRgn r x).fresh = s.fresh := rfl

/-! ## setPort -/

@[simp] theorem State.setPort_board (s : State) (p : Nat) (x : Port) : (s.setPort p x).board = s.board := rfl
@[simp] theorem State.setPort_glb (s : State) (p : Nat) (x : Port) : (s.setPort p x).glb = s.glb := rfl
@[simp] theorem State.setPort_sb (s : State) (p : Nat) (x : Port) : (s.setPort p x).sb = s.sb := rfl
@[simp] theorem State.setPort_cdc (s : State) (p : Nat) (x : Port) : (s.setPort p x).cdc = s.cdc := rfl
@[simp] theorem State.setPort_flash (s : State) (p : Nat) (x : Port) : (s.setPort p x).flash = s.flash := rfl
@[simp] theorem State.setPort_job (s : State) (p : Nat) (x : Port) : (s.setPort p x).job = s.job := rfl
@[simp] theorem State.setPort_blocks (s : State) (p : Nat) (x : Port) : (s.setPort p x).blocks = s.blocks := rfl
@[simp] theorem State.setPort_regions (s : State) (p : Nat) (x : Port) : (s.setPort p x).regions = s.regions := rfl
@[simp] theorem State.setPort_queues (s : State) (p : Nat) (x : Port) : (s.setPort p x).queues = s.queues := rfl
@[simp] theorem State.setPort_tensors (s : State) (p : Nat) (x : Port) : (s.setPort p x).tensors = s.tensors := rfl
@[simp] theorem State.setPort_mem (s : State) (p : Nat) (x : Port) : (s.setPort p x).mem = s.mem := rfl
@[simp] theorem State.setPort_gov (s : State) (p : Nat) (x : Port) : (s.setPort p x).gov = s.gov := rfl
@[simp] theorem State.setPort_upd (s : State) (p : Nat) (x : Port) : (s.setPort p x).upd = s.upd := rfl
@[simp] theorem State.setPort_drv (s : State) (p : Nat) (x : Port) : (s.setPort p x).drv = s.drv := rfl
@[simp] theorem State.setPort_lnkPorts (s : State) (p : Nat) (x : Port) : (s.setPort p x).lnkPorts = s.lnkPorts := rfl
@[simp] theorem State.setPort_hci (s : State) (p : Nat) (x : Port) : (s.setPort p x).hci = s.hci := rfl
@[simp] theorem State.setPort_pwr (s : State) (p : Nat) (x : Port) : (s.setPort p x).pwr = s.pwr := rfl
@[simp] theorem State.setPort_eng (s : State) (p : Nat) (x : Port) : (s.setPort p x).eng = s.eng := rfl
@[simp] theorem State.setPort_err (s : State) (p : Nat) (x : Port) : (s.setPort p x).err = s.err := rfl
@[simp] theorem State.setPort_age (s : State) (p : Nat) (x : Port) : (s.setPort p x).age = s.age := rfl
@[simp] theorem State.setPort_trc (s : State) (p : Nat) (x : Port) : (s.setPort p x).trc = s.trc := rfl
@[simp] theorem State.setPort_stop (s : State) (p : Nat) (x : Port) : (s.setPort p x).stop = s.stop := rfl
@[simp] theorem State.setPort_counters (s : State) (p : Nat) (x : Port) : (s.setPort p x).counters = s.counters := rfl
@[simp] theorem State.setPort_clearTime (s : State) (p : Nat) (x : Port) : (s.setPort p x).clearTime = s.clearTime := rfl
@[simp] theorem State.setPort_out (s : State) (p : Nat) (x : Port) : (s.setPort p x).out = s.out := rfl
@[simp] theorem State.setPort_pending (s : State) (p : Nat) (x : Port) : (s.setPort p x).pending = s.pending := rfl
@[simp] theorem State.setPort_fresh (s : State) (p : Nat) (x : Port) : (s.setPort p x).fresh = s.fresh := rfl

/-! ## setTen -/

@[simp] theorem State.setTen_board (s : State) (n : Nat) (x : TensorRt) : (s.setTen n x).board = s.board := rfl
@[simp] theorem State.setTen_glb (s : State) (n : Nat) (x : TensorRt) : (s.setTen n x).glb = s.glb := rfl
@[simp] theorem State.setTen_sb (s : State) (n : Nat) (x : TensorRt) : (s.setTen n x).sb = s.sb := rfl
@[simp] theorem State.setTen_cdc (s : State) (n : Nat) (x : TensorRt) : (s.setTen n x).cdc = s.cdc := rfl
@[simp] theorem State.setTen_flash (s : State) (n : Nat) (x : TensorRt) : (s.setTen n x).flash = s.flash := rfl
@[simp] theorem State.setTen_job (s : State) (n : Nat) (x : TensorRt) : (s.setTen n x).job = s.job := rfl
@[simp] theorem State.setTen_blocks (s : State) (n : Nat) (x : TensorRt) : (s.setTen n x).blocks = s.blocks := rfl
@[simp] theorem State.setTen_regions (s : State) (n : Nat) (x : TensorRt) : (s.setTen n x).regions = s.regions := rfl
@[simp] theorem State.setTen_queues (s : State) (n : Nat) (x : TensorRt) : (s.setTen n x).queues = s.queues := rfl
@[simp] theorem State.setTen_mem (s : State) (n : Nat) (x : TensorRt) : (s.setTen n x).mem = s.mem := rfl
@[simp] theorem State.setTen_gov (s : State) (n : Nat) (x : TensorRt) : (s.setTen n x).gov = s.gov := rfl
@[simp] theorem State.setTen_upd (s : State) (n : Nat) (x : TensorRt) : (s.setTen n x).upd = s.upd := rfl
@[simp] theorem State.setTen_drv (s : State) (n : Nat) (x : TensorRt) : (s.setTen n x).drv = s.drv := rfl
@[simp] theorem State.setTen_ports (s : State) (n : Nat) (x : TensorRt) : (s.setTen n x).ports = s.ports := rfl
@[simp] theorem State.setTen_lnkPorts (s : State) (n : Nat) (x : TensorRt) : (s.setTen n x).lnkPorts = s.lnkPorts := rfl
@[simp] theorem State.setTen_hci (s : State) (n : Nat) (x : TensorRt) : (s.setTen n x).hci = s.hci := rfl
@[simp] theorem State.setTen_pwr (s : State) (n : Nat) (x : TensorRt) : (s.setTen n x).pwr = s.pwr := rfl
@[simp] theorem State.setTen_eng (s : State) (n : Nat) (x : TensorRt) : (s.setTen n x).eng = s.eng := rfl
@[simp] theorem State.setTen_err (s : State) (n : Nat) (x : TensorRt) : (s.setTen n x).err = s.err := rfl
@[simp] theorem State.setTen_age (s : State) (n : Nat) (x : TensorRt) : (s.setTen n x).age = s.age := rfl
@[simp] theorem State.setTen_trc (s : State) (n : Nat) (x : TensorRt) : (s.setTen n x).trc = s.trc := rfl
@[simp] theorem State.setTen_stop (s : State) (n : Nat) (x : TensorRt) : (s.setTen n x).stop = s.stop := rfl
@[simp] theorem State.setTen_counters (s : State) (n : Nat) (x : TensorRt) : (s.setTen n x).counters = s.counters := rfl
@[simp] theorem State.setTen_clearTime (s : State) (n : Nat) (x : TensorRt) : (s.setTen n x).clearTime = s.clearTime := rfl
@[simp] theorem State.setTen_out (s : State) (n : Nat) (x : TensorRt) : (s.setTen n x).out = s.out := rfl
@[simp] theorem State.setTen_pending (s : State) (n : Nat) (x : TensorRt) : (s.setTen n x).pending = s.pending := rfl
@[simp] theorem State.setTen_fresh (s : State) (n : Nat) (x : TensorRt) : (s.setTen n x).fresh = s.fresh := rfl

/-! ## setQueue -/

@[simp] theorem State.setQueue_board (s : State) (q : Nat) (x : Queue) : (s.setQueue q x).board = s.board := rfl
@[simp] theorem State.setQueue_glb (s : State) (q : Nat) (x : Queue) : (s.setQueue q x).glb = s.glb := rfl
@[simp] theorem State.setQueue_sb (s : State) (q : Nat) (x : Queue) : (s.setQueue q x).sb = s.sb := rfl
@[simp] theorem State.setQueue_cdc (s : State) (q : Nat) (x : Queue) : (s.setQueue q x).cdc = s.cdc := rfl
@[simp] theorem State.setQueue_flash (s : State) (q : Nat) (x : Queue) : (s.setQueue q x).flash = s.flash := rfl
@[simp] theorem State.setQueue_job (s : State) (q : Nat) (x : Queue) : (s.setQueue q x).job = s.job := rfl
@[simp] theorem State.setQueue_blocks (s : State) (q : Nat) (x : Queue) : (s.setQueue q x).blocks = s.blocks := rfl
@[simp] theorem State.setQueue_regions (s : State) (q : Nat) (x : Queue) : (s.setQueue q x).regions = s.regions := rfl
@[simp] theorem State.setQueue_tensors (s : State) (q : Nat) (x : Queue) : (s.setQueue q x).tensors = s.tensors := rfl
@[simp] theorem State.setQueue_mem (s : State) (q : Nat) (x : Queue) : (s.setQueue q x).mem = s.mem := rfl
@[simp] theorem State.setQueue_gov (s : State) (q : Nat) (x : Queue) : (s.setQueue q x).gov = s.gov := rfl
@[simp] theorem State.setQueue_upd (s : State) (q : Nat) (x : Queue) : (s.setQueue q x).upd = s.upd := rfl
@[simp] theorem State.setQueue_drv (s : State) (q : Nat) (x : Queue) : (s.setQueue q x).drv = s.drv := rfl
@[simp] theorem State.setQueue_ports (s : State) (q : Nat) (x : Queue) : (s.setQueue q x).ports = s.ports := rfl
@[simp] theorem State.setQueue_lnkPorts (s : State) (q : Nat) (x : Queue) : (s.setQueue q x).lnkPorts = s.lnkPorts := rfl
@[simp] theorem State.setQueue_hci (s : State) (q : Nat) (x : Queue) : (s.setQueue q x).hci = s.hci := rfl
@[simp] theorem State.setQueue_pwr (s : State) (q : Nat) (x : Queue) : (s.setQueue q x).pwr = s.pwr := rfl
@[simp] theorem State.setQueue_eng (s : State) (q : Nat) (x : Queue) : (s.setQueue q x).eng = s.eng := rfl
@[simp] theorem State.setQueue_err (s : State) (q : Nat) (x : Queue) : (s.setQueue q x).err = s.err := rfl
@[simp] theorem State.setQueue_age (s : State) (q : Nat) (x : Queue) : (s.setQueue q x).age = s.age := rfl
@[simp] theorem State.setQueue_trc (s : State) (q : Nat) (x : Queue) : (s.setQueue q x).trc = s.trc := rfl
@[simp] theorem State.setQueue_stop (s : State) (q : Nat) (x : Queue) : (s.setQueue q x).stop = s.stop := rfl
@[simp] theorem State.setQueue_counters (s : State) (q : Nat) (x : Queue) : (s.setQueue q x).counters = s.counters := rfl
@[simp] theorem State.setQueue_clearTime (s : State) (q : Nat) (x : Queue) : (s.setQueue q x).clearTime = s.clearTime := rfl
@[simp] theorem State.setQueue_out (s : State) (q : Nat) (x : Queue) : (s.setQueue q x).out = s.out := rfl
@[simp] theorem State.setQueue_pending (s : State) (q : Nat) (x : Queue) : (s.setQueue q x).pending = s.pending := rfl
@[simp] theorem State.setQueue_fresh (s : State) (q : Nat) (x : Queue) : (s.setQueue q x).fresh = s.fresh := rfl

/-! ## setSess -/

@[simp] theorem State.setSess_board (s : State) (n : Nat) (x : Session) : (s.setSess n x).board = s.board := rfl
@[simp] theorem State.setSess_glb (s : State) (n : Nat) (x : Session) : (s.setSess n x).glb = s.glb := rfl
@[simp] theorem State.setSess_sb (s : State) (n : Nat) (x : Session) : (s.setSess n x).sb = s.sb := rfl
@[simp] theorem State.setSess_cdc (s : State) (n : Nat) (x : Session) : (s.setSess n x).cdc = s.cdc := rfl
@[simp] theorem State.setSess_flash (s : State) (n : Nat) (x : Session) : (s.setSess n x).flash = s.flash := rfl
@[simp] theorem State.setSess_job (s : State) (n : Nat) (x : Session) : (s.setSess n x).job = s.job := rfl
@[simp] theorem State.setSess_blocks (s : State) (n : Nat) (x : Session) : (s.setSess n x).blocks = s.blocks := rfl
@[simp] theorem State.setSess_regions (s : State) (n : Nat) (x : Session) : (s.setSess n x).regions = s.regions := rfl
@[simp] theorem State.setSess_queues (s : State) (n : Nat) (x : Session) : (s.setSess n x).queues = s.queues := rfl
@[simp] theorem State.setSess_tensors (s : State) (n : Nat) (x : Session) : (s.setSess n x).tensors = s.tensors := rfl
@[simp] theorem State.setSess_mem (s : State) (n : Nat) (x : Session) : (s.setSess n x).mem = s.mem := rfl
@[simp] theorem State.setSess_gov (s : State) (n : Nat) (x : Session) : (s.setSess n x).gov = s.gov := rfl
@[simp] theorem State.setSess_upd (s : State) (n : Nat) (x : Session) : (s.setSess n x).upd = s.upd := rfl
@[simp] theorem State.setSess_drv (s : State) (n : Nat) (x : Session) : (s.setSess n x).drv = s.drv := rfl
@[simp] theorem State.setSess_ports (s : State) (n : Nat) (x : Session) : (s.setSess n x).ports = s.ports := rfl
@[simp] theorem State.setSess_lnkPorts (s : State) (n : Nat) (x : Session) : (s.setSess n x).lnkPorts = s.lnkPorts := rfl
@[simp] theorem State.setSess_pwr (s : State) (n : Nat) (x : Session) : (s.setSess n x).pwr = s.pwr := rfl
@[simp] theorem State.setSess_eng (s : State) (n : Nat) (x : Session) : (s.setSess n x).eng = s.eng := rfl
@[simp] theorem State.setSess_err (s : State) (n : Nat) (x : Session) : (s.setSess n x).err = s.err := rfl
@[simp] theorem State.setSess_age (s : State) (n : Nat) (x : Session) : (s.setSess n x).age = s.age := rfl
@[simp] theorem State.setSess_trc (s : State) (n : Nat) (x : Session) : (s.setSess n x).trc = s.trc := rfl
@[simp] theorem State.setSess_stop (s : State) (n : Nat) (x : Session) : (s.setSess n x).stop = s.stop := rfl
@[simp] theorem State.setSess_counters (s : State) (n : Nat) (x : Session) : (s.setSess n x).counters = s.counters := rfl
@[simp] theorem State.setSess_clearTime (s : State) (n : Nat) (x : Session) : (s.setSess n x).clearTime = s.clearTime := rfl
@[simp] theorem State.setSess_out (s : State) (n : Nat) (x : Session) : (s.setSess n x).out = s.out := rfl
@[simp] theorem State.setSess_pending (s : State) (n : Nat) (x : Session) : (s.setSess n x).pending = s.pending := rfl
@[simp] theorem State.setSess_fresh (s : State) (n : Nat) (x : Session) : (s.setSess n x).fresh = s.fresh := rfl

/-! ## modBlk -/

@[simp] theorem State.modBlk_board (s : State) (b : Nat) (f : Block → Block) : (s.modBlk b f).board = s.board := rfl
@[simp] theorem State.modBlk_glb (s : State) (b : Nat) (f : Block → Block) : (s.modBlk b f).glb = s.glb := rfl
@[simp] theorem State.modBlk_sb (s : State) (b : Nat) (f : Block → Block) : (s.modBlk b f).sb = s.sb := rfl
@[simp] theorem State.modBlk_cdc (s : State) (b : Nat) (f : Block → Block) : (s.modBlk b f).cdc = s.cdc := rfl
@[simp] theorem State.modBlk_flash (s : State) (b : Nat) (f : Block → Block) : (s.modBlk b f).flash = s.flash := rfl
@[simp] theorem State.modBlk_job (s : State) (b : Nat) (f : Block → Block) : (s.modBlk b f).job = s.job := rfl
@[simp] theorem State.modBlk_regions (s : State) (b : Nat) (f : Block → Block) : (s.modBlk b f).regions = s.regions := rfl
@[simp] theorem State.modBlk_queues (s : State) (b : Nat) (f : Block → Block) : (s.modBlk b f).queues = s.queues := rfl
@[simp] theorem State.modBlk_tensors (s : State) (b : Nat) (f : Block → Block) : (s.modBlk b f).tensors = s.tensors := rfl
@[simp] theorem State.modBlk_mem (s : State) (b : Nat) (f : Block → Block) : (s.modBlk b f).mem = s.mem := rfl
@[simp] theorem State.modBlk_gov (s : State) (b : Nat) (f : Block → Block) : (s.modBlk b f).gov = s.gov := rfl
@[simp] theorem State.modBlk_upd (s : State) (b : Nat) (f : Block → Block) : (s.modBlk b f).upd = s.upd := rfl
@[simp] theorem State.modBlk_drv (s : State) (b : Nat) (f : Block → Block) : (s.modBlk b f).drv = s.drv := rfl
@[simp] theorem State.modBlk_ports (s : State) (b : Nat) (f : Block → Block) : (s.modBlk b f).ports = s.ports := rfl
@[simp] theorem State.modBlk_lnkPorts (s : State) (b : Nat) (f : Block → Block) : (s.modBlk b f).lnkPorts = s.lnkPorts := rfl
@[simp] theorem State.modBlk_hci (s : State) (b : Nat) (f : Block → Block) : (s.modBlk b f).hci = s.hci := rfl
@[simp] theorem State.modBlk_pwr (s : State) (b : Nat) (f : Block → Block) : (s.modBlk b f).pwr = s.pwr := rfl
@[simp] theorem State.modBlk_eng (s : State) (b : Nat) (f : Block → Block) : (s.modBlk b f).eng = s.eng := rfl
@[simp] theorem State.modBlk_err (s : State) (b : Nat) (f : Block → Block) : (s.modBlk b f).err = s.err := rfl
@[simp] theorem State.modBlk_age (s : State) (b : Nat) (f : Block → Block) : (s.modBlk b f).age = s.age := rfl
@[simp] theorem State.modBlk_trc (s : State) (b : Nat) (f : Block → Block) : (s.modBlk b f).trc = s.trc := rfl
@[simp] theorem State.modBlk_stop (s : State) (b : Nat) (f : Block → Block) : (s.modBlk b f).stop = s.stop := rfl
@[simp] theorem State.modBlk_counters (s : State) (b : Nat) (f : Block → Block) : (s.modBlk b f).counters = s.counters := rfl
@[simp] theorem State.modBlk_clearTime (s : State) (b : Nat) (f : Block → Block) : (s.modBlk b f).clearTime = s.clearTime := rfl
@[simp] theorem State.modBlk_out (s : State) (b : Nat) (f : Block → Block) : (s.modBlk b f).out = s.out := rfl
@[simp] theorem State.modBlk_pending (s : State) (b : Nat) (f : Block → Block) : (s.modBlk b f).pending = s.pending := rfl
@[simp] theorem State.modBlk_fresh (s : State) (b : Nat) (f : Block → Block) : (s.modBlk b f).fresh = s.fresh := rfl

/-! ## modRgn -/

@[simp] theorem State.modRgn_board (s : State) (r : Nat) (f : Region → Region) : (s.modRgn r f).board = s.board := rfl
@[simp] theorem State.modRgn_glb (s : State) (r : Nat) (f : Region → Region) : (s.modRgn r f).glb = s.glb := rfl
@[simp] theorem State.modRgn_sb (s : State) (r : Nat) (f : Region → Region) : (s.modRgn r f).sb = s.sb := rfl
@[simp] theorem State.modRgn_cdc (s : State) (r : Nat) (f : Region → Region) : (s.modRgn r f).cdc = s.cdc := rfl
@[simp] theorem State.modRgn_flash (s : State) (r : Nat) (f : Region → Region) : (s.modRgn r f).flash = s.flash := rfl
@[simp] theorem State.modRgn_job (s : State) (r : Nat) (f : Region → Region) : (s.modRgn r f).job = s.job := rfl
@[simp] theorem State.modRgn_blocks (s : State) (r : Nat) (f : Region → Region) : (s.modRgn r f).blocks = s.blocks := rfl
@[simp] theorem State.modRgn_queues (s : State) (r : Nat) (f : Region → Region) : (s.modRgn r f).queues = s.queues := rfl
@[simp] theorem State.modRgn_tensors (s : State) (r : Nat) (f : Region → Region) : (s.modRgn r f).tensors = s.tensors := rfl
@[simp] theorem State.modRgn_mem (s : State) (r : Nat) (f : Region → Region) : (s.modRgn r f).mem = s.mem := rfl
@[simp] theorem State.modRgn_gov (s : State) (r : Nat) (f : Region → Region) : (s.modRgn r f).gov = s.gov := rfl
@[simp] theorem State.modRgn_upd (s : State) (r : Nat) (f : Region → Region) : (s.modRgn r f).upd = s.upd := rfl
@[simp] theorem State.modRgn_drv (s : State) (r : Nat) (f : Region → Region) : (s.modRgn r f).drv = s.drv := rfl
@[simp] theorem State.modRgn_ports (s : State) (r : Nat) (f : Region → Region) : (s.modRgn r f).ports = s.ports := rfl
@[simp] theorem State.modRgn_lnkPorts (s : State) (r : Nat) (f : Region → Region) : (s.modRgn r f).lnkPorts = s.lnkPorts := rfl
@[simp] theorem State.modRgn_hci (s : State) (r : Nat) (f : Region → Region) : (s.modRgn r f).hci = s.hci := rfl
@[simp] theorem State.modRgn_pwr (s : State) (r : Nat) (f : Region → Region) : (s.modRgn r f).pwr = s.pwr := rfl
@[simp] theorem State.modRgn_eng (s : State) (r : Nat) (f : Region → Region) : (s.modRgn r f).eng = s.eng := rfl
@[simp] theorem State.modRgn_err (s : State) (r : Nat) (f : Region → Region) : (s.modRgn r f).err = s.err := rfl
@[simp] theorem State.modRgn_age (s : State) (r : Nat) (f : Region → Region) : (s.modRgn r f).age = s.age := rfl
@[simp] theorem State.modRgn_trc (s : State) (r : Nat) (f : Region → Region) : (s.modRgn r f).trc = s.trc := rfl
@[simp] theorem State.modRgn_stop (s : State) (r : Nat) (f : Region → Region) : (s.modRgn r f).stop = s.stop := rfl
@[simp] theorem State.modRgn_counters (s : State) (r : Nat) (f : Region → Region) : (s.modRgn r f).counters = s.counters := rfl
@[simp] theorem State.modRgn_clearTime (s : State) (r : Nat) (f : Region → Region) : (s.modRgn r f).clearTime = s.clearTime := rfl
@[simp] theorem State.modRgn_out (s : State) (r : Nat) (f : Region → Region) : (s.modRgn r f).out = s.out := rfl
@[simp] theorem State.modRgn_pending (s : State) (r : Nat) (f : Region → Region) : (s.modRgn r f).pending = s.pending := rfl
@[simp] theorem State.modRgn_fresh (s : State) (r : Nat) (f : Region → Region) : (s.modRgn r f).fresh = s.fresh := rfl

/-! ## modPort -/

@[simp] theorem State.modPort_board (s : State) (p : Nat) (f : Port → Port) : (s.modPort p f).board = s.board := rfl
@[simp] theorem State.modPort_glb (s : State) (p : Nat) (f : Port → Port) : (s.modPort p f).glb = s.glb := rfl
@[simp] theorem State.modPort_sb (s : State) (p : Nat) (f : Port → Port) : (s.modPort p f).sb = s.sb := rfl
@[simp] theorem State.modPort_cdc (s : State) (p : Nat) (f : Port → Port) : (s.modPort p f).cdc = s.cdc := rfl
@[simp] theorem State.modPort_flash (s : State) (p : Nat) (f : Port → Port) : (s.modPort p f).flash = s.flash := rfl
@[simp] theorem State.modPort_job (s : State) (p : Nat) (f : Port → Port) : (s.modPort p f).job = s.job := rfl
@[simp] theorem State.modPort_blocks (s : State) (p : Nat) (f : Port → Port) : (s.modPort p f).blocks = s.blocks := rfl
@[simp] theorem State.modPort_regions (s : State) (p : Nat) (f : Port → Port) : (s.modPort p f).regions = s.regions := rfl
@[simp] theorem State.modPort_queues (s : State) (p : Nat) (f : Port → Port) : (s.modPort p f).queues = s.queues := rfl
@[simp] theorem State.modPort_tensors (s : State) (p : Nat) (f : Port → Port) : (s.modPort p f).tensors = s.tensors := rfl
@[simp] theorem State.modPort_mem (s : State) (p : Nat) (f : Port → Port) : (s.modPort p f).mem = s.mem := rfl
@[simp] theorem State.modPort_gov (s : State) (p : Nat) (f : Port → Port) : (s.modPort p f).gov = s.gov := rfl
@[simp] theorem State.modPort_upd (s : State) (p : Nat) (f : Port → Port) : (s.modPort p f).upd = s.upd := rfl
@[simp] theorem State.modPort_drv (s : State) (p : Nat) (f : Port → Port) : (s.modPort p f).drv = s.drv := rfl
@[simp] theorem State.modPort_lnkPorts (s : State) (p : Nat) (f : Port → Port) : (s.modPort p f).lnkPorts = s.lnkPorts := rfl
@[simp] theorem State.modPort_hci (s : State) (p : Nat) (f : Port → Port) : (s.modPort p f).hci = s.hci := rfl
@[simp] theorem State.modPort_pwr (s : State) (p : Nat) (f : Port → Port) : (s.modPort p f).pwr = s.pwr := rfl
@[simp] theorem State.modPort_eng (s : State) (p : Nat) (f : Port → Port) : (s.modPort p f).eng = s.eng := rfl
@[simp] theorem State.modPort_err (s : State) (p : Nat) (f : Port → Port) : (s.modPort p f).err = s.err := rfl
@[simp] theorem State.modPort_age (s : State) (p : Nat) (f : Port → Port) : (s.modPort p f).age = s.age := rfl
@[simp] theorem State.modPort_trc (s : State) (p : Nat) (f : Port → Port) : (s.modPort p f).trc = s.trc := rfl
@[simp] theorem State.modPort_stop (s : State) (p : Nat) (f : Port → Port) : (s.modPort p f).stop = s.stop := rfl
@[simp] theorem State.modPort_counters (s : State) (p : Nat) (f : Port → Port) : (s.modPort p f).counters = s.counters := rfl
@[simp] theorem State.modPort_clearTime (s : State) (p : Nat) (f : Port → Port) : (s.modPort p f).clearTime = s.clearTime := rfl
@[simp] theorem State.modPort_out (s : State) (p : Nat) (f : Port → Port) : (s.modPort p f).out = s.out := rfl
@[simp] theorem State.modPort_pending (s : State) (p : Nat) (f : Port → Port) : (s.modPort p f).pending = s.pending := rfl
@[simp] theorem State.modPort_fresh (s : State) (p : Nat) (f : Port → Port) : (s.modPort p f).fresh = s.fresh := rfl

/-! ## modTen -/

@[simp] theorem State.modTen_board (s : State) (n : Nat) (f : TensorRt → TensorRt) : (s.modTen n f).board = s.board := rfl
@[simp] theorem State.modTen_glb (s : State) (n : Nat) (f : TensorRt → TensorRt) : (s.modTen n f).glb = s.glb := rfl
@[simp] theorem State.modTen_sb (s : State) (n : Nat) (f : TensorRt → TensorRt) : (s.modTen n f).sb = s.sb := rfl
@[simp] theorem State.modTen_cdc (s : State) (n : Nat) (f : TensorRt → TensorRt) : (s.modTen n f).cdc = s.cdc := rfl
@[simp] theorem State.modTen_flash (s : State) (n : Nat) (f : TensorRt → TensorRt) : (s.modTen n f).flash = s.flash := rfl
@[simp] theorem State.modTen_job (s : State) (n : Nat) (f : TensorRt → TensorRt) : (s.modTen n f).job = s.job := rfl
@[simp] theorem State.modTen_blocks (s : State) (n : Nat) (f : TensorRt → TensorRt) : (s.modTen n f).blocks = s.blocks := rfl
@[simp] theorem State.modTen_regions (s : State) (n : Nat) (f : TensorRt → TensorRt) : (s.modTen n f).regions = s.regions := rfl
@[simp] theorem State.modTen_queues (s : State) (n : Nat) (f : TensorRt → TensorRt) : (s.modTen n f).queues = s.queues := rfl
@[simp] theorem State.modTen_mem (s : State) (n : Nat) (f : TensorRt → TensorRt) : (s.modTen n f).mem = s.mem := rfl
@[simp] theorem State.modTen_gov (s : State) (n : Nat) (f : TensorRt → TensorRt) : (s.modTen n f).gov = s.gov := rfl
@[simp] theorem State.modTen_upd (s : State) (n : Nat) (f : TensorRt → TensorRt) : (s.modTen n f).upd = s.upd := rfl
@[simp] theorem State.modTen_drv (s : State) (n : Nat) (f : TensorRt → TensorRt) : (s.modTen n f).drv = s.drv := rfl
@[simp] theorem State.modTen_ports (s : State) (n : Nat) (f : TensorRt → TensorRt) : (s.modTen n f).ports = s.ports := rfl
@[simp] theorem State.modTen_lnkPorts (s : State) (n : Nat) (f : TensorRt → TensorRt) : (s.modTen n f).lnkPorts = s.lnkPorts := rfl
@[simp] theorem State.modTen_hci (s : State) (n : Nat) (f : TensorRt → TensorRt) : (s.modTen n f).hci = s.hci := rfl
@[simp] theorem State.modTen_pwr (s : State) (n : Nat) (f : TensorRt → TensorRt) : (s.modTen n f).pwr = s.pwr := rfl
@[simp] theorem State.modTen_eng (s : State) (n : Nat) (f : TensorRt → TensorRt) : (s.modTen n f).eng = s.eng := rfl
@[simp] theorem State.modTen_err (s : State) (n : Nat) (f : TensorRt → TensorRt) : (s.modTen n f).err = s.err := rfl
@[simp] theorem State.modTen_age (s : State) (n : Nat) (f : TensorRt → TensorRt) : (s.modTen n f).age = s.age := rfl
@[simp] theorem State.modTen_trc (s : State) (n : Nat) (f : TensorRt → TensorRt) : (s.modTen n f).trc = s.trc := rfl
@[simp] theorem State.modTen_stop (s : State) (n : Nat) (f : TensorRt → TensorRt) : (s.modTen n f).stop = s.stop := rfl
@[simp] theorem State.modTen_counters (s : State) (n : Nat) (f : TensorRt → TensorRt) : (s.modTen n f).counters = s.counters := rfl
@[simp] theorem State.modTen_clearTime (s : State) (n : Nat) (f : TensorRt → TensorRt) : (s.modTen n f).clearTime = s.clearTime := rfl
@[simp] theorem State.modTen_out (s : State) (n : Nat) (f : TensorRt → TensorRt) : (s.modTen n f).out = s.out := rfl
@[simp] theorem State.modTen_pending (s : State) (n : Nat) (f : TensorRt → TensorRt) : (s.modTen n f).pending = s.pending := rfl
@[simp] theorem State.modTen_fresh (s : State) (n : Nat) (f : TensorRt → TensorRt) : (s.modTen n f).fresh = s.fresh := rfl

/-! ## setHnd -/

@[simp] theorem State.setHnd_board (s : State) (h : Hnd) : (s.setHnd h).board = s.board := rfl
@[simp] theorem State.setHnd_glb (s : State) (h : Hnd) : (s.setHnd h).glb = s.glb := rfl
@[simp] theorem State.setHnd_sb (s : State) (h : Hnd) : (s.setHnd h).sb = s.sb := rfl
@[simp] theorem State.setHnd_cdc (s : State) (h : Hnd) : (s.setHnd h).cdc = s.cdc := rfl
@[simp] theorem State.setHnd_flash (s : State) (h : Hnd) : (s.setHnd h).flash = s.flash := rfl
@[simp] theorem State.setHnd_job (s : State) (h : Hnd) : (s.setHnd h).job = s.job := rfl
@[simp] theorem State.setHnd_blocks (s : State) (h : Hnd) : (s.setHnd h).blocks = s.blocks := rfl
@[simp] theorem State.setHnd_regions (s : State) (h : Hnd) : (s.setHnd h).regions = s.regions := rfl
@[simp] theorem State.setHnd_queues (s : State) (h : Hnd) : (s.setHnd h).queues = s.queues := rfl
@[simp] theorem State.setHnd_tensors (s : State) (h : Hnd) : (s.setHnd h).tensors = s.tensors := rfl
@[simp] theorem State.setHnd_mem (s : State) (h : Hnd) : (s.setHnd h).mem = s.mem := rfl
@[simp] theorem State.setHnd_gov (s : State) (h : Hnd) : (s.setHnd h).gov = s.gov := rfl
@[simp] theorem State.setHnd_upd (s : State) (h : Hnd) : (s.setHnd h).upd = s.upd := rfl
@[simp] theorem State.setHnd_drv (s : State) (h : Hnd) : (s.setHnd h).drv = s.drv := rfl
@[simp] theorem State.setHnd_ports (s : State) (h : Hnd) : (s.setHnd h).ports = s.ports := rfl
@[simp] theorem State.setHnd_lnkPorts (s : State) (h : Hnd) : (s.setHnd h).lnkPorts = s.lnkPorts := rfl
@[simp] theorem State.setHnd_pwr (s : State) (h : Hnd) : (s.setHnd h).pwr = s.pwr := rfl
@[simp] theorem State.setHnd_eng (s : State) (h : Hnd) : (s.setHnd h).eng = s.eng := rfl
@[simp] theorem State.setHnd_err (s : State) (h : Hnd) : (s.setHnd h).err = s.err := rfl
@[simp] theorem State.setHnd_age (s : State) (h : Hnd) : (s.setHnd h).age = s.age := rfl
@[simp] theorem State.setHnd_trc (s : State) (h : Hnd) : (s.setHnd h).trc = s.trc := rfl
@[simp] theorem State.setHnd_stop (s : State) (h : Hnd) : (s.setHnd h).stop = s.stop := rfl
@[simp] theorem State.setHnd_counters (s : State) (h : Hnd) : (s.setHnd h).counters = s.counters := rfl
@[simp] theorem State.setHnd_clearTime (s : State) (h : Hnd) : (s.setHnd h).clearTime = s.clearTime := rfl
@[simp] theorem State.setHnd_out (s : State) (h : Hnd) : (s.setHnd h).out = s.out := rfl
@[simp] theorem State.setHnd_pending (s : State) (h : Hnd) : (s.setHnd h).pending = s.pending := rfl
@[simp] theorem State.setHnd_fresh (s : State) (h : Hnd) : (s.setHnd h).fresh = s.fresh := rfl

/-! ## alert -/

@[simp] theorem State.alert_board (s : State) (b : Nat) : (s.alert b).board = s.board := rfl
@[simp] theorem State.alert_glb (s : State) (b : Nat) : (s.alert b).glb = s.glb := rfl
@[simp] theorem State.alert_sb (s : State) (b : Nat) : (s.alert b).sb = s.sb := rfl
@[simp] theorem State.alert_cdc (s : State) (b : Nat) : (s.alert b).cdc = s.cdc := rfl
@[simp] theorem State.alert_flash (s : State) (b : Nat) : (s.alert b).flash = s.flash := rfl
@[simp] theorem State.alert_job (s : State) (b : Nat) : (s.alert b).job = s.job := rfl
@[simp] theorem State.alert_blocks (s : State) (b : Nat) : (s.alert b).blocks = s.blocks := rfl
@[simp] theorem State.alert_regions (s : State) (b : Nat) : (s.alert b).regions = s.regions := rfl
@[simp] theorem State.alert_queues (s : State) (b : Nat) : (s.alert b).queues = s.queues := rfl
@[simp] theorem State.alert_tensors (s : State) (b : Nat) : (s.alert b).tensors = s.tensors := rfl
@[simp] theorem State.alert_mem (s : State) (b : Nat) : (s.alert b).mem = s.mem := rfl
@[simp] theorem State.alert_gov (s : State) (b : Nat) : (s.alert b).gov = s.gov := rfl
@[simp] theorem State.alert_upd (s : State) (b : Nat) : (s.alert b).upd = s.upd := rfl
@[simp] theorem State.alert_drv (s : State) (b : Nat) : (s.alert b).drv = s.drv := rfl
@[simp] theorem State.alert_ports (s : State) (b : Nat) : (s.alert b).ports = s.ports := rfl
@[simp] theorem State.alert_lnkPorts (s : State) (b : Nat) : (s.alert b).lnkPorts = s.lnkPorts := rfl
@[simp] theorem State.alert_hci (s : State) (b : Nat) : (s.alert b).hci = s.hci := rfl
@[simp] theorem State.alert_pwr (s : State) (b : Nat) : (s.alert b).pwr = s.pwr := rfl
@[simp] theorem State.alert_eng (s : State) (b : Nat) : (s.alert b).eng = s.eng := rfl
@[simp] theorem State.alert_age (s : State) (b : Nat) : (s.alert b).age = s.age := rfl
@[simp] theorem State.alert_trc (s : State) (b : Nat) : (s.alert b).trc = s.trc := rfl
@[simp] theorem State.alert_stop (s : State) (b : Nat) : (s.alert b).stop = s.stop := rfl
@[simp] theorem State.alert_counters (s : State) (b : Nat) : (s.alert b).counters = s.counters := rfl
@[simp] theorem State.alert_clearTime (s : State) (b : Nat) : (s.alert b).clearTime = s.clearTime := rfl
@[simp] theorem State.alert_out (s : State) (b : Nat) : (s.alert b).out = s.out := rfl
@[simp] theorem State.alert_pending (s : State) (b : Nat) : (s.alert b).pending = s.pending := rfl
@[simp] theorem State.alert_fresh (s : State) (b : Nat) : (s.alert b).fresh = s.fresh := rfl

/-! ## stamped -/

@[simp] theorem State.stamped_board (s : State) : (s.stamped).board = s.board := rfl
@[simp] theorem State.stamped_glb (s : State) : (s.stamped).glb = s.glb := rfl
@[simp] theorem State.stamped_sb (s : State) : (s.stamped).sb = s.sb := rfl
@[simp] theorem State.stamped_cdc (s : State) : (s.stamped).cdc = s.cdc := rfl
@[simp] theorem State.stamped_flash (s : State) : (s.stamped).flash = s.flash := rfl
@[simp] theorem State.stamped_job (s : State) : (s.stamped).job = s.job := rfl
@[simp] theorem State.stamped_blocks (s : State) : (s.stamped).blocks = s.blocks := rfl
@[simp] theorem State.stamped_regions (s : State) : (s.stamped).regions = s.regions := rfl
@[simp] theorem State.stamped_queues (s : State) : (s.stamped).queues = s.queues := rfl
@[simp] theorem State.stamped_tensors (s : State) : (s.stamped).tensors = s.tensors := rfl
@[simp] theorem State.stamped_mem (s : State) : (s.stamped).mem = s.mem := rfl
@[simp] theorem State.stamped_gov (s : State) : (s.stamped).gov = s.gov := rfl
@[simp] theorem State.stamped_upd (s : State) : (s.stamped).upd = s.upd := rfl
@[simp] theorem State.stamped_drv (s : State) : (s.stamped).drv = s.drv := rfl
@[simp] theorem State.stamped_ports (s : State) : (s.stamped).ports = s.ports := rfl
@[simp] theorem State.stamped_lnkPorts (s : State) : (s.stamped).lnkPorts = s.lnkPorts := rfl
@[simp] theorem State.stamped_hci (s : State) : (s.stamped).hci = s.hci := rfl
@[simp] theorem State.stamped_pwr (s : State) : (s.stamped).pwr = s.pwr := rfl
@[simp] theorem State.stamped_eng (s : State) : (s.stamped).eng = s.eng := rfl
@[simp] theorem State.stamped_err (s : State) : (s.stamped).err = s.err := rfl
@[simp] theorem State.stamped_age (s : State) : (s.stamped).age = s.age := rfl
@[simp] theorem State.stamped_trc (s : State) : (s.stamped).trc = s.trc := rfl
@[simp] theorem State.stamped_stop (s : State) : (s.stamped).stop = s.stop := rfl
@[simp] theorem State.stamped_counters (s : State) : (s.stamped).counters = s.counters := rfl
@[simp] theorem State.stamped_clearTime (s : State) : (s.stamped).clearTime = s.clearTime := rfl
@[simp] theorem State.stamped_out (s : State) : (s.stamped).out = s.out := rfl
@[simp] theorem State.stamped_pending (s : State) : (s.stamped).pending = s.pending := rfl

/-! ## count -/

@[simp] theorem State.count_board (s : State) (g i x n : Nat) : (s.count g i x n).board = s.board := by unfold State.count; split <;> rfl
@[simp] theorem State.count_glb (s : State) (g i x n : Nat) : (s.count g i x n).glb = s.glb := by unfold State.count; split <;> rfl
@[simp] theorem State.count_sb (s : State) (g i x n : Nat) : (s.count g i x n).sb = s.sb := by unfold State.count; split <;> rfl
@[simp] theorem State.count_cdc (s : State) (g i x n : Nat) : (s.count g i x n).cdc = s.cdc := by unfold State.count; split <;> rfl
@[simp] theorem State.count_flash (s : State) (g i x n : Nat) : (s.count g i x n).flash = s.flash := by unfold State.count; split <;> rfl
@[simp] theorem State.count_job (s : State) (g i x n : Nat) : (s.count g i x n).job = s.job := by unfold State.count; split <;> rfl
@[simp] theorem State.count_blocks (s : State) (g i x n : Nat) : (s.count g i x n).blocks = s.blocks := by unfold State.count; split <;> rfl
@[simp] theorem State.count_regions (s : State) (g i x n : Nat) : (s.count g i x n).regions = s.regions := by unfold State.count; split <;> rfl
@[simp] theorem State.count_queues (s : State) (g i x n : Nat) : (s.count g i x n).queues = s.queues := by unfold State.count; split <;> rfl
@[simp] theorem State.count_tensors (s : State) (g i x n : Nat) : (s.count g i x n).tensors = s.tensors := by unfold State.count; split <;> rfl
@[simp] theorem State.count_mem (s : State) (g i x n : Nat) : (s.count g i x n).mem = s.mem := by unfold State.count; split <;> rfl
@[simp] theorem State.count_gov (s : State) (g i x n : Nat) : (s.count g i x n).gov = s.gov := by unfold State.count; split <;> rfl
@[simp] theorem State.count_upd (s : State) (g i x n : Nat) : (s.count g i x n).upd = s.upd := by unfold State.count; split <;> rfl
@[simp] theorem State.count_drv (s : State) (g i x n : Nat) : (s.count g i x n).drv = s.drv := by unfold State.count; split <;> rfl
@[simp] theorem State.count_ports (s : State) (g i x n : Nat) : (s.count g i x n).ports = s.ports := by unfold State.count; split <;> rfl
@[simp] theorem State.count_lnkPorts (s : State) (g i x n : Nat) : (s.count g i x n).lnkPorts = s.lnkPorts := by unfold State.count; split <;> rfl
@[simp] theorem State.count_hci (s : State) (g i x n : Nat) : (s.count g i x n).hci = s.hci := by unfold State.count; split <;> rfl
@[simp] theorem State.count_pwr (s : State) (g i x n : Nat) : (s.count g i x n).pwr = s.pwr := by unfold State.count; split <;> rfl
@[simp] theorem State.count_eng (s : State) (g i x n : Nat) : (s.count g i x n).eng = s.eng := by unfold State.count; split <;> rfl
@[simp] theorem State.count_err (s : State) (g i x n : Nat) : (s.count g i x n).err = s.err := by unfold State.count; split <;> rfl
@[simp] theorem State.count_age (s : State) (g i x n : Nat) : (s.count g i x n).age = s.age := by unfold State.count; split <;> rfl
@[simp] theorem State.count_trc (s : State) (g i x n : Nat) : (s.count g i x n).trc = s.trc := by unfold State.count; split <;> rfl
@[simp] theorem State.count_stop (s : State) (g i x n : Nat) : (s.count g i x n).stop = s.stop := by unfold State.count; split <;> rfl
@[simp] theorem State.count_clearTime (s : State) (g i x n : Nat) : (s.count g i x n).clearTime = s.clearTime := by unfold State.count; split <;> rfl
@[simp] theorem State.count_out (s : State) (g i x n : Nat) : (s.count g i x n).out = s.out := by unfold State.count; split <;> rfl
@[simp] theorem State.count_pending (s : State) (g i x n : Nat) : (s.count g i x n).pending = s.pending := by unfold State.count; split <;> rfl
@[simp] theorem State.count_fresh (s : State) (g i x n : Nat) : (s.count g i x n).fresh = s.fresh := by unfold State.count; split <;> rfl

/-! ## Reading a part after it was set -/

@[simp] theorem State.blk_setBlk (s : State) (b c : Nat) (x : Block) : (s.setBlk b x).blk c = if c = b then x else s.blk c := look_put ..
@[simp] theorem State.rgn_setRgn (s : State) (b c : Nat) (x : Region) : (s.setRgn b x).rgn c = if c = b then x else s.rgn c := look_put ..
@[simp] theorem State.port_setPort (s : State) (b c : Nat) (x : Port) : (s.setPort b x).port c = if c = b then x else s.port c := look_put ..
@[simp] theorem State.ten_setTen (s : State) (b c : Nat) (x : TensorRt) : (s.setTen b x).ten c = if c = b then x else s.ten c := look_put ..
@[simp] theorem State.sess_setSess (s : State) (b c : Nat) (x : Session) : (s.setSess b x).sess c = if c = b then x else s.sess c := look_put ..
@[simp] theorem State.blk_modBlk (s : State) (b c : Nat) (f : Block → Block) : (s.modBlk b f).blk c = if c = b then f (s.blk b) else s.blk c := look_put ..
@[simp] theorem State.rgn_modRgn (s : State) (b c : Nat) (f : Region → Region) : (s.modRgn b f).rgn c = if c = b then f (s.rgn b) else s.rgn c := look_put ..
@[simp] theorem State.port_modPort (s : State) (b c : Nat) (f : Port → Port) : (s.modPort b f).port c = if c = b then f (s.port b) else s.port c := look_put ..
@[simp] theorem State.ten_modTen (s : State) (b c : Nat) (f : TensorRt → TensorRt) : (s.modTen b f).ten c = if c = b then f (s.ten b) else s.ten c := look_put ..

/-! ## Parts that an update does not touch -/

@[simp] theorem State.rgn_setBlk (s : State) (b : Nat) (x : Block) (c : Nat) : (s.setBlk b x).rgn c = s.rgn c := rfl
@[simp] theorem State.port_setBlk (s : State) (b : Nat) (x : Block) (c : Nat) : (s.setBlk b x).port c = s.port c := rfl
@[simp] theorem State.ten_setBlk (s : State) (b : Nat) (x : Block) (c : Nat) : (s.setBlk b x).ten c = s.ten c := rfl
@[simp] theorem State.sess_setBlk (s : State) (b : Nat) (x : Block) (c : Nat) : (s.setBlk b x).sess c = s.sess c := rfl
@[simp] theorem State.queue?_setBlk (s : State) (b : Nat) (x : Block) (c : Nat) : (s.setBlk b x).queue? c = s.queue? c := rfl

@[simp] theorem State.blk_setRgn (s : State) (r : Nat) (x : Region) (c : Nat) : (s.setRgn r x).blk c = s.blk c := rfl
@[simp] theorem State.port_setRgn (s : State) (r : Nat) (x : Region) (c : Nat) : (s.setRgn r x).port c = s.port c := rfl
@[simp] theorem State.ten_setRgn (s : State) (r : Nat) (x : Region) (c : Nat) : (s.setRgn r x).ten c = s.ten c := rfl
@[simp] theorem State.sess_setRgn (s : State) (r : Nat) (x : Region) (c : Nat) : (s.setRgn r x).sess c = s.sess c := rfl
@[simp] theorem State.queue?_setRgn (s : State) (r : Nat) (x : Region) (c : Nat) : (s.setRgn r x).queue? c = s.queue? c := rfl

@[simp] theorem State.blk_setPort (s : State) (p : Nat) (x : Port) (c : Nat) : (s.setPort p x).blk c = s.blk c := rfl
@[simp] theorem State.rgn_setPort (s : State) (p : Nat) (x : Port) (c : Nat) : (s.setPort p x).rgn c = s.rgn c := rfl
@[simp] theorem State.ten_setPort (s : State) (p : Nat) (x : Port) (c : Nat) : (s.setPort p x).ten c = s.ten c := rfl
@[simp] theorem State.sess_setPort (s : State) (p : Nat) (x : Port) (c : Nat) : (s.setPort p x).sess c = s.sess c := rfl
@[simp] theorem State.queue?_setPort (s : State) (p : Nat) (x : Port) (c : Nat) : (s.setPort p x).queue? c = s.queue? c := rfl

@[simp] theorem State.blk_setTen (s : State) (n : Nat) (x : TensorRt) (c : Nat) : (s.setTen n x).blk c = s.blk c := rfl
@[simp] theorem State.rgn_setTen (s : State) (n : Nat) (x : TensorRt) (c : Nat) : (s.setTen n x).rgn c = s.rgn c := rfl
@[simp] theorem State.port_setTen (s : State) (n : Nat) (x : TensorRt) (c : Nat) : (s.setTen n x).port c = s.port c := rfl
@[simp] theorem State.sess_setTen (s : State) (n : Nat) (x : TensorRt) (c : Nat) : (s.setTen n x).sess c = s.sess c := rfl
@[simp] theorem State.queue?_setTen (s : State) (n : Nat) (x : TensorRt) (c : Nat) : (s.setTen n x).queue? c = s.queue? c := rfl

@[simp] theorem State.blk_setQueue (s : State) (q : Nat) (x : Queue) (c : Nat) : (s.setQueue q x).blk c = s.blk c := rfl
@[simp] theorem State.rgn_setQueue (s : State) (q : Nat) (x : Queue) (c : Nat) : (s.setQueue q x).rgn c = s.rgn c := rfl
@[simp] theorem State.port_setQueue (s : State) (q : Nat) (x : Queue) (c : Nat) : (s.setQueue q x).port c = s.port c := rfl
@[simp] theorem State.ten_setQueue (s : State) (q : Nat) (x : Queue) (c : Nat) : (s.setQueue q x).ten c = s.ten c := rfl
@[simp] theorem State.sess_setQueue (s : State) (q : Nat) (x : Queue) (c : Nat) : (s.setQueue q x).sess c = s.sess c := rfl

@[simp] theorem State.blk_setSess (s : State) (n : Nat) (x : Session) (c : Nat) : (s.setSess n x).blk c = s.blk c := rfl
@[simp] theorem State.rgn_setSess (s : State) (n : Nat) (x : Session) (c : Nat) : (s.setSess n x).rgn c = s.rgn c := rfl
@[simp] theorem State.port_setSess (s : State) (n : Nat) (x : Session) (c : Nat) : (s.setSess n x).port c = s.port c := rfl
@[simp] theorem State.ten_setSess (s : State) (n : Nat) (x : Session) (c : Nat) : (s.setSess n x).ten c = s.ten c := rfl
@[simp] theorem State.queue?_setSess (s : State) (n : Nat) (x : Session) (c : Nat) : (s.setSess n x).queue? c = s.queue? c := rfl

@[simp] theorem State.rgn_modBlk (s : State) (b : Nat) (f : Block → Block) (c : Nat) : (s.modBlk b f).rgn c = s.rgn c := rfl
@[simp] theorem State.port_modBlk (s : State) (b : Nat) (f : Block → Block) (c : Nat) : (s.modBlk b f).port c = s.port c := rfl
@[simp] theorem State.ten_modBlk (s : State) (b : Nat) (f : Block → Block) (c : Nat) : (s.modBlk b f).ten c = s.ten c := rfl
@[simp] theorem State.sess_modBlk (s : State) (b : Nat) (f : Block → Block) (c : Nat) : (s.modBlk b f).sess c = s.sess c := rfl
@[simp] theorem State.queue?_modBlk (s : State) (b : Nat) (f : Block → Block) (c : Nat) : (s.modBlk b f).queue? c = s.queue? c := rfl

@[simp] theorem State.blk_modRgn (s : State) (r : Nat) (f : Region → Region) (c : Nat) : (s.modRgn r f).blk c = s.blk c := rfl
@[simp] theorem State.port_modRgn (s : State) (r : Nat) (f : Region → Region) (c : Nat) : (s.modRgn r f).port c = s.port c := rfl
@[simp] theorem State.ten_modRgn (s : State) (r : Nat) (f : Region → Region) (c : Nat) : (s.modRgn r f).ten c = s.ten c := rfl
@[simp] theorem State.sess_modRgn (s : State) (r : Nat) (f : Region → Region) (c : Nat) : (s.modRgn r f).sess c = s.sess c := rfl
@[simp] theorem State.queue?_modRgn (s : State) (r : Nat) (f : Region → Region) (c : Nat) : (s.modRgn r f).queue? c = s.queue? c := rfl

@[simp] theorem State.blk_modPort (s : State) (p : Nat) (f : Port → Port) (c : Nat) : (s.modPort p f).blk c = s.blk c := rfl
@[simp] theorem State.rgn_modPort (s : State) (p : Nat) (f : Port → Port) (c : Nat) : (s.modPort p f).rgn c = s.rgn c := rfl
@[simp] theorem State.ten_modPort (s : State) (p : Nat) (f : Port → Port) (c : Nat) : (s.modPort p f).ten c = s.ten c := rfl
@[simp] theorem State.sess_modPort (s : State) (p : Nat) (f : Port → Port) (c : Nat) : (s.modPort p f).sess c = s.sess c := rfl
@[simp] theorem State.queue?_modPort (s : State) (p : Nat) (f : Port → Port) (c : Nat) : (s.modPort p f).queue? c = s.queue? c := rfl

@[simp] theorem State.blk_modTen (s : State) (n : Nat) (f : TensorRt → TensorRt) (c : Nat) : (s.modTen n f).blk c = s.blk c := rfl
@[simp] theorem State.rgn_modTen (s : State) (n : Nat) (f : TensorRt → TensorRt) (c : Nat) : (s.modTen n f).rgn c = s.rgn c := rfl
@[simp] theorem State.port_modTen (s : State) (n : Nat) (f : TensorRt → TensorRt) (c : Nat) : (s.modTen n f).port c = s.port c := rfl
@[simp] theorem State.sess_modTen (s : State) (n : Nat) (f : TensorRt → TensorRt) (c : Nat) : (s.modTen n f).sess c = s.sess c := rfl
@[simp] theorem State.queue?_modTen (s : State) (n : Nat) (f : TensorRt → TensorRt) (c : Nat) : (s.modTen n f).queue? c = s.queue? c := rfl

@[simp] theorem State.blk_setHnd (s : State) (h : Hnd) (c : Nat) : (s.setHnd h).blk c = s.blk c := rfl
@[simp] theorem State.rgn_setHnd (s : State) (h : Hnd) (c : Nat) : (s.setHnd h).rgn c = s.rgn c := rfl
@[simp] theorem State.port_setHnd (s : State) (h : Hnd) (c : Nat) : (s.setHnd h).port c = s.port c := rfl
@[simp] theorem State.ten_setHnd (s : State) (h : Hnd) (c : Nat) : (s.setHnd h).ten c = s.ten c := rfl
@[simp] theorem State.queue?_setHnd (s : State) (h : Hnd) (c : Nat) : (s.setHnd h).queue? c = s.queue? c := rfl

@[simp] theorem State.blk_alert (s : State) (b : Nat) (c : Nat) : (s.alert b).blk c = s.blk c := rfl
@[simp] theorem State.rgn_alert (s : State) (b : Nat) (c : Nat) : (s.alert b).rgn c = s.rgn c := rfl
@[simp] theorem State.port_alert (s : State) (b : Nat) (c : Nat) : (s.alert b).port c = s.port c := rfl
@[simp] theorem State.ten_alert (s : State) (b : Nat) (c : Nat) : (s.alert b).ten c = s.ten c := rfl
@[simp] theorem State.sess_alert (s : State) (b : Nat) (c : Nat) : (s.alert b).sess c = s.sess c := rfl
@[simp] theorem State.queue?_alert (s : State) (b : Nat) (c : Nat) : (s.alert b).queue? c = s.queue? c := rfl

@[simp] theorem State.blk_stamped (s : State) (c : Nat) : (s.stamped).blk c = s.blk c := rfl
@[simp] theorem State.rgn_stamped (s : State) (c : Nat) : (s.stamped).rgn c = s.rgn c := rfl
@[simp] theorem State.port_stamped (s : State) (c : Nat) : (s.stamped).port c = s.port c := rfl
@[simp] theorem State.ten_stamped (s : State) (c : Nat) : (s.stamped).ten c = s.ten c := rfl
@[simp] theorem State.sess_stamped (s : State) (c : Nat) : (s.stamped).sess c = s.sess c := rfl
@[simp] theorem State.queue?_stamped (s : State) (c : Nat) : (s.stamped).queue? c = s.queue? c := rfl

@[simp] theorem State.blk_count (s : State) (g i x n c : Nat) : (s.count g i x n).blk c = s.blk c := by unfold State.count; split <;> rfl
@[simp] theorem State.rgn_count (s : State) (g i x n c : Nat) : (s.count g i x n).rgn c = s.rgn c := by unfold State.count; split <;> rfl
@[simp] theorem State.port_count (s : State) (g i x n c : Nat) : (s.count g i x n).port c = s.port c := by unfold State.count; split <;> rfl
@[simp] theorem State.ten_count (s : State) (g i x n c : Nat) : (s.count g i x n).ten c = s.ten c := by unfold State.count; split <;> rfl
@[simp] theorem State.sess_count (s : State) (g i x n c : Nat) : (s.count g i x n).sess c = s.sess c := by unfold State.count; split <;> rfl
@[simp] theorem State.queue?_count (s : State) (g i x n c : Nat) : (s.count g i x n).queue? c = s.queue? c := by unfold State.count; split <;> rfl

@[simp] theorem State.queue?_setQueue (s : State) (b c : Nat) (x : Queue) : (s.setQueue b x).queue? c = if c = b then some x else s.queue? c := find?_put ..

/-! ## Counting -/

theorem State.ctr_count (s : State) (g i x n g' i' x' : Nat) :
    (s.count g i x n).ctr g' i' x' =
      if n ≠ 0 ∧ bitAt s.job.ctrMask g = true ∧ ctrKey g' i' x' = ctrKey g i x then satAdd max48 (s.ctr g i x) n else s.ctr g' i' x' := by
  unfold State.count State.ctr
  by_cases hn : n = 0
  · simp [hn]
  · by_cases hb : bitAt s.job.ctrMask g = true
    · simp [hn, hb, adjust, look_put]
    · simp [hn, hb]

@[simp] theorem State.count_zero (s : State) (g i x : Nat) : s.count g i x 0 = s := by simp [State.count]

end Sys2Proof.Machine
end

