-- ==== Sys2Proof/Laws/Fire.lean ====
section
/-! SUPPORT. Firing: what a firing that may happen answers, that its completion notes the position and the destination, and the run of a
stage after the plain updates. -/

namespace Sys2Proof.Machine

/-! ## The run of a stage -/

@[simp] theorem State.run_setRun (s : State) (b i b' i' : Nat) (r : StageRun) :
    (s.setRun b i r).run b' i' = if b' = b ∧ i' = i then r else s.run b' i' := by
  unfold State.setRun State.run Block.run
  simp only [State.blk_modBlk]
  by_cases h : b' = b
  · subst h
    simp [look_put]
  · simp [h]

@[simp] theorem State.run_modRun (s : State) (b i b' i' : Nat) (f : StageRun → StageRun) :
    (s.modRun b i f).run b' i' = if b' = b ∧ i' = i then f (s.run b i) else s.run b' i' := State.run_setRun ..

@[simp] theorem State.run_modTen (s : State) (n b i : Nat) (f : TensorRt → TensorRt) : (s.modTen n f).run b i = s.run b i := rfl
@[simp] theorem State.run_setQueue (s : State) (n b i : Nat) (q : Queue) : (s.setQueue n q).run b i = s.run b i := rfl
@[simp] theorem State.run_setRgn (s : State) (n b i : Nat) (g : Region) : (s.setRgn n g).run b i = s.run b i := rfl
@[simp] theorem State.run_modRgn (s : State) (n b i : Nat) (f : Region → Region) : (s.modRgn n f).run b i = s.run b i := rfl
@[simp] theorem State.run_count (s : State) (g i x n b j : Nat) : (s.count g i x n).run b j = s.run b j := by simp [State.run]
@[simp] theorem State.ten_setRun (s : State) (b i n : Nat) (r : StageRun) : (s.setRun b i r).ten n = s.ten n := rfl
@[simp] theorem State.ten_modRun (s : State) (b i n : Nat) (f : StageRun → StageRun) : (s.modRun b i f).ten n = s.ten n := rfl

/-! ## Completing a position -/

theorem settleOldest_le (d : List Nat) (n o : Nat) : o ≤ settleOldest d n o := by
  induction n generalizing o with
  | zero => exact Nat.le_refl _
  | succ n ih =>
    simp only [settleOldest]
    split
    · exact Nat.le_trans (Nat.le_succ o) (ih (o + 1))
    · exact Nat.le_refl _

/-- A position completed is done. -/
@[simp] theorem StageRun.done_complete (r : StageRun) (g : Stage) (p : Nat) : (r.complete g p).done p = true := by
  have key : ∀ (d : List Nat) (o : Nat), r.oldest ≤ o → (p < r.oldest ∨ p ∈ d) → (decide (p < o) || (d.filter fun x => o ≤ x).contains p) = true := by
    intro d o ho hd
    simp only [Bool.or_eq_true, decide_eq_true_eq, List.contains_iff_mem, List.mem_filter]
    by_cases h : p < o
    · exact .inl h
    · exact .inr ⟨hd.resolve_left fun q => h (Nat.lt_of_lt_of_le q ho), by omega⟩
  simp only [StageRun.complete]
  apply key _ _ (settleOldest_le ..)
  split
  · rename_i hd
    simpa [StageRun.done] using hd
  · simp

@[simp] theorem State.run_closeTail (s : State) (q b i : Nat) : (s.closeTail q).run b i = s.run b i := by
  unfold State.closeTail
  repeat' split
  all_goals first | rfl | (simp only [State.closeCell]; split <;> simp [State.setCtl])

@[simp] theorem State.ten_closeTail (s : State) (q n : Nat) : (s.closeTail q).ten n = s.ten n := by
  unfold State.closeTail
  repeat' split
  all_goals first | rfl | (simp only [State.closeCell]; split <;> simp [State.setCtl])

theorem State.run_closeTails (l : List Nat) (s : State) (b i : Nat) : (l.foldl State.closeTail s).run b i = s.run b i := by
  induction l generalizing s with
  | nil => rfl
  | cons q r ih => simp [List.foldl_cons, ih]

theorem State.ten_closeTails (l : List Nat) (s : State) (n : Nat) : (l.foldl State.closeTail s).ten n = s.ten n := by
  induction l generalizing s with
  | nil => rfl
  | cons q r ih => simp [List.foldl_cons, ih]

theorem State.run_stageStops (s : State) (g : Stage) (b i : Nat) : (s.stageStops g).run b i = s.run b i := State.run_closeTails ..

theorem State.ten_stageStops (s : State) (g : Stage) (n : Nat) : (s.stageStops g).ten n = s.ten n := State.ten_closeTails ..

theorem State.run_layerDrains (s : State) (b l b' i : Nat) : (s.layerDrains b l).run b' i = s.run b' i := by
  have key : ∀ (gs : List Stage) (s : State), (gs.foldl State.stageStops s).run b' i = s.run b' i := by
    intro gs
    induction gs with
    | nil => intro s; rfl
    | cons g r ih => intro s; rw [List.foldl_cons, ih, State.run_stageStops]
  exact key _ _

theorem State.ten_layerDrains (s : State) (b l n : Nat) : (s.layerDrains b l).ten n = s.ten n := by
  have key : ∀ (gs : List Stage) (s : State), (gs.foldl State.stageStops s).ten n = s.ten n := by
    intro gs
    induction gs with
    | nil => intro s; rfl
    | cons g r ih => intro s; rw [List.foldl_cons, ih, State.ten_stageStops]
  exact key _ _

/-- What a stage closes as it comes to rest leaves every stage's run as it was. -/
@[simp] theorem State.run_restStops (s : State) (b : Nat) (g : Stage) (b' i : Nat) : (s.restStops b g).run b' i = s.run b' i := by
  unfold State.restStops
  repeat' split
  all_goals first | rfl | rw [State.run_layerDrains] | rw [State.run_stageStops]

/-- What a stage closes as it comes to rest leaves every tensor as it was. -/
@[simp] theorem State.ten_restStops (s : State) (b : Nat) (g : Stage) (n : Nat) : (s.restStops b g).ten n = s.ten n := by
  unfold State.restStops
  repeat' split
  all_goals first | rfl | rw [State.ten_layerDrains] | rw [State.ten_stageStops]

/-- The completion of a firing notes its position. -/
@[simp] theorem State.done_completeFire (s : State) (c : Ctx) (stat : TallyRec) : ((s.completeFire c stat).run c.b c.g.idx).done c.p = true := by
  simp [State.completeFire]

/-- The completion of a firing notes that its destination holds data. -/
theorem State.holds_completeFire (s : State) (c : Ctx) (stat : TallyRec) (h : c.i.dst.isT = true) :
    ((s.completeFire c stat).ten
      ((((s.count 4 c.b 2 (Config.promoted s.fresh s.board.time c.b)).watchPair c stat).tref c.i.dst c.rep c.n).t)).holds = true := by
  simp only [State.completeFire, State.ten_restStops, State.ten_modRun, State.noteDest, h, if_true]
  split <;> simp

/-- A firing that may happen and strays nowhere: the effect, and its completion where the effect completes. -/
theorem State.fire_eq {s : State} {f : Fire} {c : Ctx} (isOp : IWord → Bool) (run : Ctx → State → Effect) (h : s.ctx? f = some c)
    (hi : isOp c.i = true) (hm : s.mayFire c = true) (hs : ((s.startFire c).eccUpsets c.b f.ups).strays c = none) :
    s.fire f isOp run =
      if (run c ((s.startFire c).eccUpsets c.b f.ups)).done then
        (run c ((s.startFire c).eccUpsets c.b f.ups)).s.completeFire c (run c ((s.startFire c).eccUpsets c.b f.ups)).stat
      else (run c ((s.startFire c).eccUpsets c.b f.ups)).s := by
  simp [State.fire, h, hi, hm, hs]

/-- A firing that may happen and would stray: DESC_BOUNDS, and nothing else of it (R253). -/
theorem State.fire_strays {s : State} {f : Fire} {c : Ctx} {t d : Nat} (isOp : IWord → Bool) (run : Ctx → State → Effect) (h : s.ctx? f = some c)
    (hi : isOp c.i = true) (hm : s.mayFire c = true) (hs : ((s.startFire c).eccUpsets c.b f.ups).strays c = some (t, d)) :
    s.fire f isOp run = ((s.startFire c).eccUpsets c.b f.ups).barFault f.ups 1 (srcBlock c.b) (.bounds t d) := by
  simp [State.fire, h, hi, hm, hs]

end Sys2Proof.Machine
end

