-- ==== Sys2Proof/Laws/FrameBase.lean ====
section
/-! SUPPORT. Frames (Safety.Same) of the shared operations: the relation itself, the plain updates, sending, counting, tracing, reporting, tensors and stage programs. -/

namespace Sys2Proof.Machine

set_option linter.unusedSimpArgs false
set_option linter.unusedVariables false

/-! ## Base -/

theorem Same.refl (l : List Part) (s : State) : Same l s s := ⟨rfl, fun p _ => by cases p <;> rfl⟩

theorem State.agree_trans {a b c : State} {p : Part} (h : a.agree b p) (k : b.agree c p) : a.agree c p := by
  cases p <;> exact Eq.trans k h

theorem Same.trans {l : List Part} {a b c : State} (h : Same l a b) (k : Same l b c) : Same l a c :=
  ⟨k.pending.trans h.pending, fun p hp => State.agree_trans (h.parts p hp) (k.parts p hp)⟩

theorem Same.mono {l m : List Part} {a b : State} (h : Same l a b) (k : ∀ p ∈ l, p ∈ m) : Same m a b :=
  ⟨h.pending, fun p hp => h.parts p fun q => hp (k p q)⟩

/-- A state built from `s` differs from `s₀` in the parts listed where each part does. -/
@[simp] theorem same_mk {l : List Part} {s₀ s : State} (h : Same l s₀ s) {board glb sb cdc flash job blocks regions queues tensors mem gov upd drv ports lnkPorts hci pwr eng err age trc stop counters clearTime out fresh}
    (h_board : Part.board ∈ l ∨ board = s.board)
    (h_glb : Part.glb ∈ l ∨ glb = s.glb)
    (h_sb : Part.sb ∈ l ∨ sb = s.sb)
    (h_cdc : Part.cdc ∈ l ∨ cdc = s.cdc)
    (h_flash : Part.flash ∈ l ∨ flash = s.flash)
    (h_job : Part.job ∈ l ∨ job = s.job)
    (h_blocks : Part.blocks ∈ l ∨ blocks = s.blocks)
    (h_regions : Part.regions ∈ l ∨ regions = s.regions)
    (h_queues : Part.queues ∈ l ∨ queues = s.queues)
    (h_tensors : Part.tensors ∈ l ∨ tensors = s.tensors)
    (h_mem : Part.mem ∈ l ∨ mem = s.mem)
    (h_gov : Part.gov ∈ l ∨ gov = s.gov)
    (h_upd : Part.upd ∈ l ∨ upd = s.upd)
    (h_drv : Part.drv ∈ l ∨ drv = s.drv)
    (h_ports : Part.ports ∈ l ∨ ports = s.ports)
    (h_lnkPorts : Part.lnkPorts ∈ l ∨ lnkPorts = s.lnkPorts)
    (h_hci : Part.hci ∈ l ∨ hci = s.hci)
    (h_pwr : Part.pwr ∈ l ∨ pwr = s.pwr)
    (h_eng : Part.eng ∈ l ∨ eng = s.eng)
    (h_err : Part.err ∈ l ∨ err = s.err)
    (h_age : Part.age ∈ l ∨ age = s.age)
    (h_trc : Part.trc ∈ l ∨ trc = s.trc)
    (h_stop : Part.stop ∈ l ∨ stop = s.stop)
    (h_counters : Part.counters ∈ l ∨ counters = s.counters)
    (h_clearTime : Part.clearTime ∈ l ∨ clearTime = s.clearTime)
    (h_out : Part.out ∈ l ∨ out = s.out)
    (h_fresh : Part.fresh ∈ l ∨ fresh = s.fresh)
    :
    Same l s₀ ⟨board, glb, sb, cdc, flash, job, blocks, regions, queues, tensors, mem, gov, upd, drv, ports, lnkPorts, hci, pwr, eng, err, age, trc, stop, counters, clearTime, out, s.pending, fresh⟩ := by
  refine h.trans ⟨rfl, fun p hp => ?_⟩
  cases p
  · exact h_board.resolve_left hp
  · exact h_glb.resolve_left hp
  · exact h_sb.resolve_left hp
  · exact h_cdc.resolve_left hp
  · exact h_flash.resolve_left hp
  · exact h_job.resolve_left hp
  · exact h_blocks.resolve_left hp
  · exact h_regions.resolve_left hp
  · exact h_queues.resolve_left hp
  · exact h_tensors.resolve_left hp
  · exact h_mem.resolve_left hp
  · exact h_gov.resolve_left hp
  · exact h_upd.resolve_left hp
  · exact h_drv.resolve_left hp
  · exact h_ports.resolve_left hp
  · exact h_lnkPorts.resolve_left hp
  · exact h_hci.resolve_left hp
  · exact h_pwr.resolve_left hp
  · exact h_eng.resolve_left hp
  · exact h_err.resolve_left hp
  · exact h_age.resolve_left hp
  · exact h_trc.resolve_left hp
  · exact h_stop.resolve_left hp
  · exact h_counters.resolve_left hp
  · exact h_clearTime.resolve_left hp
  · exact h_out.resolve_left hp
  · exact h_fresh.resolve_left hp

@[simp] theorem same_ite {l : List Part} {s₀ a b : State} {c : Prop} [Decidable c] :
    Same l s₀ (if c then a else b) ↔ if c then Same l s₀ a else Same l s₀ b := by
  split <;> rfl

@[simp] theorem same_foldl {α : Type} {l : List Part} {s₀ : State} (f : State → α → State) (hf : ∀ s a, Same l s₀ s → Same l s₀ (f s a)) (r : List α)
    (s : State) (h : Same l s₀ s) : Same l s₀ (r.foldl f s) := by
  induction r generalizing s with
  | nil => exact h
  | cons a r ih => exact ih _ (hf s a h)

theorem same_foldl_fst {α β : Type} {l : List Part} {s₀ : State} (f : State × β → α → State × β) (hf : ∀ p a, Same l s₀ p.1 → Same l s₀ (f p a).1)
    (r : List α) (p : State × β) (h : Same l s₀ p.1) : Same l s₀ (r.foldl f p).1 := by
  induction r generalizing p with
  | nil => exact h
  | cons a r ih => exact ih _ (hf p a h)

/-! ## Ops -/

@[simp] theorem takeFree_same {s₀ s : State} {fp : List Part} (h : Same fp s₀ s) (m_fresh : Part.fresh ∈ fp) : Same fp s₀ ((takeFree s).2) := by unfold takeFree; simp (maxDischargeDepth := 40) [h, m_fresh]

@[simp] theorem State.stamped_same {s₀ s : State} {fp : List Part} (h : Same fp s₀ s) (m_fresh : Part.fresh ∈ fp) : Same fp s₀ (State.stamped s) := by unfold State.stamped; simp (maxDischargeDepth := 40) [h, m_fresh]

@[simp] theorem State.count_same {s₀ s : State} {fp : List Part} (group : Nat) (inst : Nat) (idx : Nat) (n : Nat) (h : Same fp s₀ s) (m_counters : Part.counters ∈ fp) : Same fp s₀ (State.count s group inst idx n) := by unfold State.count; simp (maxDischargeDepth := 40) [h, m_counters]

@[simp] theorem State.setBlk_same {s₀ s : State} {fp : List Part} (b : Nat) (x : Block) (h : Same fp s₀ s) (m_blocks : Part.blocks ∈ fp) : Same fp s₀ (State.setBlk s b x) := by unfold State.setBlk; simp (maxDischargeDepth := 40) [h, m_blocks]

@[simp] theorem State.modBlk_same {s₀ s : State} {fp : List Part} (b : Nat) (f : Block → Block) (h : Same fp s₀ s) (m_blocks : Part.blocks ∈ fp) : Same fp s₀ (State.modBlk s b f) := by unfold State.modBlk; simp (maxDischargeDepth := 40) [h, m_blocks]

@[simp] theorem State.setRgn_same {s₀ s : State} {fp : List Part} (r : Nat) (x : Region) (h : Same fp s₀ s) (m_regions : Part.regions ∈ fp) : Same fp s₀ (State.setRgn s r x) := by unfold State.setRgn; simp (maxDischargeDepth := 40) [h, m_regions]

@[simp] theorem State.modRgn_same {s₀ s : State} {fp : List Part} (r : Nat) (f : Region → Region) (h : Same fp s₀ s) (m_regions : Part.regions ∈ fp) : Same fp s₀ (State.modRgn s r f) := by unfold State.modRgn; simp (maxDischargeDepth := 40) [h, m_regions]

@[simp] theorem State.setPort_same {s₀ s : State} {fp : List Part} (p : Nat) (x : Port) (h : Same fp s₀ s) (m_ports : Part.ports ∈ fp) : Same fp s₀ (State.setPort s p x) := by unfold State.setPort; simp (maxDischargeDepth := 40) [h, m_ports]

@[simp] theorem State.modPort_same {s₀ s : State} {fp : List Part} (p : Nat) (f : Port → Port) (h : Same fp s₀ s) (m_ports : Part.ports ∈ fp) : Same fp s₀ (State.modPort s p f) := by unfold State.modPort; simp (maxDischargeDepth := 40) [h, m_ports]

@[simp] theorem State.setTen_same {s₀ s : State} {fp : List Part} (t : Nat) (x : TensorRt) (h : Same fp s₀ s) (m_tensors : Part.tensors ∈ fp) : Same fp s₀ (State.setTen s t x) := by unfold State.setTen; simp (maxDischargeDepth := 40) [h, m_tensors]

@[simp] theorem State.modTen_same {s₀ s : State} {fp : List Part} (t : Nat) (f : TensorRt → TensorRt) (h : Same fp s₀ s) (m_tensors : Part.tensors ∈ fp) : Same fp s₀ (State.modTen s t f) := by unfold State.modTen; simp (maxDischargeDepth := 40) [h, m_tensors]

@[simp] theorem State.setQueue_same {s₀ s : State} {fp : List Part} (q : Nat) (x : Queue) (h : Same fp s₀ s) (m_queues : Part.queues ∈ fp) : Same fp s₀ (State.setQueue s q x) := by unfold State.setQueue; simp (maxDischargeDepth := 40) [h, m_queues]

@[simp] theorem State.setSess_same {s₀ s : State} {fp : List Part} (n : Nat) (x : Session) (h : Same fp s₀ s) (m_hci : Part.hci ∈ fp) : Same fp s₀ (State.setSess s n x) := by unfold State.setSess; simp (maxDischargeDepth := 40) [h, m_hci]

@[simp] theorem State.sendBlock_same {s₀ s : State} {fp : List Part} (p : Nat) (f : Flit) (h : Same fp s₀ s) (m_ports : Part.ports ∈ fp) (m_counters : Part.counters ∈ fp) (m_out : Part.out ∈ fp) : Same fp s₀ (State.sendBlock s p f) := by unfold State.sendBlock; simp (maxDischargeDepth := 40) [h, m_ports, m_counters, m_out]

@[simp] theorem State.sendIdle_same {s₀ s : State} {fp : List Part} (p : Nat) (h : Same fp s₀ s) (m_counters : Part.counters ∈ fp) (m_out : Part.out ∈ fp) : Same fp s₀ (State.sendIdle s p) := by unfold State.sendIdle; simp (maxDischargeDepth := 40) [h, m_counters, m_out]

@[simp] theorem State.sendReturns_same {s₀ s : State} {fp : List Part} (p n : Nat) (h : Same fp s₀ s) (m_ports : Part.ports ∈ fp) (m_counters : Part.counters ∈ fp) (m_out : Part.out ∈ fp) : Same fp s₀ (s.sendReturns p n) := by
  induction n generalizing s with
  | zero => exact h
  | succ n ih =>
    simp only [State.sendReturns]
    split
    · exact h
    · exact ih (by simp (maxDischargeDepth := 60) [h, m_ports, m_counters, m_out])

@[simp] theorem State.repay_same {s₀ s : State} {fp : List Part} (p : Nat) (k : Nat) (n : Nat) (h : Same fp s₀ s) (m_ports : Part.ports ∈ fp) (m_counters : Part.counters ∈ fp) (m_out : Part.out ∈ fp) : Same fp s₀ (State.repay s p k n) := by unfold State.repay; simp (maxDischargeDepth := 40) [h, m_ports, m_counters, m_out]

@[simp] theorem State.leave_same {s₀ s : State} {fp : List Part} (f : Flit) (h : Same fp s₀ s) (m_ports : Part.ports ∈ fp) (m_counters : Part.counters ∈ fp) (m_out : Part.out ∈ fp) : Same fp s₀ (State.leave s f) := by unfold State.leave; simp (maxDischargeDepth := 40) [h, m_ports, m_counters, m_out]

@[simp] theorem State.pump_same {s₀ s : State} {fp : List Part} (p n : Nat) (h : Same fp s₀ s) (m_ports : Part.ports ∈ fp) (m_counters : Part.counters ∈ fp) (m_out : Part.out ∈ fp) : Same fp s₀ (s.pump p n) := by
  induction n generalizing s with
  | zero => exact h
  | succ n ih =>
    simp only [State.pump]
    (repeat' split) <;> simp (maxDischargeDepth := 40) [h, ih, m_ports, m_counters, m_out]

@[simp] theorem State.flush_same {s₀ s : State} {fp : List Part} (p : Nat) (h : Same fp s₀ s) (m_ports : Part.ports ∈ fp) (m_counters : Part.counters ∈ fp) (m_out : Part.out ∈ fp) : Same fp s₀ (State.flush s p) := by unfold State.flush; simp (maxDischargeDepth := 40) [h, m_ports, m_counters, m_out]

@[simp] theorem State.catchUp_same {s₀ s : State} {fp : List Part} (p : Nat) (h : Same fp s₀ s) (m_ports : Part.ports ∈ fp) (m_counters : Part.counters ∈ fp) (m_out : Part.out ∈ fp) : Same fp s₀ (State.catchUp s p) := by unfold State.catchUp; simp (maxDischargeDepth := 40) [h, m_ports, m_counters, m_out]

@[simp] theorem State.atPort_same {s₀ s : State} {fp : List Part} (p : Nat) (l : List Flit) (h : Same fp s₀ s) (m_ports : Part.ports ∈ fp) : Same fp s₀ (State.atPort s p l) := by unfold State.atPort; simp (maxDischargeDepth := 40) [h, m_ports]

@[simp] theorem State.enqueue_same {s₀ s : State} {fp : List Part} (p : Nat) (l : List Flit) (h : Same fp s₀ s) (m_ports : Part.ports ∈ fp) (m_counters : Part.counters ∈ fp) (m_out : Part.out ∈ fp) : Same fp s₀ (State.enqueue s p l) := by unfold State.enqueue; simp (maxDischargeDepth := 40) [h, m_ports, m_counters, m_out]

@[simp] theorem State.spread_same {s₀ s : State} {fp : List Part} (ports : List Nat) (f : Flit) (h : Same fp s₀ s) (m_ports : Part.ports ∈ fp) (m_counters : Part.counters ∈ fp) (m_out : Part.out ∈ fp) : Same fp s₀ (State.spread s ports f) := by unfold State.spread; simp +contextual (maxDischargeDepth := 40) [h, m_ports, m_counters, m_out]

@[simp] theorem State.send_same {s₀ s : State} {fp : List Part} (o : Out) (h : Same fp s₀ s) (m_ports : Part.ports ∈ fp) (m_counters : Part.counters ∈ fp) (m_out : Part.out ∈ fp) : Same fp s₀ (State.send s o) := by
  simp only [State.send]
  (repeat' split) <;> simp +contextual (maxDischargeDepth := 40) [h, m_ports, m_counters, m_out]

@[simp] theorem State.sendAll_same {s₀ s : State} {fp : List Part} (l : List Out) (h : Same fp s₀ s) (m_ports : Part.ports ∈ fp) (m_counters : Part.counters ∈ fp) (m_out : Part.out ∈ fp) : Same fp s₀ (State.sendAll s l) := by unfold State.sendAll; simp +contextual (maxDischargeDepth := 40) [h, m_ports, m_counters, m_out]

@[simp] theorem State.taken_same {s₀ s : State} {fp : List Part} (p : Nat) (bytes : List Byte) (h : Same fp s₀ s) (m_ports : Part.ports ∈ fp) : Same fp s₀ (State.taken s p bytes) := by
  simp only [State.taken]
  (repeat' split) <;> simp +contextual (maxDischargeDepth := 40) [h, m_ports]

@[simp] theorem State.hold_same {s₀ s : State} {fp : List Part} (i : Instr) (h : Same fp s₀ s) (m_hci : Part.hci ∈ fp) : Same fp s₀ (State.hold s i) := by unfold State.hold; simp (maxDischargeDepth := 40) [h, m_hci]

/-! ## TraceOps -/

@[simp] theorem State.dropTrace_same {s₀ s : State} {fp : List Part} (region : Nat) (n : Nat) (h : Same fp s₀ s) (m_regions : Part.regions ∈ fp) (m_counters : Part.counters ∈ fp) : Same fp s₀ (State.dropTrace s region n) := by unfold State.dropTrace; simp (maxDischargeDepth := 40) [h, m_regions, m_counters]

@[simp] theorem State.fireTrigger_same {s₀ s : State} {fp : List Part} (h : Same fp s₀ s) (m_regions : Part.regions ∈ fp) (m_trc : Part.trc ∈ fp) (m_counters : Part.counters ∈ fp) : Same fp s₀ (State.fireTrigger s) := by unfold State.fireTrigger; simp (maxDischargeDepth := 40) [h, m_regions, m_trc, m_counters]

@[simp] theorem State.writeTrace_same {s₀ s : State} {fp : List Part} (region : Nat) (l : List TRec) (h : Same fp s₀ s) (m_regions : Part.regions ∈ fp) (m_trc : Part.trc ∈ fp) (m_counters : Part.counters ∈ fp) : Same fp s₀ (State.writeTrace s region l) := by unfold State.writeTrace; simp (maxDischargeDepth := 40) [h, m_regions, m_trc, m_counters]

@[simp] theorem State.drainFifo_same {s₀ s : State} {fp : List Part} (r n : Nat) (h : Same fp s₀ s) (m_regions : Part.regions ∈ fp) (m_trc : Part.trc ∈ fp) (m_counters : Part.counters ∈ fp) : Same fp s₀ (s.drainFifo r n) := by
  induction n generalizing s with
  | zero => exact h
  | succ n ih =>
    simp only [State.drainFifo]
    (repeat' split) <;> simp (maxDischargeDepth := 60) [h, m_regions, m_trc, m_counters, ih]

@[simp] theorem State.offer_same {s₀ s : State} {fp : List Part} (region : Nat) (l : List TRec) (h : Same fp s₀ s) (m_regions : Part.regions ∈ fp) (m_trc : Part.trc ∈ fp) (m_counters : Part.counters ∈ fp) : Same fp s₀ (State.offer s region l) := by unfold State.offer; simp (maxDischargeDepth := 40) [h, m_regions, m_trc, m_counters]

@[simp] theorem State.trace_same {s₀ s : State} {fp : List Part} (region : Nat) (r : TRec) (h : Same fp s₀ s) (m_regions : Part.regions ∈ fp) (m_trc : Part.trc ∈ fp) (m_counters : Part.counters ∈ fp) : Same fp s₀ (State.trace s region r) := by unfold State.trace; simp (maxDischargeDepth := 40) [h, m_regions, m_trc, m_counters]

@[simp] theorem State.stopRecords_same {s₀ s : State} {fp : List Part} (region : Nat) (l : List TRec) (h : Same fp s₀ s) (m_regions : Part.regions ∈ fp) (m_trc : Part.trc ∈ fp) (m_counters : Part.counters ∈ fp) : Same fp s₀ (State.stopRecords s region l) := by unfold State.stopRecords; simp (maxDischargeDepth := 40) [h, m_regions, m_trc, m_counters]

/-! ## Faults -/

@[simp] theorem State.alert_same {s₀ s : State} {fp : List Part} (b : Nat) (h : Same fp s₀ s) (m_err : Part.err ∈ fp) : Same fp s₀ (State.alert s b) := by unfold State.alert; simp (maxDischargeDepth := 40) [h, m_err]

@[simp] theorem logReport_same {s₀ s : State} {fp : List Part} (code : Nat) (src : Nat) (ctx : Nat) (time : Nat) (h : Same fp s₀ s) (m_err : Part.err ∈ fp) : Same fp s₀ (logReport s code src ctx time) := by
  simp only [logReport]
  (repeat' split) <;> simp +contextual (maxDischargeDepth := 40) [h, m_err]

@[simp] theorem addLife_same {s₀ s : State} {fp : List Part} (kind : Nat) (body : List Byte) (h : Same fp s₀ s) (m_flash : Part.flash ∈ fp) : Same fp s₀ (addLife s kind body) := by unfold addLife; simp (maxDischargeDepth := 40) [h, m_flash]

@[simp] theorem State.lifeReport_same {s₀ s : State} {fp : List Part} (code : Nat) (src : Nat) (ctx : Nat) (time : Nat) (h : Same fp s₀ s) (m_flash : Part.flash ∈ fp) : Same fp s₀ (State.lifeReport s code src ctx time) := by
  simp only [State.lifeReport]
  (repeat' split) <;> simp +contextual (maxDischargeDepth := 40) [h, m_flash]

@[simp] theorem toWindow_same {s₀ s : State} {fp : List Part} (code : Nat) (src : Nat) (ctx : Nat) (time : Nat) (dev : Option Nat) (h : Same fp s₀ s) (m_err : Part.err ∈ fp) : Same fp s₀ (toWindow s code src ctx time dev) := by unfold toWindow; simp (maxDischargeDepth := 40) [h, m_err]

@[simp] theorem quietStop_same {s₀ s : State} {fp : List Part} (code : Nat) (src : Nat) (ctx : Nat) (time : Nat) (dev : Option Nat) (h : Same fp s₀ s) (m_err : Part.err ∈ fp) : Same fp s₀ (quietStop s code src ctx time dev) := by unfold quietStop; simp (maxDischargeDepth := 40) [h, m_err]

@[simp] theorem stopFor_same {s₀ s : State} {fp : List Part} (code : Nat) (src : Nat) (ctx : Nat) (time : Nat) (h : Same fp s₀ s) (m_err : Part.err ∈ fp) : Same fp s₀ (stopFor s code src ctx time) := by unfold stopFor; simp (maxDischargeDepth := 40) [h, m_err]

@[simp] theorem reportAt_same {s₀ s : State} {fp : List Part} (code : Nat) (src : Nat) (ctx : Nat) (time : Nat) (h : Same fp s₀ s) (m_flash : Part.flash ∈ fp) (m_regions : Part.regions ∈ fp) (m_err : Part.err ∈ fp) (m_trc : Part.trc ∈ fp) (m_counters : Part.counters ∈ fp) : Same fp s₀ (reportAt s code src ctx time) := by
  simp only [reportAt]
  (repeat' split) <;> simp +contextual (maxDischargeDepth := 40) [h, m_flash, m_regions, m_err, m_trc, m_counters]

@[simp] theorem State.dropReport_same {s₀ s : State} {fp : List Part} (h : Same fp s₀ s) (m_err : Part.err ∈ fp) : Same fp s₀ (State.dropReport s) := by unfold State.dropReport; simp (maxDischargeDepth := 40) [h, m_err]

@[simp] theorem State.passReport_same {s₀ s : State} {fp : List Part} (code : Nat) (src : Nat) (ctx : Nat) (time : Nat) (h : Same fp s₀ s) (m_flash : Part.flash ∈ fp) (m_regions : Part.regions ∈ fp) (m_err : Part.err ∈ fp) (m_trc : Part.trc ∈ fp) (m_counters : Part.counters ∈ fp) : Same fp s₀ (State.passReport s code src ctx time) := by unfold State.passReport; simp (maxDischargeDepth := 40) [h, m_flash, m_regions, m_err, m_trc, m_counters]

@[simp] theorem raise_same {s₀ s : State} {fp : List Part} (code : Nat) (src : Nat) (ctx : Nat) (h : Same fp s₀ s) (m_flash : Part.flash ∈ fp) (m_regions : Part.regions ∈ fp) (m_err : Part.err ∈ fp) (m_trc : Part.trc ∈ fp) (m_counters : Part.counters ∈ fp) (m_fresh : Part.fresh ∈ fp) : Same fp s₀ (raise s code src ctx) := by unfold raise; simp (maxDischargeDepth := 40) [h, m_flash, m_regions, m_err, m_trc, m_counters, m_fresh]

@[simp] theorem State.blkSticky_same {s₀ s : State} {fp : List Part} (b : Nat) (bit : Nat) (h : Same fp s₀ s) (m_blocks : Part.blocks ∈ fp) : Same fp s₀ (State.blkSticky s b bit) := by unfold State.blkSticky; simp (maxDischargeDepth := 40) [h, m_blocks]

@[simp] theorem State.rgnSticky_same {s₀ s : State} {fp : List Part} (r : Nat) (bit : Nat) (h : Same fp s₀ s) (m_regions : Part.regions ∈ fp) : Same fp s₀ (State.rgnSticky s r bit) := by unfold State.rgnSticky; simp (maxDischargeDepth := 40) [h, m_regions]

@[simp] theorem State.discard_same {s₀ s : State} {fp : List Part} (b : Nat) (n : Nat) (h : Same fp s₀ s) (m_blocks : Part.blocks ∈ fp) (m_counters : Part.counters ∈ fp) : Same fp s₀ (State.discard s b n) := by unfold State.discard; simp (maxDischargeDepth := 40) [h, m_blocks, m_counters]

/-! ## Tensor -/

@[simp] theorem State.tStore_same {s₀ s : State} {fp : List Part} (d : Desc) (a : Nat) (v : Byte) (h : Same fp s₀ s) (m_blocks : Part.blocks ∈ fp) (m_mem : Part.mem ∈ fp) : Same fp s₀ (State.tStore s d a v) := by unfold State.tStore; simp (maxDischargeDepth := 40) [h, m_blocks, m_mem]

@[simp] theorem State.tStoreBits_same {s₀ s : State} {fp : List Part} (d : Desc) (byte : Nat) (bit : Nat) (w : Nat) (v : Nat) (h : Same fp s₀ s) (m_blocks : Part.blocks ∈ fp) (m_mem : Part.mem ∈ fp) : Same fp s₀ (State.tStoreBits s d byte bit w v) := by unfold State.tStoreBits; simp +contextual (maxDischargeDepth := 40) [h, m_blocks, m_mem]

@[simp] theorem State.setUnit_same {s₀ s : State} {fp : List Part} (d : Desc) (u : Nat) (covered : Nat) (pois : Bool) (h : Same fp s₀ s) (m_blocks : Part.blocks ∈ fp) (m_mem : Part.mem ∈ fp) : Same fp s₀ (State.setUnit s d u covered pois) := by unfold State.setUnit; simp (maxDischargeDepth := 40) [h, m_blocks, m_mem]

@[simp] theorem State.countMemWrites_same {s₀ s : State} {fp : List Part} (m : Map (Nat × Bool)) (adds : Bool) (h : Same fp s₀ s) (m_counters : Part.counters ∈ fp) : Same fp s₀ (State.countMemWrites s m adds) := by unfold State.countMemWrites; simp +contextual (maxDischargeDepth := 40) [h, m_counters]

@[simp] theorem State.writePieces_same {s₀ s : State} {fp : List Part} (d : Desc) (ps : List Piece) (adds : Bool) (h : Same fp s₀ s) (m_blocks : Part.blocks ∈ fp) (m_mem : Part.mem ∈ fp) (m_counters : Part.counters ∈ fp) : Same fp s₀ (State.writePieces s d ps adds) := by unfold State.writePieces; simp +contextual (maxDischargeDepth := 40) [h, m_blocks, m_mem, m_counters]

@[simp] theorem State.setPlan_same {s₀ s : State} {fp : List Part} (d : Desc) (off : Nat) (blk : Nat) (e : Nat × Nat) (h : Same fp s₀ s) (m_blocks : Part.blocks ∈ fp) (m_mem : Part.mem ∈ fp) (m_counters : Part.counters ∈ fp) : Same fp s₀ (State.setPlan s d off blk e) := by unfold State.setPlan; simp (maxDischargeDepth := 40) [h, m_blocks, m_mem, m_counters]

@[simp] theorem State.setPlans_same {s₀ s : State} {fp : List Part} (d : Desc) (off : Nat) (l : List (Nat × Nat)) (h : Same fp s₀ s) (m_blocks : Part.blocks ∈ fp) (m_mem : Part.mem ∈ fp) (m_counters : Part.counters ∈ fp) : Same fp s₀ (State.setPlans s d off l) := by unfold State.setPlans; simp (maxDischargeDepth := 40) [h, m_blocks, m_mem, m_counters]

@[simp] theorem State.planDone_same {s₀ s : State} {fp : List Part} (v : View) (x : Done) (h : Same fp s₀ s) (m_blocks : Part.blocks ∈ fp) (m_tensors : Part.tensors ∈ fp) (m_mem : Part.mem ∈ fp) (m_counters : Part.counters ∈ fp) : Same fp s₀ (State.planDone s v x) := by
  simp only [State.planDone]
  (repeat' split) <;> simp +contextual (maxDischargeDepth := 40) [h, m_blocks, m_tensors, m_mem, m_counters]

@[simp] theorem State.markWritten_same {s₀ s : State} {fp : List Part} (t : Nat) (blk : Nat) (h : Same fp s₀ s) (m_tensors : Part.tensors ∈ fp) : Same fp s₀ (State.markWritten s t blk) := by unfold State.markWritten; simp (maxDischargeDepth := 40) [h, m_tensors]

@[simp] theorem State.writeRun_same {s₀ s : State} {fp : List Part} (v : View) (c : WCtx) (off : Nat) (vals : List Val) (h : Same fp s₀ s) (m_blocks : Part.blocks ∈ fp) (m_tensors : Part.tensors ∈ fp) (m_mem : Part.mem ∈ fp) (m_counters : Part.counters ∈ fp) : Same fp s₀ ((State.writeRun s v c off vals).1) := by unfold State.writeRun; simp +contextual (maxDischargeDepth := 40) [h, m_blocks, m_tensors, m_mem, m_counters]

@[simp] theorem State.writeView_same {s₀ s : State} {fp : List Part} (v : View) (c : WCtx) (vals : List Val) (h : Same fp s₀ s) (m_blocks : Part.blocks ∈ fp) (m_tensors : Part.tensors ∈ fp) (m_mem : Part.mem ∈ fp) (m_counters : Part.counters ∈ fp) : Same fp s₀ ((State.writeView s v c vals).1) := by unfold State.writeView; simp (maxDischargeDepth := 40) [h, m_blocks, m_tensors, m_mem, m_counters]

@[simp] theorem State.writeRaw_same {s₀ s : State} {fp : List Part} (v : View) (off : Nat) (elems : List RawEl) (h : Same fp s₀ s) (m_blocks : Part.blocks ∈ fp) (m_tensors : Part.tensors ∈ fp) (m_mem : Part.mem ∈ fp) (m_counters : Part.counters ∈ fp) : Same fp s₀ (State.writeRaw s v off elems) := by unfold State.writeRaw; simp +contextual (maxDischargeDepth := 40) [h, m_blocks, m_tensors, m_mem, m_counters]

@[simp] theorem State.settle_same {s₀ s : State} {fp : List Part} (t : Nat) (n : Nat) (h : Same fp s₀ s) (m_blocks : Part.blocks ∈ fp) (m_tensors : Part.tensors ∈ fp) (m_mem : Part.mem ∈ fp) (m_counters : Part.counters ∈ fp) : Same fp s₀ (State.settle s t n) := by
  simp only [State.settle]
  (repeat' split) <;> simp +contextual (maxDischargeDepth := 40) [h, m_blocks, m_tensors, m_mem, m_counters]

@[simp] theorem State.clearView_same {s₀ s : State} {fp : List Part} (v : View) (h : Same fp s₀ s) (m_blocks : Part.blocks ∈ fp) (m_tensors : Part.tensors ∈ fp) (m_mem : Part.mem ∈ fp) (m_counters : Part.counters ∈ fp) : Same fp s₀ (State.clearView s v) := by unfold State.clearView; simp (maxDischargeDepth := 40) [h, m_blocks, m_tensors, m_mem, m_counters]

/-! ## Program -/

@[simp] theorem State.setRun_same {s₀ s : State} {fp : List Part} (b : Nat) (i : Nat) (r : StageRun) (h : Same fp s₀ s) (m_blocks : Part.blocks ∈ fp) : Same fp s₀ (State.setRun s b i r) := by unfold State.setRun; simp (maxDischargeDepth := 40) [h, m_blocks]

@[simp] theorem State.modRun_same {s₀ s : State} {fp : List Part} (b : Nat) (i : Nat) (f : StageRun → StageRun) (h : Same fp s₀ s) (m_blocks : Part.blocks ∈ fp) : Same fp s₀ (State.modRun s b i f) := by unfold State.modRun; simp (maxDischargeDepth := 40) [h, m_blocks]

end Sys2Proof.Machine
end

