-- ==== Sys2Proof/Laws/FrameQueue.lean ====
section
/-! SUPPORT. Frames of queues, memory operations, energy records, sessions and completions, firing, Drover sending and the seals. -/

namespace Sys2Proof.Machine

set_option linter.unusedSimpArgs false
set_option linter.unusedVariables false

/-! ## Queue -/

@[simp] theorem State.setCtl_same {s₀ s : State} {fp : List Part} (r : Nat) (c : Nat) (x : CellCtl) (h : Same fp s₀ s) (m_regions : Part.regions ∈ fp) : Same fp s₀ (State.setCtl s r c x) := by unfold State.setCtl; simp (maxDischargeDepth := 40) [h, m_regions]

@[simp] theorem State.closeCell_same {s₀ s : State} {fp : List Part} (r : Nat) (c : Nat) (h : Same fp s₀ s) (m_regions : Part.regions ∈ fp) (m_counters : Part.counters ∈ fp) : Same fp s₀ (State.closeCell s r c) := by unfold State.closeCell; simp (maxDischargeDepth := 40) [h, m_regions, m_counters]

@[simp] theorem State.closeTail_same {s₀ s : State} {fp : List Part} (qid : Nat) (h : Same fp s₀ s) (m_regions : Part.regions ∈ fp) (m_queues : Part.queues ∈ fp) (m_counters : Part.counters ∈ fp) : Same fp s₀ (State.closeTail s qid) := by
  simp only [State.closeTail]
  (repeat' split) <;> simp +contextual (maxDischargeDepth := 40) [h, m_regions, m_queues, m_counters]

@[simp] theorem State.progress_same {s₀ s : State} {fp : List Part} (h : Same fp s₀ s) (m_regions : Part.regions ∈ fp) : Same fp s₀ (State.progress s) := by unfold State.progress; simp (maxDischargeDepth := 40) [h, m_regions]

@[simp] theorem State.freeBefore_same {s₀ s : State} {fp : List Part} (qid : Nat) (p : Pos) (h : Same fp s₀ s) (m_regions : Part.regions ∈ fp) (m_queues : Part.queues ∈ fp) : Same fp s₀ (State.freeBefore s qid p) := by
  simp only [State.freeBefore]
  (repeat' split) <;> simp +contextual (maxDischargeDepth := 40) [h, m_regions, m_queues]

@[simp] theorem State.freePassed_same {s₀ s : State} {fp : List Part} (qid : Nat) (h : Same fp s₀ s) (m_regions : Part.regions ∈ fp) (m_queues : Part.queues ∈ fp) : Same fp s₀ (State.freePassed s qid) := by
  simp only [State.freePassed]
  (repeat' split) <;> simp +contextual (maxDischargeDepth := 40) [h, m_regions, m_queues]

@[simp] theorem State.gateOpens_same {s₀ s : State} {fp : List Part} (qid : Nat) (h : Same fp s₀ s) (m_regions : Part.regions ∈ fp) (m_queues : Part.queues ∈ fp) (m_counters : Part.counters ∈ fp) : Same fp s₀ (State.gateOpens s qid) := by
  simp only [State.gateOpens]
  (repeat' split) <;> simp +contextual (maxDischargeDepth := 40) [h, m_regions, m_queues, m_counters]

@[simp] theorem State.grantFirst_same {s₀ s : State} {fp : List Part} (qid : Nat) (h : Same fp s₀ s) (m_regions : Part.regions ∈ fp) (m_queues : Part.queues ∈ fp) (m_counters : Part.counters ∈ fp) : Same fp s₀ (State.grantFirst s qid) := by
  simp only [State.grantFirst]
  (repeat' split) <;> simp +contextual (maxDischargeDepth := 40) [h, m_regions, m_queues, m_counters]

@[simp] theorem State.writeWord_same {s₀ s : State} {fp : List Part} (qid : Nat) (p : Pos) (w : PWord) (h : Same fp s₀ s) (m_regions : Part.regions ∈ fp) (m_counters : Part.counters ∈ fp) : Same fp s₀ (State.writeWord s qid p w) := by unfold State.writeWord; simp (maxDischargeDepth := 40) [h, m_regions, m_counters]

@[simp] theorem State.closeFull_same {s₀ s : State} {fp : List Part} (qid : Nat) (e : QEntry) (cells : List Nat) (h : Same fp s₀ s) (m_regions : Part.regions ∈ fp) (m_counters : Part.counters ∈ fp) : Same fp s₀ (State.closeFull s qid e cells) := by unfold State.closeFull; simp +contextual (maxDischargeDepth := 40) [h, m_regions, m_counters]

@[simp] theorem State.writeTransfer_same {s₀ s : State} {fp : List Part} (qid : Nat) (who : Requester) (step : Nat) (bytes : List Byte) (pois : List Bool) (h : Same fp s₀ s) (m_regions : Part.regions ∈ fp) (m_queues : Part.queues ∈ fp) (m_counters : Part.counters ∈ fp) : Same fp s₀ (State.writeTransfer s qid who step bytes pois) := by
  simp only [State.writeTransfer]
  (repeat' split) <;> simp +contextual (maxDischargeDepth := 40) [h, m_regions, m_queues, m_counters]

@[simp] theorem State.takeUnits_same {s₀ s : State} {fp : List Part} (qid : Nat) (n : Nat) (step : Nat) (h : Same fp s₀ s) (m_regions : Part.regions ∈ fp) (m_queues : Part.queues ∈ fp) : Same fp s₀ (State.takeUnits s qid n step) := by
  simp only [State.takeUnits]
  (repeat' split) <;> simp +contextual (maxDischargeDepth := 40) [h, m_regions, m_queues]

@[simp] theorem State.markBroken_same {s₀ s : State} {fp : List Part} (qid : Nat) (h : Same fp s₀ s) (m_regions : Part.regions ∈ fp) (m_queues : Part.queues ∈ fp) : Same fp s₀ (State.markBroken s qid) := by
  simp only [State.markBroken]
  (repeat' split) <;> simp +contextual (maxDischargeDepth := 40) [h, m_regions, m_queues]

@[simp] theorem State.breakQueue_same {s₀ s : State} {fp : List Part} (qid : Nat) (detail : Nat) (h : Same fp s₀ s) (m_flash : Part.flash ∈ fp) (m_regions : Part.regions ∈ fp) (m_queues : Part.queues ∈ fp) (m_err : Part.err ∈ fp) (m_trc : Part.trc ∈ fp) (m_counters : Part.counters ∈ fp) (m_fresh : Part.fresh ∈ fp) : Same fp s₀ (State.breakQueue s qid detail) := by unfold State.breakQueue; simp (maxDischargeDepth := 40) [h, m_flash, m_regions, m_queues, m_err, m_trc, m_counters, m_fresh]

@[simp] theorem State.payloadParity_same {s₀ s : State} {fp : List Part} (qid : Nat) (h : Same fp s₀ s) (m_flash : Part.flash ∈ fp) (m_regions : Part.regions ∈ fp) (m_queues : Part.queues ∈ fp) (m_err : Part.err ∈ fp) (m_trc : Part.trc ∈ fp) (m_counters : Part.counters ∈ fp) (m_fresh : Part.fresh ∈ fp) : Same fp s₀ (State.payloadParity s qid) := by
  simp only [State.payloadParity]
  (repeat' split) <;> simp +contextual (maxDischargeDepth := 40) [h, m_flash, m_regions, m_queues, m_err, m_trc, m_counters, m_fresh]

@[simp] theorem State.consumerStarts_same {s₀ s : State} {fp : List Part} (qid : Nat) (h : Same fp s₀ s) (m_queues : Part.queues ∈ fp) : Same fp s₀ (State.consumerStarts s qid) := by
  simp only [State.consumerStarts]
  (repeat' split) <;> simp +contextual (maxDischargeDepth := 40) [h, m_queues]

@[simp] theorem State.commitQueue_same {s₀ s : State} {fp : List Part} (qid : Nat) (n : Nat) (h : Same fp s₀ s) (m_regions : Part.regions ∈ fp) (m_queues : Part.queues ∈ fp) : Same fp s₀ (State.commitQueue s qid n) := by
  simp only [State.commitQueue]
  (repeat' split) <;> simp +contextual (maxDischargeDepth := 40) [h, m_regions, m_queues]

@[simp] theorem State.rewindRetained_same {s₀ s : State} {fp : List Part} (qid : Nat) (n : Nat) (q : Queue) (skip : Bool) (h : Same fp s₀ s) (m_regions : Part.regions ∈ fp) (m_queues : Part.queues ∈ fp) (m_counters : Part.counters ∈ fp) : Same fp s₀ (State.rewindRetained s qid n q skip) := by unfold State.rewindRetained; simp (maxDischargeDepth := 40) [h, m_regions, m_queues, m_counters]

@[simp] theorem State.rewindEgress_same {s₀ s : State} {fp : List Part} (qid : Nat) (n : Nat) (q : Queue) (h : Same fp s₀ s) (m_regions : Part.regions ∈ fp) (m_queues : Part.queues ∈ fp) (m_counters : Part.counters ∈ fp) : Same fp s₀ (State.rewindEgress s qid n q) := by unfold State.rewindEgress; simp (maxDischargeDepth := 40) [h, m_regions, m_queues, m_counters]

@[simp] theorem State.clearQueue_same {s₀ s : State} {fp : List Part} (qid : Nat) (n : Nat) (q : Queue) (h : Same fp s₀ s) (m_regions : Part.regions ∈ fp) (m_queues : Part.queues ∈ fp) (m_counters : Part.counters ∈ fp) : Same fp s₀ (State.clearQueue s qid n q) := by unfold State.clearQueue; simp (maxDischargeDepth := 40) [h, m_regions, m_queues, m_counters]

@[simp] theorem State.squashQueue_same {s₀ s : State} {fp : List Part} (qid : Nat) (n : Nat) (next : Nat) (skip : Bool) (h : Same fp s₀ s) (m_regions : Part.regions ∈ fp) (m_queues : Part.queues ∈ fp) (m_counters : Part.counters ∈ fp) : Same fp s₀ (State.squashQueue s qid n next skip) := by
  simp only [State.squashQueue]
  (repeat' split) <;> simp +contextual (maxDischargeDepth := 40) [h, m_regions, m_queues, m_counters]

/-! ## MemOps -/

@[simp] theorem State.crcShown_same {s₀ s : State} {fp : List Part} (b : Nat) (result : Nat) (h : Same fp s₀ s) (m_mem : Part.mem ∈ fp) : Same fp s₀ (State.crcShown s b result) := by unfold State.crcShown; simp (maxDischargeDepth := 40) [h, m_mem]

@[simp] theorem State.writeExhaust_same {s₀ s : State} {fp : List Part} (b : Nat) (h : Same fp s₀ s) (m_flash : Part.flash ∈ fp) (m_regions : Part.regions ∈ fp) (m_err : Part.err ∈ fp) (m_trc : Part.trc ∈ fp) (m_counters : Part.counters ∈ fp) (m_fresh : Part.fresh ∈ fp) : Same fp s₀ (State.writeExhaust s b) := by unfold State.writeExhaust; simp (maxDischargeDepth := 40) [h, m_flash, m_regions, m_err, m_trc, m_counters, m_fresh]

@[simp] theorem State.fetch_same {s₀ s : State} {fp : List Part} (ups : Upsets) (b : Nat) (h : Same fp s₀ s) (m_flash : Part.flash ∈ fp) (m_regions : Part.regions ∈ fp) (m_mem : Part.mem ∈ fp) (m_err : Part.err ∈ fp) (m_trc : Part.trc ∈ fp) (m_counters : Part.counters ∈ fp) (m_fresh : Part.fresh ∈ fp) : Same fp s₀ ((State.fetch s ups b).1) := by
  simp only [State.fetch]
  (repeat' split) <;> simp +contextual (maxDischargeDepth := 40) [h, m_flash, m_regions, m_mem, m_err, m_trc, m_counters, m_fresh]

@[simp] theorem State.cacheMeta_same {s₀ s : State} {fp : List Part} (b : Nat) (h : Same fp s₀ s) (m_mem : Part.mem ∈ fp) (m_fresh : Part.fresh ∈ fp) : Same fp s₀ (State.cacheMeta s b) := by unfold State.cacheMeta; simp (maxDischargeDepth := 40) [h, m_mem, m_fresh]

@[simp] theorem State.touchMeta_same {s₀ s : State} {fp : List Part} (ups : Upsets) (b : Nat) (h : Same fp s₀ s) (m_flash : Part.flash ∈ fp) (m_regions : Part.regions ∈ fp) (m_mem : Part.mem ∈ fp) (m_err : Part.err ∈ fp) (m_trc : Part.trc ∈ fp) (m_counters : Part.counters ∈ fp) (m_fresh : Part.fresh ∈ fp) : Same fp s₀ ((State.touchMeta s ups b).1) := by
  simp only [State.touchMeta]
  (repeat' split) <;> simp +contextual (maxDischargeDepth := 40) [h, m_flash, m_regions, m_mem, m_err, m_trc, m_counters, m_fresh]

@[simp] theorem State.readBlock_same {s₀ s : State} {fp : List Part} (ups : Upsets) (b : Nat) (h : Same fp s₀ s) (m_flash : Part.flash ∈ fp) (m_regions : Part.regions ∈ fp) (m_mem : Part.mem ∈ fp) (m_err : Part.err ∈ fp) (m_trc : Part.trc ∈ fp) (m_counters : Part.counters ∈ fp) (m_fresh : Part.fresh ∈ fp) : Same fp s₀ ((State.readBlock s ups b).1) := by
  simp only [State.readBlock]
  (repeat' split) <;> simp +contextual (maxDischargeDepth := 40) [h, m_flash, m_regions, m_mem, m_err, m_trc, m_counters, m_fresh]

@[simp] theorem State.readBlocks_same {s₀ s : State} {fp : List Part} (ups : Upsets) (l : List Nat) (h : Same fp s₀ s) (m_flash : Part.flash ∈ fp) (m_regions : Part.regions ∈ fp) (m_mem : Part.mem ∈ fp) (m_err : Part.err ∈ fp) (m_trc : Part.trc ∈ fp) (m_counters : Part.counters ∈ fp) (m_fresh : Part.fresh ∈ fp) : Same fp s₀ (s.readBlocks ups l).1 := by
  induction l generalizing s with
  | nil => exact h
  | cons b r ih =>
    have k : Same fp s₀ (s.readBlock ups b).1 := by simp (maxDischargeDepth := 60) +contextual [h, m_flash, m_regions, m_mem, m_err, m_trc, m_counters, m_fresh]
    simp only [State.readBlocks]
    split
    · exact k
    · exact ih k

@[simp] theorem State.writeBlocks_same {s₀ s : State} {fp : List Part} (ups : Upsets) (l : List Nat) (h : Same fp s₀ s) (m_flash : Part.flash ∈ fp) (m_regions : Part.regions ∈ fp) (m_mem : Part.mem ∈ fp) (m_err : Part.err ∈ fp) (m_trc : Part.trc ∈ fp) (m_counters : Part.counters ∈ fp) (m_fresh : Part.fresh ∈ fp) : Same fp s₀ (s.writeBlocks ups l).1 := by
  induction l generalizing s with
  | nil => exact h
  | cons b r ih =>
    have k : Same fp s₀ (s.touchMeta ups b).1 := by simp (maxDischargeDepth := 60) +contextual [h, m_flash, m_regions, m_mem, m_err, m_trc, m_counters, m_fresh]
    simp only [State.writeBlocks]
    split
    · exact k
    · split
      · simp (maxDischargeDepth := 60) +contextual [k, m_flash, m_regions, m_mem, m_err, m_trc, m_counters, m_fresh]
      · exact ih (by simp (maxDischargeDepth := 60) +contextual [k, m_flash, m_regions, m_mem, m_err, m_trc, m_counters, m_fresh])

@[simp] theorem State.setPage_same {s₀ s : State} {fp : List Part} (p : Nat) (x : Page) (h : Same fp s₀ s) (m_mem : Part.mem ∈ fp) : Same fp s₀ (State.setPage s p x) := by unfold State.setPage; simp (maxDischargeDepth := 40) [h, m_mem]

@[simp] theorem State.usePage_same {s₀ s : State} {fp : List Part} (p : Nat) (h : Same fp s₀ s) (m_mem : Part.mem ∈ fp) : Same fp s₀ (State.usePage s p) := by unfold State.usePage; simp (maxDischargeDepth := 40) [h, m_mem]

@[simp] theorem State.abortEviction_same {s₀ s : State} {fp : List Part} (p : Nat) (h : Same fp s₀ s) (m_mem : Part.mem ∈ fp) (m_counters : Part.counters ∈ fp) : Same fp s₀ (State.abortEviction s p) := by
  simp only [State.abortEviction]
  (repeat' split) <;> simp +contextual (maxDischargeDepth := 40) [h, m_mem, m_counters]

@[simp] theorem State.requestPage_same {s₀ s : State} {fp : List Part} (p : Nat) (region : Nat) (h : Same fp s₀ s) (m_mem : Part.mem ∈ fp) : Same fp s₀ (State.requestPage s p region) := by unfold State.requestPage; simp (maxDischargeDepth := 40) [h, m_mem]

@[simp] theorem State.barFault_same {s₀ s : State} {fp : List Part} (ups : Upsets) (level : Nat) (src : Nat) (a4 : Bar) (h : Same fp s₀ s) (m_flash : Part.flash ∈ fp) (m_regions : Part.regions ∈ fp) (m_mem : Part.mem ∈ fp) (m_err : Part.err ∈ fp) (m_trc : Part.trc ∈ fp) (m_counters : Part.counters ∈ fp) (m_fresh : Part.fresh ∈ fp) : Same fp s₀ (State.barFault s ups level src a4) := by
  simp only [State.barFault]
  (repeat' split) <;> simp +contextual (maxDischargeDepth := 40) [h, m_flash, m_regions, m_mem, m_err, m_trc, m_counters, m_fresh]

@[simp] theorem State.useMemory_same {s₀ s : State} {fp : List Part} (ups : Upsets) (reads : List Nat) (writes : List Nat) (adds : Bool) (h : Same fp s₀ s) (m_flash : Part.flash ∈ fp) (m_regions : Part.regions ∈ fp) (m_mem : Part.mem ∈ fp) (m_err : Part.err ∈ fp) (m_trc : Part.trc ∈ fp) (m_counters : Part.counters ∈ fp) (m_fresh : Part.fresh ∈ fp) : Same fp s₀ (State.useMemory s ups reads writes adds) := by unfold State.useMemory; simp +contextual (maxDischargeDepth := 40) [h, m_flash, m_regions, m_mem, m_err, m_trc, m_counters, m_fresh]

@[simp] theorem State.useUnit_same {s₀ s : State} {fp : List Part} (ups : Upsets) (u : XUnit) (h : Same fp s₀ s) (m_flash : Part.flash ∈ fp) (m_regions : Part.regions ∈ fp) (m_mem : Part.mem ∈ fp) (m_err : Part.err ∈ fp) (m_trc : Part.trc ∈ fp) (m_counters : Part.counters ∈ fp) (m_fresh : Part.fresh ∈ fp) : Same fp s₀ (State.useUnit s ups u) := by unfold State.useUnit; simp (maxDischargeDepth := 40) [h, m_flash, m_regions, m_mem, m_err, m_trc, m_counters, m_fresh]

@[simp] theorem State.settleNow_same {s₀ s : State} {fp : List Part} (ups : Upsets) (t : Nat) (n : Nat) (h : Same fp s₀ s) (m_flash : Part.flash ∈ fp) (m_blocks : Part.blocks ∈ fp) (m_regions : Part.regions ∈ fp) (m_tensors : Part.tensors ∈ fp) (m_mem : Part.mem ∈ fp) (m_err : Part.err ∈ fp) (m_trc : Part.trc ∈ fp) (m_counters : Part.counters ∈ fp) (m_fresh : Part.fresh ∈ fp) : Same fp s₀ (State.settleNow s ups t n) := by unfold State.settleNow; simp (maxDischargeDepth := 40) [h, m_flash, m_blocks, m_regions, m_tensors, m_mem, m_err, m_trc, m_counters, m_fresh]

/-! ## Records -/

@[simp] theorem State.admitRecs_same {s₀ s : State} {fp : List Part} (h : Same fp s₀ s) (m_eng : Part.eng ∈ fp) : Same fp s₀ (State.admitRecs s) := by unfold State.admitRecs; simp (maxDischargeDepth := 40) [h, m_eng]

@[simp] theorem writeRec_same {s₀ s : State} {fp : List Part} (r : ERec) (h : Same fp s₀ s) (m_eng : Part.eng ∈ fp) : Same fp s₀ (writeRec s r) := by unfold writeRec; simp (maxDischargeDepth := 40) [h, m_eng]

@[simp] theorem closeBaseAt_same {s₀ s : State} {fp : List Part} (flags : Nat) (steps : Nat) (time : Nat) (gaps : Nat) (acc : List Nat) (h : Same fp s₀ s) (m_eng : Part.eng ∈ fp) : Same fp s₀ (closeBaseAt s flags steps time gaps acc) := by unfold closeBaseAt; simp (maxDischargeDepth := 40) [h, m_eng]

@[simp] theorem closeBase_same {s₀ s : State} {fp : List Part} (h : Same fp s₀ s) (m_eng : Part.eng ∈ fp) : Same fp s₀ (closeBase s) := by unfold closeBase; simp (maxDischargeDepth := 40) [h, m_eng]

@[simp] theorem State.baseIs_same {s₀ s : State} {fp : List Part} (range : Bool) (first : Nat) (h : Same fp s₀ s) (m_eng : Part.eng ∈ fp) : Same fp s₀ (State.baseIs s range first) := by unfold State.baseIs; simp (maxDischargeDepth := 40) [h, m_eng]

@[simp] theorem handleRecord_same {s₀ s : State} {fp : List Part} (h0 : Hnd) (h : Same fp s₀ s) (m_eng : Part.eng ∈ fp) : Same fp s₀ (handleRecord s h0) := by unfold handleRecord; simp (maxDischargeDepth := 40) [h, m_eng]

/-! ## HostOps -/

@[simp] theorem State.notify_same {s₀ s : State} {fp : List Part} (code : Nat) (old : Nat) (new : Nat) (fault : Nat) (device : Nat) (step : Nat) (slot : Nat) (epoch : Nat) (h : Same fp s₀ s) (m_ports : Part.ports ∈ fp) (m_counters : Part.counters ∈ fp) (m_out : Part.out ∈ fp) : Same fp s₀ (State.notify s code old new fault device step slot epoch) := by unfold State.notify; simp (maxDischargeDepth := 40) [h, m_ports, m_counters, m_out]

@[simp] theorem State.ageBegins_same {s₀ s : State} {fp : List Part} (h : Same fp s₀ s) (m_age : Part.age ∈ fp) : Same fp s₀ (State.ageBegins s) := by unfold State.ageBegins; simp (maxDischargeDepth := 40) [h, m_age]

@[simp] theorem State.setMode_same {s₀ s : State} {fp : List Part} (m : ModState) (h : Same fp s₀ s) (m_glb : Part.glb ∈ fp) (m_regions : Part.regions ∈ fp) (m_ports : Part.ports ∈ fp) (m_eng : Part.eng ∈ fp) (m_age : Part.age ∈ fp) (m_counters : Part.counters ∈ fp) (m_out : Part.out ∈ fp) : Same fp s₀ (State.setMode s m) := by unfold State.setMode; simp (maxDischargeDepth := 40) [h, m_glb, m_regions, m_ports, m_eng, m_age, m_counters, m_out]

@[simp] theorem State.completeOne_same {s₀ s : State} {fp : List Part} (h0 : Hnd) (status : Nat) (result : List Byte) (refuser : Nat) (fault : Nat) (h : Same fp s₀ s) (m_ports : Part.ports ∈ fp) (m_hci : Part.hci ∈ fp) (m_eng : Part.eng ∈ fp) (m_counters : Part.counters ∈ fp) (m_out : Part.out ∈ fp) : Same fp s₀ (State.completeOne s h0 status result refuser fault) := by unfold State.completeOne; simp (maxDischargeDepth := 40) [h, m_ports, m_hci, m_eng, m_counters, m_out]

@[simp] theorem State.finishN_same {s₀ s : State} {fp : List Part} (n : Nat) (x : Hnd) (st : Nat) (r : List Byte) (a b : Nat) (h : Same fp s₀ s) (m_ports : Part.ports ∈ fp) (m_hci : Part.hci ∈ fp) (m_eng : Part.eng ∈ fp) (m_counters : Part.counters ∈ fp) (m_out : Part.out ∈ fp) :
    Same fp s₀ (State.finishN n s x st r a b) := by
  induction n generalizing s x st r a b with
  | zero => simp (maxDischargeDepth := 60) [State.finishN, h, m_ports, m_hci, m_eng, m_counters, m_out]
  | succ n ih =>
    simp only [State.finishN]
    apply same_foldl
    · intro s y hy
      apply ih
      simp (maxDischargeDepth := 60) [hy, m_ports, m_hci, m_eng, m_counters, m_out]
    · simp (maxDischargeDepth := 60) [h, m_ports, m_hci, m_eng, m_counters, m_out]

@[simp] theorem State.finish_same {s₀ s : State} {fp : List Part} (h0 : Hnd) (status : Nat) (result : List Byte) (refuser : Nat) (fault : Nat) (h : Same fp s₀ s) (m_ports : Part.ports ∈ fp) (m_hci : Part.hci ∈ fp) (m_eng : Part.eng ∈ fp) (m_counters : Part.counters ∈ fp) (m_out : Part.out ∈ fp) : Same fp s₀ (State.finish s h0 status result refuser fault) := by unfold State.finish; simp (maxDischargeDepth := 40) [h, m_ports, m_hci, m_eng, m_counters, m_out]

@[simp] theorem State.finishAll_same {s₀ s : State} {fp : List Part} (opcode : Nat) (status : Nat) (fault : Nat) (result : List Byte) (h : Same fp s₀ s) (m_ports : Part.ports ∈ fp) (m_hci : Part.hci ∈ fp) (m_eng : Part.eng ∈ fp) (m_counters : Part.counters ∈ fp) (m_out : Part.out ∈ fp) : Same fp s₀ (State.finishAll s opcode status fault result) := by unfold State.finishAll; simp +contextual (maxDischargeDepth := 40) [h, m_ports, m_hci, m_eng, m_counters, m_out]

@[simp] theorem State.countRefusal_same {s₀ s : State} {fp : List Part} (code : Nat) (h : Same fp s₀ s) (m_pwr : Part.pwr ∈ fp) : Same fp s₀ (State.countRefusal s code) := by unfold State.countRefusal; simp (maxDischargeDepth := 40) [h, m_pwr]

@[simp] theorem State.entryUndone_same {s₀ s : State} {fp : List Part} (h : Same fp s₀ s) (m_ports : Part.ports ∈ fp) (m_pwr : Part.pwr ∈ fp) (m_age : Part.age ∈ fp) (m_counters : Part.counters ∈ fp) (m_out : Part.out ∈ fp) : Same fp s₀ (State.entryUndone s) := by unfold State.entryUndone; simp (maxDischargeDepth := 40) [h, m_ports, m_pwr, m_age, m_counters, m_out]

@[simp] theorem State.sendOwned_same {s₀ s : State} {fp : List Part} (handle : Nat) (p : Nat) (k : Nat) (l : List Out) (h : Same fp s₀ s) (m_ports : Part.ports ∈ fp) (m_counters : Part.counters ∈ fp) (m_out : Part.out ∈ fp) : Same fp s₀ (State.sendOwned s handle p k l) := by unfold State.sendOwned; simp +contextual (maxDischargeDepth := 40) [h, m_ports, m_counters, m_out]

@[simp] theorem State.settleSends_same {s₀ s : State} {fp : List Part} (h : Same fp s₀ s) (m_ports : Part.ports ∈ fp) (m_hci : Part.hci ∈ fp) (m_eng : Part.eng ∈ fp) (m_counters : Part.counters ∈ fp) (m_out : Part.out ∈ fp) : Same fp s₀ s.settleSends := by
  unfold State.settleSends
  apply same_foldl _ _ _ _ h
  intro s y hy
  (repeat' split) <;> simp (maxDischargeDepth := 60) [hy, m_ports, m_hci, m_eng, m_counters, m_out]

@[simp] theorem State.accept_same {s₀ s : State} {fp : List Part} (c : Cmd) (opcode : Nat) (h : Same fp s₀ s) (m_ports : Part.ports ∈ fp) (m_hci : Part.hci ∈ fp) (m_counters : Part.counters ∈ fp) (m_out : Part.out ∈ fp) : Same fp s₀ ((State.accept s c opcode).1) := by
  simp only [State.accept]
  (repeat' split) <;> simp +contextual (maxDischargeDepth := 40) [h, m_ports, m_hci, m_counters, m_out]

@[simp] theorem State.command_same {s₀ s : State} {fp : List Part} (c : Cmd) (op : Nat) (run : State → Hnd → State) (i : Instr) (h : Same fp s₀ s) (m_ports : Part.ports ∈ fp) (m_hci : Part.hci ∈ fp) (m_eng : Part.eng ∈ fp) (m_counters : Part.counters ∈ fp) (m_out : Part.out ∈ fp)
    (hr : ∀ t x, Same fp s₀ t → Same fp s₀ (run t x)) : Same fp s₀ (s.command c op run i) := by
  unfold State.command
  split
  · simp (maxDischargeDepth := 60) [h, m_ports, m_hci, m_eng, m_counters, m_out]
  have k := State.accept_same (s₀ := s₀) c op (s := if s.hostUp then s.taken 32 (cmdBytes op c) else s) (fp := fp) (by split <;> simp (maxDischargeDepth := 60) [h, m_ports, m_hci, m_eng, m_counters, m_out]) (by simp [m_ports, m_hci, m_eng, m_counters, m_out]) (by simp [m_ports, m_hci, m_eng, m_counters, m_out]) (by simp [m_ports, m_hci, m_eng, m_counters, m_out]) (by simp [m_ports, m_hci, m_eng, m_counters, m_out])
  split
  · rename_i e
    rwa [e] at k
  · rename_i e
    rw [e] at k
    (repeat' split) <;> simp (maxDischargeDepth := 60) [k, hr, m_ports, m_hci, m_eng, m_counters, m_out]

@[simp] theorem State.setHnd_same {s₀ s : State} {fp : List Part} (h0 : Hnd) (h : Same fp s₀ s) (m_hci : Part.hci ∈ fp) : Same fp s₀ (State.setHnd s h0) := by unfold State.setHnd; simp (maxDischargeDepth := 40) [h, m_hci]

/-! ## Issue -/

@[simp] theorem State.eccUpsets_same {s₀ s : State} {fp : List Part} (b : Nat) (ups : Upsets) (h : Same fp s₀ s) (m_flash : Part.flash ∈ fp) (m_blocks : Part.blocks ∈ fp) (m_regions : Part.regions ∈ fp) (m_err : Part.err ∈ fp) (m_trc : Part.trc ∈ fp) (m_counters : Part.counters ∈ fp) (m_fresh : Part.fresh ∈ fp) : Same fp s₀ (State.eccUpsets s b ups) := by unfold State.eccUpsets; simp +contextual (maxDischargeDepth := 40) [h, m_flash, m_blocks, m_regions, m_err, m_trc, m_counters, m_fresh]

@[simp] theorem State.armTrace_same {s₀ s : State} {fp : List Part} (b : TraceBody) (h : Same fp s₀ s) (m_regions : Part.regions ∈ fp) (m_trc : Part.trc ∈ fp) : Same fp s₀ (State.armTrace s b) := by unfold State.armTrace; simp (maxDischargeDepth := 40) [h, m_regions, m_trc]

@[simp] theorem State.jobRuns_same {s₀ s : State} {fp : List Part} (h : Same fp s₀ s) (m_glb : Part.glb ∈ fp) (m_regions : Part.regions ∈ fp) (m_ports : Part.ports ∈ fp) (m_hci : Part.hci ∈ fp) (m_eng : Part.eng ∈ fp) (m_age : Part.age ∈ fp) (m_trc : Part.trc ∈ fp) (m_counters : Part.counters ∈ fp) (m_out : Part.out ∈ fp) : Same fp s₀ (State.jobRuns s) := by
  simp only [State.jobRuns]
  (repeat' split) <;> simp +contextual (maxDischargeDepth := 40) [h, m_glb, m_regions, m_ports, m_hci, m_eng, m_age, m_trc, m_counters, m_out]

@[simp] theorem State.startFire_same {s₀ s : State} {fp : List Part} (c : Ctx) (h : Same fp s₀ s) (m_glb : Part.glb ∈ fp) (m_blocks : Part.blocks ∈ fp) (m_regions : Part.regions ∈ fp) (m_ports : Part.ports ∈ fp) (m_hci : Part.hci ∈ fp) (m_eng : Part.eng ∈ fp) (m_age : Part.age ∈ fp) (m_trc : Part.trc ∈ fp) (m_counters : Part.counters ∈ fp) (m_out : Part.out ∈ fp) : Same fp s₀ (State.startFire s c) := by unfold State.startFire; simp (maxDischargeDepth := 40) [h, m_glb, m_blocks, m_regions, m_ports, m_hci, m_eng, m_age, m_trc, m_counters, m_out]

@[simp] theorem State.watchPair_same {s₀ s : State} {fp : List Part} (c : Ctx) (stat : TallyRec) (h : Same fp s₀ s) (m_regions : Part.regions ∈ fp) (m_trc : Part.trc ∈ fp) (m_counters : Part.counters ∈ fp) : Same fp s₀ (State.watchPair s c stat) := by unfold State.watchPair; simp (maxDischargeDepth := 40) [h, m_regions, m_trc, m_counters]

@[simp] theorem State.stageStops_same {s₀ s : State} {fp : List Part} (g : Stage) (h : Same fp s₀ s) (m_regions : Part.regions ∈ fp) (m_queues : Part.queues ∈ fp) (m_counters : Part.counters ∈ fp) : Same fp s₀ (State.stageStops s g) := by unfold State.stageStops; simp +contextual (maxDischargeDepth := 40) [h, m_regions, m_queues, m_counters]

@[simp] theorem State.noteDest_same {s₀ s : State} {fp : List Part} (c : Ctx) (h : Same fp s₀ s) (m_blocks : Part.blocks ∈ fp) (m_tensors : Part.tensors ∈ fp) : Same fp s₀ (State.noteDest s c) := by unfold State.noteDest; simp (maxDischargeDepth := 40) [h, m_blocks, m_tensors]

@[simp] theorem State.layerDrains_same {s₀ s : State} {fp : List Part} (b : Nat) (layer : Nat) (h : Same fp s₀ s) (m_regions : Part.regions ∈ fp) (m_queues : Part.queues ∈ fp) (m_counters : Part.counters ∈ fp) : Same fp s₀ (State.layerDrains s b layer) := by unfold State.layerDrains; simp +contextual (maxDischargeDepth := 40) [h, m_regions, m_queues, m_counters]

@[simp] theorem State.restStops_same {s₀ s : State} {fp : List Part} (b : Nat) (g : Stage) (h : Same fp s₀ s) (m_regions : Part.regions ∈ fp) (m_queues : Part.queues ∈ fp) (m_counters : Part.counters ∈ fp) : Same fp s₀ (State.restStops s b g) := by unfold State.restStops; simp (maxDischargeDepth := 40) [h, m_regions, m_queues, m_counters]

@[simp] theorem State.completeFire_same {s₀ s : State} {fp : List Part} (c : Ctx) (stat : TallyRec) (h : Same fp s₀ s) (m_blocks : Part.blocks ∈ fp) (m_regions : Part.regions ∈ fp) (m_queues : Part.queues ∈ fp) (m_tensors : Part.tensors ∈ fp) (m_trc : Part.trc ∈ fp) (m_counters : Part.counters ∈ fp) : Same fp s₀ (State.completeFire s c stat) := by unfold State.completeFire; simp (maxDischargeDepth := 40) [h, m_blocks, m_regions, m_queues, m_tensors, m_trc, m_counters]

@[simp] theorem State.fire_same {s₀ s : State} {fp : List Part} (f : Fire) (isOp : IWord → Bool) (run : Ctx → State → Effect) (h : Same fp s₀ s) (m_glb : Part.glb ∈ fp) (m_flash : Part.flash ∈ fp) (m_blocks : Part.blocks ∈ fp) (m_regions : Part.regions ∈ fp) (m_queues : Part.queues ∈ fp) (m_tensors : Part.tensors ∈ fp) (m_mem : Part.mem ∈ fp) (m_ports : Part.ports ∈ fp) (m_hci : Part.hci ∈ fp) (m_eng : Part.eng ∈ fp) (m_err : Part.err ∈ fp) (m_age : Part.age ∈ fp) (m_trc : Part.trc ∈ fp) (m_counters : Part.counters ∈ fp) (m_out : Part.out ∈ fp) (m_fresh : Part.fresh ∈ fp)
    (hr : ∀ c t, Same fp s₀ t → Same fp s₀ (run c t).s) : Same fp s₀ (s.fire f isOp run) := by
  simp only [State.fire]
  (repeat' split) <;> simp (maxDischargeDepth := 60) [h, m_glb, m_flash, m_blocks, m_regions, m_queues, m_tensors, m_mem, m_ports, m_hci, m_eng, m_err, m_age, m_trc, m_counters, m_out, m_fresh, hr]

@[simp] theorem State.countDraws_same {s₀ s : State} {fp : List Part} (b : Nat) (draws : List Nat) (h : Same fp s₀ s) (m_counters : Part.counters ∈ fp) : Same fp s₀ (State.countDraws s b draws) := by unfold State.countDraws; simp (maxDischargeDepth := 40) [h, m_counters]

@[simp] theorem State.fileTally_same {s₀ s : State} {fp : List Part} (c : Ctx) (d : Desc) (r : TallyRec) (h : Same fp s₀ s) (m_blocks : Part.blocks ∈ fp) : Same fp s₀ (State.fileTally s c d r) := by unfold State.fileTally; simp (maxDischargeDepth := 40) [h, m_blocks]

@[simp] theorem State.writeDst_same {s₀ s : State} {fp : List Part} (c : Ctx) (vals : List Val) (big : List Bool) (h : Same fp s₀ s) (m_blocks : Part.blocks ∈ fp) (m_tensors : Part.tensors ∈ fp) (m_mem : Part.mem ∈ fp) (m_counters : Part.counters ∈ fp) : Same fp s₀ ((State.writeDst s c vals big).s) := by unfold State.writeDst; simp (maxDischargeDepth := 40) [h, m_blocks, m_tensors, m_mem, m_counters]

@[simp] theorem State.accBase_same {s₀ s : State} {fp : List Part} (c : Ctx) (h : Same fp s₀ s) (m_blocks : Part.blocks ∈ fp) (m_tensors : Part.tensors ∈ fp) (m_mem : Part.mem ∈ fp) (m_counters : Part.counters ∈ fp) : Same fp s₀ (State.accBase s c) := by unfold State.accBase; simp (maxDischargeDepth := 40) [h, m_blocks, m_tensors, m_mem, m_counters]

@[simp] theorem State.countAdds_same {s₀ s : State} {fp : List Part} (c : Ctx) (k : Nat) (per : Nat) (n : Nat) (h : Same fp s₀ s) (m_counters : Part.counters ∈ fp) : Same fp s₀ (State.countAdds s c k per n) := by unfold State.countAdds; simp (maxDischargeDepth := 40) [h, m_counters]

@[simp] theorem State.setSlot_same {s₀ s : State} {fp : List Part} (c : Ctx) (n : Nat) (v : Val) (h : Same fp s₀ s) (m_blocks : Part.blocks ∈ fp) : Same fp s₀ (State.setSlot s c n v) := by unfold State.setSlot; simp (maxDischargeDepth := 40) [h, m_blocks]

@[simp] theorem State.restorePlan_same {s₀ s : State} {fp : List Part} (p : PlanSave) (h : Same fp s₀ s) (m_blocks : Part.blocks ∈ fp) (m_tensors : Part.tensors ∈ fp) (m_mem : Part.mem ∈ fp) (m_counters : Part.counters ∈ fp) : Same fp s₀ (State.restorePlan s p) := by unfold State.restorePlan; simp (maxDischargeDepth := 40) [h, m_blocks, m_tensors, m_mem, m_counters]

@[simp] theorem State.beginStep_same {s₀ s : State} {fp : List Part} (b : Nat) (n : Nat) (h : Same fp s₀ s) (m_blocks : Part.blocks ∈ fp) (m_queues : Part.queues ∈ fp) (m_tensors : Part.tensors ∈ fp) : Same fp s₀ (State.beginStep s b n) := by unfold State.beginStep; simp +contextual (maxDischargeDepth := 40) [h, m_blocks, m_queues, m_tensors]

/-! ## DroverOps -/

@[simp] theorem State.post_same {s₀ s : State} {fp : List Part} (m : DMsg) (h : Same fp s₀ s) (m_ports : Part.ports ∈ fp) (m_counters : Part.counters ∈ fp) (m_out : Part.out ∈ fp) : Same fp s₀ (State.post s m) := by unfold State.post; simp (maxDischargeDepth := 40) [h, m_ports, m_counters, m_out]

@[simp] theorem State.flood_same {s₀ s : State} {fp : List Part} (ports : List Nat) (from' : Option Nat) (m : DMsg) (h : Same fp s₀ s) (m_ports : Part.ports ∈ fp) (m_counters : Part.counters ∈ fp) (m_out : Part.out ∈ fp) : Same fp s₀ (State.flood s ports from' m) := by unfold State.flood; simp (maxDischargeDepth := 40) [h, m_ports, m_counters, m_out]

@[simp] theorem State.dropBad_same {s₀ s : State} {fp : List Part} (port : Nat) (m : DMsg) (h : Same fp s₀ s) (m_flash : Part.flash ∈ fp) (m_regions : Part.regions ∈ fp) (m_drv : Part.drv ∈ fp) (m_err : Part.err ∈ fp) (m_trc : Part.trc ∈ fp) (m_counters : Part.counters ∈ fp) (m_fresh : Part.fresh ∈ fp) : Same fp s₀ (State.dropBad s port m) := by unfold State.dropBad; simp (maxDischargeDepth := 40) [h, m_flash, m_regions, m_drv, m_err, m_trc, m_counters, m_fresh]

@[simp] theorem State.passOn_same {s₀ s : State} {fp : List Part} (from' : Option Nat) (m : DMsg) (h : Same fp s₀ s) (m_ports : Part.ports ∈ fp) (m_counters : Part.counters ∈ fp) (m_out : Part.out ∈ fp) : Same fp s₀ (State.passOn s from' m) := by unfold State.passOn; simp (maxDischargeDepth := 40) [h, m_ports, m_counters, m_out]

@[simp] theorem State.floodOn_same {s₀ s : State} {fp : List Part} (port : Nat) (m : DMsg) (h : Same fp s₀ s) (m_ports : Part.ports ∈ fp) (m_counters : Part.counters ∈ fp) (m_out : Part.out ∈ fp) : Same fp s₀ (State.floodOn s port m) := by unfold State.floodOn; simp (maxDischargeDepth := 40) [h, m_ports, m_counters, m_out]

@[simp] theorem State.sendDown_same {s₀ s : State} {fp : List Part} (port : Nat) (m : DMsg) (gone : Bool) (h : Same fp s₀ s) (m_ports : Part.ports ∈ fp) (m_counters : Part.counters ∈ fp) (m_out : Part.out ∈ fp) : Same fp s₀ (State.sendDown s port m gone) := by unfold State.sendDown; simp (maxDischargeDepth := 40) [h, m_ports, m_counters, m_out]

@[simp] theorem State.droverIn_same {s₀ s : State} {fp : List Part} (port : Nat) (m : DMsg) (type : Nat) (run : State → State) (i : Instr) (h : Same fp s₀ s) (m_flash : Part.flash ∈ fp) (m_regions : Part.regions ∈ fp) (m_drv : Part.drv ∈ fp) (m_ports : Part.ports ∈ fp) (m_hci : Part.hci ∈ fp) (m_err : Part.err ∈ fp) (m_trc : Part.trc ∈ fp) (m_counters : Part.counters ∈ fp) (m_out : Part.out ∈ fp) (m_fresh : Part.fresh ∈ fp)
    (hr : ∀ t, Same fp s₀ t → Same fp s₀ (run t)) : Same fp s₀ (s.droverIn port m type run i) := by
  simp only [State.droverIn]
  (repeat' split) <;> simp (maxDischargeDepth := 60) [h, m_flash, m_regions, m_drv, m_ports, m_hci, m_err, m_trc, m_counters, m_out, m_fresh, hr]

@[simp] theorem State.waitRec_same {s₀ s : State} {fp : List Part} (region : Nat) (r : TRec) (h : Same fp s₀ s) (m_regions : Part.regions ∈ fp) (m_trc : Part.trc ∈ fp) (m_counters : Part.counters ∈ fp) : Same fp s₀ (State.waitRec s region r) := by unfold State.waitRec; simp (maxDischargeDepth := 40) [h, m_regions, m_trc, m_counters]

@[simp] theorem State.endWaits_same {s₀ s : State} {fp : List Part} (ended : List (Nat × Nat × Nat × Nat)) (rec : Nat × Nat × Nat × Nat → TRec)
    (h : Same fp s₀ s) (m_regions : Part.regions ∈ fp) (m_trc : Part.trc ∈ fp) (m_counters : Part.counters ∈ fp) : Same fp s₀ (State.endWaits s ended rec) := by
  unfold State.endWaits
  apply same_foldl _ _ _ _ h
  intro s y hy
  split <;> simp (maxDischargeDepth := 60) [hy, m_regions, m_trc, m_counters]

@[simp] theorem State.countCopyWaits_same {s₀ s : State} {fp : List Part} (l : List (Nat × Nat × Nat × Nat)) (h : Same fp s₀ s) (m_counters : Part.counters ∈ fp) : Same fp s₀ (s.countCopyWaits l) := by
  unfold State.countCopyWaits
  apply same_foldl _ _ _ _ h
  intro t a ht
  split <;> simp (maxDischargeDepth := 60) +contextual [ht, m_counters]

@[simp] theorem State.stopWaits_same {s₀ s : State} {fp : List Part} (h : Same fp s₀ s) (m_regions : Part.regions ∈ fp) (m_trc : Part.trc ∈ fp) (m_counters : Part.counters ∈ fp) : Same fp s₀ (State.stopWaits s) := by unfold State.stopWaits; simp +contextual (maxDischargeDepth := 40) [h, m_regions, m_trc, m_counters]

@[simp] theorem State.endCopyWaits_same {s₀ s : State} {fp : List Part} (old : State) (from' : Option (Nat × Nat)) (h : Same fp s₀ s) (m_regions : Part.regions ∈ fp) (m_trc : Part.trc ∈ fp) (m_counters : Part.counters ∈ fp) : Same fp s₀ (State.endCopyWaits s old from') := by unfold State.endCopyWaits; simp (maxDischargeDepth := 40) [h, m_regions, m_trc, m_counters]

@[simp] theorem State.endPrefetchWaits_same {s₀ s : State} {fp : List Part} (old : State) (h : Same fp s₀ s) (m_regions : Part.regions ∈ fp) (m_trc : Part.trc ∈ fp) (m_counters : Part.counters ∈ fp) : Same fp s₀ (State.endPrefetchWaits s old) := by unfold State.endPrefetchWaits; simp (maxDischargeDepth := 40) [h, m_regions, m_trc, m_counters]

/-! ## Seals -/

@[simp] theorem sealLayerFire_same {s₀ s : State} {fp : List Part} (c : Ctx) (h : Same fp s₀ s) (m_glb : Part.glb ∈ fp) (m_blocks : Part.blocks ∈ fp) (m_regions : Part.regions ∈ fp) (m_ports : Part.ports ∈ fp) (m_hci : Part.hci ∈ fp) (m_eng : Part.eng ∈ fp) (m_age : Part.age ∈ fp) (m_trc : Part.trc ∈ fp) (m_counters : Part.counters ∈ fp) (m_out : Part.out ∈ fp) : Same fp s₀ (sealLayerFire c s) := by unfold sealLayerFire; simp (maxDischargeDepth := 40) [h, m_glb, m_blocks, m_regions, m_ports, m_hci, m_eng, m_age, m_trc, m_counters, m_out]

@[simp] theorem State.commitTensor_same {s₀ s : State} {fp : List Part} (t : Nat) (staged : Bool) (h : Same fp s₀ s) (m_blocks : Part.blocks ∈ fp) (m_tensors : Part.tensors ∈ fp) (m_mem : Part.mem ∈ fp) (m_counters : Part.counters ∈ fp) : Same fp s₀ (State.commitTensor s t staged) := by unfold State.commitTensor; simp +contextual (maxDischargeDepth := 40) [h, m_blocks, m_tensors, m_mem, m_counters]

@[simp] theorem State.replayTensor_same {s₀ s : State} {fp : List Part} (t : Nat) (staged : Bool) (h : Same fp s₀ s) (m_tensors : Part.tensors ∈ fp) : Same fp s₀ (State.replayTensor s t staged) := by unfold State.replayTensor; simp (maxDischargeDepth := 40) [h, m_tensors]

@[simp] theorem State.replayStage_same {s₀ s : State} {fp : List Part} (b : Nat) (g : Stage) (h : Same fp s₀ s) (m_blocks : Part.blocks ∈ fp) (m_tensors : Part.tensors ∈ fp) (m_counters : Part.counters ∈ fp) : Same fp s₀ (State.replayStage s b g) := by unfold State.replayStage; simp +contextual (maxDischargeDepth := 40) [h, m_blocks, m_tensors, m_counters]

@[simp] theorem State.commitStage_same {s₀ s : State} {fp : List Part} (b : Nat) (g : Stage) (h : Same fp s₀ s) (m_blocks : Part.blocks ∈ fp) (m_regions : Part.regions ∈ fp) (m_queues : Part.queues ∈ fp) (m_tensors : Part.tensors ∈ fp) (m_mem : Part.mem ∈ fp) (m_counters : Part.counters ∈ fp) : Same fp s₀ (State.commitStage s b g) := by unfold State.commitStage; simp +contextual (maxDischargeDepth := 40) [h, m_blocks, m_regions, m_queues, m_tensors, m_mem, m_counters]

@[simp] theorem State.sealWaited_same {s₀ s : State} {fp : List Part} (b : Nat) (g : Stage) (n : Nat) (detail : Nat) (last : Nat) (h : Same fp s₀ s) (m_regions : Part.regions ∈ fp) (m_trc : Part.trc ∈ fp) (m_counters : Part.counters ∈ fp) : Same fp s₀ (State.sealWaited s b g n detail last) := by unfold State.sealWaited; simp (maxDischargeDepth := 40) [h, m_regions, m_trc, m_counters]

@[simp] theorem State.layerVerdictFor_same {s₀ s : State} {fp : List Part} (layer : Nat) (back : Bool) (h : Same fp s₀ s) (m_blocks : Part.blocks ∈ fp) (m_regions : Part.regions ∈ fp) (m_queues : Part.queues ∈ fp) (m_tensors : Part.tensors ∈ fp) (m_mem : Part.mem ∈ fp) (m_gov : Part.gov ∈ fp) (m_trc : Part.trc ∈ fp) (m_counters : Part.counters ∈ fp) (m_fresh : Part.fresh ∈ fp) : Same fp s₀ (State.layerVerdictFor s layer back) := by unfold State.layerVerdictFor; simp +contextual (maxDischargeDepth := 40) [h, m_blocks, m_regions, m_queues, m_tensors, m_mem, m_gov, m_trc, m_counters, m_fresh]

@[simp] theorem State.sealStepDone_same {s₀ s : State} {fp : List Part} (b : Nat) (h : Same fp s₀ s) (m_blocks : Part.blocks ∈ fp) (m_regions : Part.regions ∈ fp) (m_queues : Part.queues ∈ fp) (m_tensors : Part.tensors ∈ fp) (m_counters : Part.counters ∈ fp) : Same fp s₀ (State.sealStepDone s b) := by
  simp only [State.sealStepDone]
  (repeat' split) <;> simp +contextual (maxDischargeDepth := 40) [h, m_blocks, m_regions, m_queues, m_tensors, m_counters]

@[simp] theorem State.storeBytes_same {s₀ s : State} {fp : List Part} (d : Desc) (a : Nat) (l : List Byte) (h : Same fp s₀ s) (m_blocks : Part.blocks ∈ fp) (m_mem : Part.mem ∈ fp) (m_counters : Part.counters ∈ fp) : Same fp s₀ (State.storeBytes s d a l) := by unfold State.storeBytes; simp (maxDischargeDepth := 40) [h, m_blocks, m_mem, m_counters]

@[simp] theorem State.writeImage_same {s₀ s : State} {fp : List Part} (t : Nat) (bytes : List Byte) (h : Same fp s₀ s) (m_blocks : Part.blocks ∈ fp) (m_mem : Part.mem ∈ fp) (m_counters : Part.counters ∈ fp) : Same fp s₀ (State.writeImage s t bytes) := by unfold State.writeImage; simp (maxDischargeDepth := 40) [h, m_blocks, m_mem, m_counters]

@[simp] theorem State.noteLate_same {s₀ s : State} {fp : List Part} (old : State) (b : Nat) (h : Same fp s₀ s) (m_blocks : Part.blocks ∈ fp) : Same fp s₀ (State.noteLate s old b) := by unfold State.noteLate; simp (maxDischargeDepth := 40) [h, m_blocks]

@[simp] theorem State.prefetch_same {s₀ s : State} {fp : List Part} (ups : Upsets) (blk : Nat) (tensor : Nat) (u : XUnit) (h : Same fp s₀ s) (m_flash : Part.flash ∈ fp) (m_blocks : Part.blocks ∈ fp) (m_regions : Part.regions ∈ fp) (m_tensors : Part.tensors ∈ fp) (m_mem : Part.mem ∈ fp) (m_err : Part.err ∈ fp) (m_trc : Part.trc ∈ fp) (m_counters : Part.counters ∈ fp) (m_fresh : Part.fresh ∈ fp) : Same fp s₀ (State.prefetch s ups blk tensor u) := by
  simp only [State.prefetch]
  (repeat' split) <;> simp +contextual (maxDischargeDepth := 40) [h, m_flash, m_blocks, m_regions, m_tensors, m_mem, m_err, m_trc, m_counters, m_fresh]

end Sys2Proof.Machine
end

