-- ==== Sys2Proof/Laws/FrameEngines.lean ====
section
/-! SUPPORT. Frames of the governor, operands, transfers, queue commands, parameters, update engines, snapshots and Drover. -/

namespace Sys2Proof.Machine

set_option linter.unusedSimpArgs false
set_option linter.unusedVariables false

/-! ## Governor -/

@[simp] theorem State.decide_same {s₀ s : State} {fp : List Part} (e : PrecEntry) (h : Same fp s₀ s) (m_regions : Part.regions ∈ fp) (m_gov : Part.gov ∈ fp) : Same fp s₀ (State.decide s e) := by
  simp only [State.decide]
  (repeat' split) <;> simp +contextual (maxDischargeDepth := 40) [h, m_regions, m_gov]

@[simp] theorem State.relayTensor_same {s₀ s : State} {fp : List Part} (step : Nat) (fw : Nat) (initSc : Nat) (t : Nat) (h : Same fp s₀ s) (m_tensors : Part.tensors ∈ fp) : Same fp s₀ (State.relayTensor s step fw initSc t) := by unfold State.relayTensor; simp (maxDischargeDepth := 40) [h, m_tensors]

@[simp] theorem State.takeFormat_same {s₀ s : State} {fp : List Part} (step : Nat) (e : PrecEntry) (cls : Nat) (size : Nat) (h : Same fp s₀ s) (m_tensors : Part.tensors ∈ fp) (m_gov : Part.gov ∈ fp) : Same fp s₀ (State.takeFormat s step e cls size) := by
  simp only [State.takeFormat]
  (repeat' split) <;> simp +contextual (maxDischargeDepth := 40) [h, m_tensors, m_gov]

@[simp] theorem State.takeLambda_same {s₀ s : State} {fp : List Part} (step : Nat) (e : PrecEntry) (v : Nat) (h : Same fp s₀ s) (m_flash : Part.flash ∈ fp) (m_gov : Part.gov ∈ fp) : Same fp s₀ (State.takeLambda s step e v) := by
  simp only [State.takeLambda]
  (repeat' split) <;> simp +contextual (maxDischargeDepth := 40) [h, m_flash, m_gov]

@[simp] theorem State.takeChange_same {s₀ s : State} {fp : List Part} (c : Change) (h : Same fp s₀ s) (m_flash : Part.flash ∈ fp) (m_regions : Part.regions ∈ fp) (m_tensors : Part.tensors ∈ fp) (m_gov : Part.gov ∈ fp) : Same fp s₀ (State.takeChange s c) := by
  simp only [State.takeChange]
  (repeat' split) <;> simp +contextual (maxDischargeDepth := 40) [h, m_flash, m_regions, m_tensors, m_gov]

@[simp] theorem State.restartBlock_same {s₀ s : State} {fp : List Part} (n : Nat) (b : Nat) (h : Same fp s₀ s) (m_blocks : Part.blocks ∈ fp) (m_queues : Part.queues ∈ fp) (m_tensors : Part.tensors ∈ fp) (m_mem : Part.mem ∈ fp) (m_counters : Part.counters ∈ fp) : Same fp s₀ (State.restartBlock s n b) := by
  simp only [State.restartBlock]
  (repeat' split) <;> simp +contextual (maxDischargeDepth := 40) [h, m_blocks, m_queues, m_tensors, m_mem, m_counters]

/-! ## Operands -/

@[simp] theorem State.indexFault_same {s₀ s : State} {fp : List Part} (c : Ctx) (pos : Nat) (detail : Nat) (h : Same fp s₀ s) (m_flash : Part.flash ∈ fp) (m_blocks : Part.blocks ∈ fp) (m_regions : Part.regions ∈ fp) (m_err : Part.err ∈ fp) (m_trc : Part.trc ∈ fp) (m_counters : Part.counters ∈ fp) (m_fresh : Part.fresh ∈ fp) : Same fp s₀ (State.indexFault s c pos detail) := by unfold State.indexFault; simp (maxDischargeDepth := 40) [h, m_flash, m_blocks, m_regions, m_err, m_trc, m_counters, m_fresh]

@[simp] theorem State.seeds_same {s₀ s : State} {fp : List Part} (n : Nat) (h : Same fp s₀ s) (m_fresh : Part.fresh ∈ fp) : Same fp s₀ (State.seeds s n) := by unfold State.seeds; simp (maxDischargeDepth := 40) [h, m_fresh]

/-! ## Transfer -/

@[simp] theorem State.payUnits_same {s₀ s : State} {fp : List Part} (c : Ctx) (ups : Upsets) (l : List XUnit) (h : Same fp s₀ s) (m_flash : Part.flash ∈ fp) (m_regions : Part.regions ∈ fp) (m_mem : Part.mem ∈ fp) (m_err : Part.err ∈ fp) (m_trc : Part.trc ∈ fp) (m_counters : Part.counters ∈ fp) (m_fresh : Part.fresh ∈ fp) : Same fp s₀ (State.payUnits s c ups l) := by unfold State.payUnits; simp (maxDischargeDepth := 40) [h, m_flash, m_regions, m_mem, m_err, m_trc, m_counters, m_fresh]

@[simp] theorem State.meetBar_same {s₀ s : State} {fp : List Part} (c : Ctx) (ups : Upsets) (k : Nat) (stat : TallyRec) (src : List (Nat × Val)) (big : List Nat) (b : Bar) (h : Same fp s₀ s) (m_flash : Part.flash ∈ fp) (m_blocks : Part.blocks ∈ fp) (m_regions : Part.regions ∈ fp) (m_mem : Part.mem ∈ fp) (m_err : Part.err ∈ fp) (m_trc : Part.trc ∈ fp) (m_counters : Part.counters ∈ fp) (m_fresh : Part.fresh ∈ fp) : Same fp s₀ (State.meetBar s c ups k stat src big b) := by
  simp only [State.meetBar]
  (repeat' split) <;> simp +contextual (maxDischargeDepth := 40) [h, m_flash, m_blocks, m_regions, m_mem, m_err, m_trc, m_counters, m_fresh]

@[simp] theorem State.takeUp_same {s₀ s : State} {fp : List Part} (c : Ctx) (h : Same fp s₀ s) (m_blocks : Part.blocks ∈ fp) (m_counters : Part.counters ∈ fp) : Same fp s₀ (State.takeUp s c) := by
  simp only [State.takeUp]
  (repeat' split) <;> simp +contextual (maxDischargeDepth := 40) [h, m_blocks, m_counters]

@[simp] theorem State.transfer_same {s₀ s : State} {fp : List Part} (c : Ctx) (ups : Upsets) (units : List XUnit)
    (deliver : Nat → Nat → State → Stretch) (h : Same fp s₀ s) (m_flash : Part.flash ∈ fp) (m_blocks : Part.blocks ∈ fp) (m_regions : Part.regions ∈ fp) (m_mem : Part.mem ∈ fp) (m_err : Part.err ∈ fp) (m_trc : Part.trc ∈ fp) (m_counters : Part.counters ∈ fp) (m_fresh : Part.fresh ∈ fp) (hd : ∀ a b t, Same fp s₀ t → Same fp s₀ (deliver a b t).s) :
    Same fp s₀ (s.transfer c ups units deliver).s := by
  have h1 : Same fp s₀ (s.takeUp c) := by simp (maxDischargeDepth := 60) [h, m_flash, m_blocks, m_regions, m_mem, m_err, m_trc, m_counters, m_fresh]
  simp only [State.transfer]
  (repeat' split) <;> simp (maxDischargeDepth := 60) [h1, hd, m_flash, m_blocks, m_regions, m_mem, m_err, m_trc, m_counters, m_fresh]

@[simp] theorem State.settled_same {s₀ s : State} {fp : List Part} (c : Ctx) (ups : Upsets) (run : State → Effect) (h : Same fp s₀ s) (m_flash : Part.flash ∈ fp) (m_blocks : Part.blocks ∈ fp) (m_regions : Part.regions ∈ fp) (m_tensors : Part.tensors ∈ fp) (m_mem : Part.mem ∈ fp) (m_err : Part.err ∈ fp) (m_trc : Part.trc ∈ fp) (m_counters : Part.counters ∈ fp) (m_fresh : Part.fresh ∈ fp)
    (hr : ∀ t, Same fp s₀ t → Same fp s₀ (run t).s) : Same fp s₀ (s.settled c ups run).s := by
  simp only [State.settled]
  split
  · simp (maxDischargeDepth := 60) +contextual [h, m_flash, m_blocks, m_regions, m_tensors, m_mem, m_err, m_trc, m_counters, m_fresh]
  · exact hr _ (by simp (maxDischargeDepth := 60) +contextual [h, m_flash, m_blocks, m_regions, m_tensors, m_mem, m_err, m_trc, m_counters, m_fresh])

@[simp] theorem State.deliverVals_same {s₀ s : State} {fp : List Part} (c : Ctx) (v : View) (imp : Impose) (off : Nat) (vals : List Val) (h : Same fp s₀ s) (m_blocks : Part.blocks ∈ fp) (m_tensors : Part.tensors ∈ fp) (m_mem : Part.mem ∈ fp) (m_counters : Part.counters ∈ fp) : Same fp s₀ ((State.deliverVals s c v imp off vals).s) := by
  simp only [State.deliverVals]
  (repeat' split) <;> simp +contextual (maxDischargeDepth := 40) [h, m_blocks, m_tensors, m_mem, m_counters]

@[simp] theorem copyInto_same {s₀ s : State} {fp : List Part} (ups : Upsets) (c : Ctx) (h : Same fp s₀ s) (m_flash : Part.flash ∈ fp) (m_blocks : Part.blocks ∈ fp) (m_regions : Part.regions ∈ fp) (m_tensors : Part.tensors ∈ fp) (m_mem : Part.mem ∈ fp) (m_err : Part.err ∈ fp) (m_trc : Part.trc ∈ fp) (m_counters : Part.counters ∈ fp) (m_fresh : Part.fresh ∈ fp) : Same fp s₀ ((copyInto ups c s).s) := by
  simp only [copyInto]
  (repeat' split) <;> simp +contextual (maxDischargeDepth := 40) [h, m_flash, m_blocks, m_regions, m_tensors, m_mem, m_err, m_trc, m_counters, m_fresh]

@[simp] theorem copyRun_same {s₀ s : State} {fp : List Part} (ups : Upsets) (c : Ctx) (h : Same fp s₀ s) (m_flash : Part.flash ∈ fp) (m_blocks : Part.blocks ∈ fp) (m_regions : Part.regions ∈ fp) (m_tensors : Part.tensors ∈ fp) (m_mem : Part.mem ∈ fp) (m_err : Part.err ∈ fp) (m_trc : Part.trc ∈ fp) (m_counters : Part.counters ∈ fp) (m_fresh : Part.fresh ∈ fp) : Same fp s₀ ((copyRun ups c s).s) := by unfold copyRun; simp +contextual (maxDischargeDepth := 40) [h, m_flash, m_blocks, m_regions, m_tensors, m_mem, m_err, m_trc, m_counters, m_fresh]

@[simp] theorem gatherInto_same {s₀ s : State} {fp : List Part} (ups : Upsets) (c : Ctx) (h : Same fp s₀ s) (m_flash : Part.flash ∈ fp) (m_blocks : Part.blocks ∈ fp) (m_regions : Part.regions ∈ fp) (m_tensors : Part.tensors ∈ fp) (m_mem : Part.mem ∈ fp) (m_err : Part.err ∈ fp) (m_trc : Part.trc ∈ fp) (m_counters : Part.counters ∈ fp) (m_fresh : Part.fresh ∈ fp) : Same fp s₀ ((gatherInto ups c s).s) := by
  simp only [gatherInto]
  (repeat' split) <;> simp +contextual (maxDischargeDepth := 40) [h, m_flash, m_blocks, m_regions, m_tensors, m_mem, m_err, m_trc, m_counters, m_fresh]

@[simp] theorem gatherRun_same {s₀ s : State} {fp : List Part} (ups : Upsets) (c : Ctx) (h : Same fp s₀ s) (m_flash : Part.flash ∈ fp) (m_blocks : Part.blocks ∈ fp) (m_regions : Part.regions ∈ fp) (m_tensors : Part.tensors ∈ fp) (m_mem : Part.mem ∈ fp) (m_err : Part.err ∈ fp) (m_trc : Part.trc ∈ fp) (m_counters : Part.counters ∈ fp) (m_fresh : Part.fresh ∈ fp) : Same fp s₀ ((gatherRun ups c s).s) := by unfold gatherRun; simp +contextual (maxDischargeDepth := 40) [h, m_flash, m_blocks, m_regions, m_tensors, m_mem, m_err, m_trc, m_counters, m_fresh]

@[simp] theorem State.writeElems_same {s₀ s : State} {fp : List Part} (v : View) (l : List (Nat × Val)) (adds : Bool) (h : Same fp s₀ s) (m_blocks : Part.blocks ∈ fp) (m_mem : Part.mem ∈ fp) (m_counters : Part.counters ∈ fp) : Same fp s₀ (State.writeElems s v l adds) := by unfold State.writeElems; simp (maxDischargeDepth := 40) [h, m_blocks, m_mem, m_counters]

@[simp] theorem State.scatterInto_same {s₀ s : State} {fp : List Part} (c : Ctx) (dst : View) (src : View) (ix : List Index) (from' : Nat) (all : List (Option Nat × ScOp)) (ops : List (Option Nat × ScOp)) (h : Same fp s₀ s) (m_blocks : Part.blocks ∈ fp) (m_tensors : Part.tensors ∈ fp) (m_mem : Part.mem ∈ fp) (m_counters : Part.counters ∈ fp) : Same fp s₀ ((State.scatterInto s c dst src ix from' all ops).s) := by unfold State.scatterInto; simp (maxDischargeDepth := 40) [h, m_blocks, m_tensors, m_mem, m_counters]

@[simp] theorem scatterRun_same {s₀ s : State} {fp : List Part} (ups : Upsets) (c : Ctx) (h : Same fp s₀ s) (m_flash : Part.flash ∈ fp) (m_blocks : Part.blocks ∈ fp) (m_regions : Part.regions ∈ fp) (m_tensors : Part.tensors ∈ fp) (m_mem : Part.mem ∈ fp) (m_err : Part.err ∈ fp) (m_trc : Part.trc ∈ fp) (m_counters : Part.counters ∈ fp) (m_fresh : Part.fresh ∈ fp) : Same fp s₀ ((scatterRun ups c s).s) := by
  simp only [scatterRun]
  (repeat' split) <;> simp +contextual (maxDischargeDepth := 40) [h, m_flash, m_blocks, m_regions, m_tensors, m_mem, m_err, m_trc, m_counters, m_fresh]

@[simp] theorem sendRun_same {s₀ s : State} {fp : List Part} (ups : Upsets) (c : Ctx) (h : Same fp s₀ s) (m_flash : Part.flash ∈ fp) (m_regions : Part.regions ∈ fp) (m_queues : Part.queues ∈ fp) (m_err : Part.err ∈ fp) (m_trc : Part.trc ∈ fp) (m_counters : Part.counters ∈ fp) (m_fresh : Part.fresh ∈ fp) : Same fp s₀ ((sendRun ups c s).s) := by unfold sendRun; simp +contextual (maxDischargeDepth := 40) [h, m_flash, m_regions, m_queues, m_err, m_trc, m_counters, m_fresh]

@[simp] theorem State.storePayload_same {s₀ s : State} {fp : List Part} (v : View) (bytes : List Byte) (pois : List Bool) (h : Same fp s₀ s) (m_blocks : Part.blocks ∈ fp) (m_tensors : Part.tensors ∈ fp) (m_mem : Part.mem ∈ fp) (m_counters : Part.counters ∈ fp) : Same fp s₀ ((State.storePayload s v bytes pois).1) := by unfold State.storePayload; simp +contextual (maxDischargeDepth := 40) [h, m_blocks, m_tensors, m_mem, m_counters]

@[simp] theorem State.acceptAt_same {s₀ s : State} {fp : List Part} (v : View) (k : Nat) (h : Same fp s₀ s) (m_blocks : Part.blocks ∈ fp) (m_mem : Part.mem ∈ fp) (m_counters : Part.counters ∈ fp) : Same fp s₀ ((State.acceptAt s v k).1) := by
  simp only [State.acceptAt]
  (repeat' split) <;> simp +contextual (maxDischargeDepth := 40) [h, m_blocks, m_mem, m_counters]

theorem State.acceptAll_same {s₀ : State} {fp : List Part} (v : View) (l : List Nat) (x : State × Nat) (h : Same fp s₀ x.1) (m_blocks : Part.blocks ∈ fp) (m_mem : Part.mem ∈ fp) (m_counters : Part.counters ∈ fp) :
    Same fp s₀ (l.foldl (fun (s, n) k => let (s, m) := State.acceptAt s v k; (s, n + m)) x).1 := by
  apply same_foldl_fst _ _ _ _ h
  rintro ⟨t, n⟩ k hp
  exact State.acceptAt_same (s := t) _ _ hp m_blocks m_mem m_counters

@[simp] theorem recvRun_same {s₀ s : State} {fp : List Part} (ups : Upsets) (c : Ctx) (h : Same fp s₀ s) (m_flash : Part.flash ∈ fp) (m_blocks : Part.blocks ∈ fp) (m_regions : Part.regions ∈ fp) (m_queues : Part.queues ∈ fp) (m_tensors : Part.tensors ∈ fp) (m_mem : Part.mem ∈ fp) (m_err : Part.err ∈ fp) (m_trc : Part.trc ∈ fp) (m_counters : Part.counters ∈ fp) (m_fresh : Part.fresh ∈ fp) : Same fp s₀ (recvRun ups c s).s := by
  have hb : ∀ t, Same fp s₀ t → Same fp s₀ ((structural ups).foldl (fun s d => s.breakQueue c.i.srcA.queue d) t) := fun t ht =>
    same_foldl _ (fun s d hs => by simp (maxDischargeDepth := 60) [hs, m_flash, m_blocks, m_regions, m_queues, m_tensors, m_mem, m_err, m_trc, m_counters, m_fresh]) _ _ ht
  have hp : ∀ t, Same fp s₀ t → Same fp s₀ ((payloadHits ups).foldl (fun s _ => s.payloadParity c.i.srcA.queue) t) := fun t ht =>
    same_foldl _ (fun s d hs => by simp (maxDischargeDepth := 60) [hs, m_flash, m_blocks, m_regions, m_queues, m_tensors, m_mem, m_err, m_trc, m_counters, m_fresh]) _ _ ht
  have h1 := hb _ (show Same fp s₀ (s.settle (s.tref c.i.dst c.rep c.n).t c.n) by simp (maxDischargeDepth := 60) [h, m_flash, m_blocks, m_regions, m_queues, m_tensors, m_mem, m_err, m_trc, m_counters, m_fresh])
  simp only [recvRun]
  split
  · exact h1
  · split
    · simp (maxDischargeDepth := 60) [h1, m_flash, m_blocks, m_regions, m_queues, m_tensors, m_mem, m_err, m_trc, m_counters, m_fresh]
    · split
      · simp (maxDischargeDepth := 60) [h1, m_flash, m_blocks, m_regions, m_queues, m_tensors, m_mem, m_err, m_trc, m_counters, m_fresh]
      · split <;> (repeat' split) <;>
          simp (maxDischargeDepth := 60) [h1, hp, State.acceptAll_same, m_flash, m_blocks, m_regions, m_queues, m_tensors, m_mem, m_err, m_trc, m_counters, m_fresh]

@[simp] theorem State.resume_same {s₀ s : State} {fp : List Part} (ups : Upsets) (b : Nat) (h : Same fp s₀ s) (m_glb : Part.glb ∈ fp) (m_flash : Part.flash ∈ fp) (m_blocks : Part.blocks ∈ fp) (m_regions : Part.regions ∈ fp) (m_queues : Part.queues ∈ fp) (m_tensors : Part.tensors ∈ fp) (m_mem : Part.mem ∈ fp) (m_ports : Part.ports ∈ fp) (m_hci : Part.hci ∈ fp) (m_eng : Part.eng ∈ fp) (m_err : Part.err ∈ fp) (m_age : Part.age ∈ fp) (m_trc : Part.trc ∈ fp) (m_counters : Part.counters ∈ fp) (m_out : Part.out ∈ fp) (m_fresh : Part.fresh ∈ fp) : Same fp s₀ (State.resume s ups b) := by
  simp only [State.resume]
  (repeat' split) <;> simp +contextual (maxDischargeDepth := 40) [h, m_glb, m_flash, m_blocks, m_regions, m_queues, m_tensors, m_mem, m_ports, m_hci, m_eng, m_err, m_age, m_trc, m_counters, m_out, m_fresh]

/-! ## QueueCmd -/

@[simp] theorem State.request_same {s₀ s : State} {fp : List Part} (qid : Nat) (who : Requester) (step : Nat) (amount : Nat) (h : Same fp s₀ s) (m_queues : Part.queues ∈ fp) : Same fp s₀ (State.request s qid who step amount) := by
  simp only [State.request]
  (repeat' split) <;> simp +contextual (maxDischargeDepth := 40) [h, m_queues]

@[simp] theorem State.endPressure_same {s₀ s : State} {fp : List Part} (k : Nat) (h : Same fp s₀ s) (m_ports : Part.ports ∈ fp) (m_hci : Part.hci ∈ fp) (m_counters : Part.counters ∈ fp) (m_out : Part.out ∈ fp) : Same fp s₀ (State.endPressure s k) := by
  simp only [State.endPressure]
  (repeat' split) <;> simp +contextual (maxDischargeDepth := 40) [h, m_ports, m_hci, m_counters, m_out]

@[simp] theorem State.writeWaiting_same {s₀ s : State} {fp : List Part} (qid : Nat) (who : Requester) (h : Same fp s₀ s) (m_regions : Part.regions ∈ fp) (m_queues : Part.queues ∈ fp) (m_drv : Part.drv ∈ fp) (m_ports : Part.ports ∈ fp) (m_hci : Part.hci ∈ fp) (m_counters : Part.counters ∈ fp) (m_out : Part.out ∈ fp) : Same fp s₀ (State.writeWaiting s qid who) := by
  simp only [State.writeWaiting]
  (repeat' split) <;> simp +contextual (maxDischargeDepth := 40) [h, m_regions, m_queues, m_drv, m_ports, m_hci, m_counters, m_out]

@[simp] theorem State.grantWait_same {s₀ s : State} {fp : List Part} (q : Queue) (x : QReq) (reason : Nat) (h : Same fp s₀ s) (m_regions : Part.regions ∈ fp) (m_trc : Part.trc ∈ fp) (m_counters : Part.counters ∈ fp) : Same fp s₀ (State.grantWait s q x reason) := by
  simp only [State.grantWait]
  (repeat' split) <;> simp +contextual (maxDischargeDepth := 40) [h, m_regions, m_trc, m_counters]

@[simp] theorem State.tookTurn_same {s₀ s : State} {fp : List Part} (r : Nat) (who : Requester) (h : Same fp s₀ s) (m_regions : Part.regions ∈ fp) : Same fp s₀ (State.tookTurn s r who) := by
  simp only [State.tookTurn]
  (repeat' split) <;> simp +contextual (maxDischargeDepth := 40) [h, m_regions]

@[simp] theorem State.grantNow_same {s₀ s : State} {fp : List Part} (qid : Nat) (h : Same fp s₀ s) (m_regions : Part.regions ∈ fp) (m_queues : Part.queues ∈ fp) (m_drv : Part.drv ∈ fp) (m_ports : Part.ports ∈ fp) (m_hci : Part.hci ∈ fp) (m_trc : Part.trc ∈ fp) (m_counters : Part.counters ∈ fp) (m_out : Part.out ∈ fp) (m_fresh : Part.fresh ∈ fp) : Same fp s₀ (State.grantNow s qid) := by
  simp only [State.grantNow]
  (repeat' split) <;> simp +contextual (maxDischargeDepth := 40) [h, m_regions, m_queues, m_drv, m_ports, m_hci, m_trc, m_counters, m_out, m_fresh]

@[simp] theorem State.streamSettles_same {s₀ s : State} {fp : List Part} (k : Nat) (h : Same fp s₀ s) (m_ports : Part.ports ∈ fp) (m_hci : Part.hci ∈ fp) (m_eng : Part.eng ∈ fp) (m_counters : Part.counters ∈ fp) (m_out : Part.out ∈ fp) : Same fp s₀ (State.streamSettles s k) := by
  simp only [State.streamSettles]
  (repeat' split) <;> simp +contextual (maxDischargeDepth := 40) [h, m_ports, m_hci, m_eng, m_counters, m_out]

@[simp] theorem State.paced_same {s₀ s : State} {fp : List Part} (qid : Nat) (e : QEntry) (h : Same fp s₀ s) (m_regions : Part.regions ∈ fp) (m_hci : Part.hci ∈ fp) (m_trc : Part.trc ∈ fp) (m_counters : Part.counters ∈ fp) : Same fp s₀ (State.paced s qid e) := by
  simp only [State.paced]
  (repeat' split) <;> simp +contextual (maxDischargeDepth := 40) [h, m_regions, m_hci, m_trc, m_counters]

@[simp] theorem State.endRecvWaits_same {s₀ s : State} {fp : List Part} (old : State) (queue : Nat) (e : QEntry) (seen : List QUnit) (h : Same fp s₀ s) (m_regions : Part.regions ∈ fp) (m_trc : Part.trc ∈ fp) (m_counters : Part.counters ∈ fp) : Same fp s₀ (State.endRecvWaits s old queue e seen) := by unfold State.endRecvWaits; simp (maxDischargeDepth := 40) [h, m_regions, m_trc, m_counters]

@[simp] theorem State.sendUnits_same {s₀ s : State} {fp : List Part} (q : Nat) (e : QEntry) (hits : List Nat) (at' : Nat) (l : List QUnit) (h : Same fp s₀ s) (m_ports : Part.ports ∈ fp) (m_counters : Part.counters ∈ fp) (m_out : Part.out ∈ fp) :
    Same fp s₀ (s.sendUnits q e hits at' l).2.1 := by
  induction l generalizing s at' with
  | nil => simpa [State.sendUnits] using h
  | cons u r ih =>
    simp only [State.sendUnits]
    split
    · simp (maxDischargeDepth := 60) [h, m_ports, m_counters, m_out]
    · exact ih _ (by simp (maxDischargeDepth := 60) [h, m_ports, m_counters, m_out])

@[simp] theorem State.watch_same {s₀ s : State} {fp : List Part} (h : Same fp s₀ s) (m_regions : Part.regions ∈ fp) : Same fp s₀ (State.watch s) := by unfold State.watch; simp (maxDischargeDepth := 40) [h, m_regions]

/-! ## Params -/

@[simp] theorem State.copiesWhole_same {s₀ s : State} {fp : List Part} (layer : Nat) (buf : Nat) (step : Nat) (serves : Nat) (h : Same fp s₀ s) (m_upd : Part.upd ∈ fp) (m_drv : Part.drv ∈ fp) : Same fp s₀ (State.copiesWhole s layer buf step serves) := by unfold State.copiesWhole; simp (maxDischargeDepth := 40) [h, m_upd, m_drv]

@[simp] theorem State.fillCopy_same {s₀ s : State} {fp : List Part} (dev : Nat) (layer : Nat) (t : Nat) (buf : Nat) (step : Nat) (serves : Nat) (count : Nat) (h : Same fp s₀ s) (m_tensors : Part.tensors ∈ fp) (m_upd : Part.upd ∈ fp) (m_drv : Part.drv ∈ fp) : Same fp s₀ (State.fillCopy s dev layer t buf step serves count) := by unfold State.fillCopy; simp (maxDischargeDepth := 40) [h, m_tensors, m_upd, m_drv]

@[simp] theorem State.fileUpd_same {s₀ s : State} {fp : List Part} (step : Nat) (layer : Nat) (role : Nat) (r : TallyRec) (h : Same fp s₀ s) (m_gov : Part.gov ∈ fp) : Same fp s₀ (State.fileUpd s step layer role r) := by unfold State.fileUpd; simp (maxDischargeDepth := 40) [h, m_gov]

@[simp] theorem State.presetForce_same {s₀ s : State} {fp : List Part} (t : Nat) (other : Nat) (rerun : Bool) (blks : List Nat) (h : Same fp s₀ s) (m_tensors : Part.tensors ∈ fp) : Same fp s₀ (State.presetForce s t other rerun blks) := by unfold State.presetForce; simp (maxDischargeDepth := 40) [h, m_tensors]

@[simp] theorem State.endUpdate_same {s₀ s : State} {fp : List Part} (t : Nat) (h : Same fp s₀ s) (m_tensors : Part.tensors ∈ fp) : Same fp s₀ (State.endUpdate s t) := by unfold State.endUpdate; simp (maxDischargeDepth := 40) [h, m_tensors]

@[simp] theorem State.putRun_same {s₀ s : State} {fp : List Part} (t : Nat) (other : Nat) (step : Nat) (rerun : Bool) (first : Nat) (vals : List Val) (part : Bool) (skip : List Nat) (h : Same fp s₀ s) (m_blocks : Part.blocks ∈ fp) (m_tensors : Part.tensors ∈ fp) (m_mem : Part.mem ∈ fp) (m_counters : Part.counters ∈ fp) (m_fresh : Part.fresh ∈ fp) : Same fp s₀ ((State.putRun s t other step rerun first vals part skip).1) := by unfold State.putRun; simp (maxDischargeDepth := 40) [h, m_blocks, m_tensors, m_mem, m_counters, m_fresh]

@[simp] theorem State.multicast_same {s₀ s : State} {fp : List Part} (fold : Fold) (layer : Nat) (chunk : Nat → Nat) (master : Nat) (k : Nat) (t : Nat) (step : Nat) (span : Span) (h : Same fp s₀ s) (m_flash : Part.flash ∈ fp) (m_regions : Part.regions ∈ fp) (m_ports : Part.ports ∈ fp) (m_err : Part.err ∈ fp) (m_trc : Part.trc ∈ fp) (m_counters : Part.counters ∈ fp) (m_out : Part.out ∈ fp) (m_fresh : Part.fresh ∈ fp) : Same fp s₀ (State.multicast s fold layer chunk master k t step span) := by unfold State.multicast; simp +contextual (maxDischargeDepth := 40) [h, m_flash, m_regions, m_ports, m_err, m_trc, m_counters, m_out, m_fresh]

@[simp] theorem State.convertCopy_same {s₀ s : State} {fp : List Part} (fold : Fold) (layer : Nat) (chunk : Nat → Nat) (master : Nat) (k : Nat) (head : Nat) (t : Nat) (other : Nat) (step : Nat) (serves : Nat) (rerun : Bool) (els : List Nat) (val : State → Nat → Val) (stat : Bool) (h : Same fp s₀ s) (m_flash : Part.flash ∈ fp) (m_blocks : Part.blocks ∈ fp) (m_regions : Part.regions ∈ fp) (m_tensors : Part.tensors ∈ fp) (m_mem : Part.mem ∈ fp) (m_gov : Part.gov ∈ fp) (m_upd : Part.upd ∈ fp) (m_drv : Part.drv ∈ fp) (m_ports : Part.ports ∈ fp) (m_err : Part.err ∈ fp) (m_trc : Part.trc ∈ fp) (m_counters : Part.counters ∈ fp) (m_out : Part.out ∈ fp) (m_fresh : Part.fresh ∈ fp) : Same fp s₀ (State.convertCopy s fold layer chunk master k head t other step serves rerun els val stat) := by unfold State.convertCopy; simp +contextual (maxDischargeDepth := 40) [h, m_flash, m_blocks, m_regions, m_tensors, m_mem, m_gov, m_upd, m_drv, m_ports, m_err, m_trc, m_counters, m_out, m_fresh]

/-! ## Reduce -/

@[simp] theorem State.setEntry_same {s₀ s : State} {fp : List Part} (e : Reorder) (h : Same fp s₀ s) (m_drv : Part.drv ∈ fp) : Same fp s₀ (State.setEntry s e) := by unfold State.setEntry; simp (maxDischargeDepth := 40) [h, m_drv]

theorem State.joinEntry_same {s₀ s t : State} {fp : List Part} (fold step epoch layer chunk member : Nat) (h : Same fp s₀ s) (m_drv : Part.drv ∈ fp)
    (e : s.joinEntry fold step epoch layer chunk member = some t) : Same fp s₀ t := by
  simp only [State.joinEntry] at e
  (repeat' split at e) <;> simp only [Option.some.injEq, reduceCtorEq] at e <;> subst e <;> simp (maxDischargeDepth := 60) [h, m_drv]

@[simp] theorem State.postRing_same {s₀ s : State} {fp : List Part} (e : Reorder) (c : Nat) (lap : Nat) (hop : Nat) (scale : Nat) (l : List RBlk) (h : Same fp s₀ s) (m_ports : Part.ports ∈ fp) (m_counters : Part.counters ∈ fp) (m_out : Part.out ∈ fp) : Same fp s₀ (State.postRing s e c lap hop scale l) := by unfold State.postRing; simp (maxDischargeDepth := 40) [h, m_ports, m_counters, m_out]

@[simp] theorem State.noteRing_same {s₀ s : State} {fp : List Part} (step : Nat) (layer : Nat) (l : List Number) (h : Same fp s₀ s) (m_drv : Part.drv ∈ fp) : Same fp s₀ (State.noteRing s step layer l) := by unfold State.noteRing; simp (maxDischargeDepth := 40) [h, m_drv]

@[simp] theorem State.ringFinal_same {s₀ s : State} {fp : List Part} (e : Reorder) (c : Nat) (scale : Nat) (l : List RBlk) (h : Same fp s₀ s) (m_drv : Part.drv ∈ fp) : Same fp s₀ (State.ringFinal s e c scale l) := by unfold State.ringFinal; simp (maxDischargeDepth := 40) [h, m_drv]

@[simp] theorem State.ringStep_same {s₀ s : State} {fp : List Part} (e : Reorder) (c : Nat) (scale : Nat) (hop : Nat) (incoming : Option (List RBlk)) (h : Same fp s₀ s) (m_flash : Part.flash ∈ fp) (m_regions : Part.regions ∈ fp) (m_drv : Part.drv ∈ fp) (m_ports : Part.ports ∈ fp) (m_err : Part.err ∈ fp) (m_trc : Part.trc ∈ fp) (m_counters : Part.counters ∈ fp) (m_out : Part.out ∈ fp) (m_fresh : Part.fresh ∈ fp) : Same fp s₀ (State.ringStep s e c scale hop incoming) := by unfold State.ringStep; simp (maxDischargeDepth := 40) [h, m_flash, m_regions, m_drv, m_ports, m_err, m_trc, m_counters, m_out, m_fresh]

@[simp] theorem State.passEntry_same {s₀ s : State} {fp : List Part} (e : Reorder) (h : Same fp s₀ s) (m_regions : Part.regions ∈ fp) (m_drv : Part.drv ∈ fp) : Same fp s₀ (State.passEntry s e) := by unfold State.passEntry; simp +contextual (maxDischargeDepth := 40) [h, m_regions, m_drv]

@[simp] theorem State.passEntries_same {s₀ s : State} {fp : List Part} (h : Same fp s₀ s) (m_regions : Part.regions ∈ fp) (m_drv : Part.drv ∈ fp) : Same fp s₀ (State.passEntries s) := by unfold State.passEntries; simp +contextual (maxDischargeDepth := 40) [h, m_regions, m_drv]

@[simp] theorem State.startRing_same {s₀ s : State} {fp : List Part} (e : Reorder) (h : Same fp s₀ s) (m_flash : Part.flash ∈ fp) (m_regions : Part.regions ∈ fp) (m_drv : Part.drv ∈ fp) (m_ports : Part.ports ∈ fp) (m_err : Part.err ∈ fp) (m_trc : Part.trc ∈ fp) (m_counters : Part.counters ∈ fp) (m_out : Part.out ∈ fp) (m_fresh : Part.fresh ∈ fp) : Same fp s₀ (State.startRing s e) := by unfold State.startRing; simp (maxDischargeDepth := 40) [h, m_flash, m_regions, m_drv, m_ports, m_err, m_trc, m_counters, m_out, m_fresh]

@[simp] theorem State.startRings_same {s₀ s : State} {fp : List Part} (h : Same fp s₀ s) (m_flash : Part.flash ∈ fp) (m_regions : Part.regions ∈ fp) (m_drv : Part.drv ∈ fp) (m_ports : Part.ports ∈ fp) (m_err : Part.err ∈ fp) (m_trc : Part.trc ∈ fp) (m_counters : Part.counters ∈ fp) (m_out : Part.out ∈ fp) (m_fresh : Part.fresh ∈ fp) : Same fp s₀ (State.startRings s) := by unfold State.startRings; simp +contextual (maxDischargeDepth := 40) [h, m_flash, m_regions, m_drv, m_ports, m_err, m_trc, m_counters, m_out, m_fresh]

@[simp] theorem State.reduceSegment_same {s₀ s : State} {fp : List Part} (f : Fold) (e : Reorder) (member : Nat) (first : Nat) (vals : List Val) (h : Same fp s₀ s) (m_flash : Part.flash ∈ fp) (m_regions : Part.regions ∈ fp) (m_drv : Part.drv ∈ fp) (m_ports : Part.ports ∈ fp) (m_err : Part.err ∈ fp) (m_trc : Part.trc ∈ fp) (m_counters : Part.counters ∈ fp) (m_out : Part.out ∈ fp) (m_fresh : Part.fresh ∈ fp) : Same fp s₀ (State.reduceSegment s f e member first vals) := by unfold State.reduceSegment; simp (maxDischargeDepth := 40) [h, m_flash, m_regions, m_drv, m_ports, m_err, m_trc, m_counters, m_out, m_fresh]

@[simp] theorem State.grantHead_same {s₀ s : State} {fp : List Part} (m : DMsg) (h : Same fp s₀ s) (m_ports : Part.ports ∈ fp) (m_counters : Part.counters ∈ fp) (m_out : Part.out ∈ fp) : Same fp s₀ (State.grantHead s m) := by unfold State.grantHead; simp (maxDischargeDepth := 40) [h, m_ports, m_counters, m_out]

@[simp] theorem State.admitHeads_same {s₀ s : State} {fp : List Part} (h : Same fp s₀ s) (m_drv : Part.drv ∈ fp) (m_ports : Part.ports ∈ fp) (m_counters : Part.counters ∈ fp) (m_out : Part.out ∈ fp) : Same fp s₀ s.admitHeads := by
  simp only [State.admitHeads]
  split
  · exact h
  · apply same_foldl _ _ _ _ h
    intro s m hs
    split
    · rename_i e
      have := State.joinEntry_same (fp := fp) _ _ _ _ _ _ hs m_drv e
      simp (maxDischargeDepth := 60) [this, m_drv, m_ports, m_counters, m_out]
    · exact hs

/-! ## Update -/

@[simp] theorem State.addSums_same {s₀ s : State} {fp : List Part} (layer : Nat) (l : List (UpIn × UpOut)) (h : Same fp s₀ s) (m_upd : Part.upd ∈ fp) (m_fresh : Part.fresh ∈ fp) : Same fp s₀ (State.addSums s layer l) := by unfold State.addSums; simp (maxDischargeDepth := 40) [h, m_upd, m_fresh]

@[simp] theorem State.putSpans_same {s₀ s : State} {fp : List Part} (x : Shard) (rerun : Bool) (wr t : Nat) (vals : List Val) (h : Same fp s₀ s) (m_blocks : Part.blocks ∈ fp) (m_tensors : Part.tensors ∈ fp) (m_mem : Part.mem ∈ fp) (m_counters : Part.counters ∈ fp) (m_fresh : Part.fresh ∈ fp) :
    Same fp s₀ (s.putSpans x rerun wr t vals).1 := by
  simp only [State.putSpans]
  apply same_foldl_fst _ _ _ _ h
  intro p run hp
  simp (maxDischargeDepth := 60) [hp, m_blocks, m_tensors, m_mem, m_counters, m_fresh]

@[simp] theorem State.putPart_same {s₀ s : State} {fp : List Part} (p : Party) (x : Shard) (rerun : Bool) (wr : Nat) (h0 : Nat) (role : Nat) (vals : List Val) (h : Same fp s₀ s) (m_blocks : Part.blocks ∈ fp) (m_tensors : Part.tensors ∈ fp) (m_mem : Part.mem ∈ fp) (m_gov : Part.gov ∈ fp) (m_counters : Part.counters ∈ fp) (m_fresh : Part.fresh ∈ fp) : Same fp s₀ (State.putPart s p x rerun wr h0 role vals) := by unfold State.putPart; simp (maxDischargeDepth := 40) [h, m_blocks, m_tensors, m_mem, m_gov, m_counters, m_fresh]

@[simp] theorem State.writeShard_same {s₀ s : State} {fp : List Part} (p : Party) (x : Shard) (out : List (Option UpOut)) (rerun : Bool) (h : Same fp s₀ s) (m_blocks : Part.blocks ∈ fp) (m_tensors : Part.tensors ∈ fp) (m_mem : Part.mem ∈ fp) (m_gov : Part.gov ∈ fp) (m_counters : Part.counters ∈ fp) (m_fresh : Part.fresh ∈ fp) : Same fp s₀ (State.writeShard s p x out rerun) := by
  simp only [State.writeShard]
  (repeat' split) <;> simp +contextual (maxDischargeDepth := 40) [h, m_blocks, m_tensors, m_mem, m_gov, m_counters, m_fresh]

@[simp] theorem State.freeEntry_same {s₀ s : State} {fp : List Part} (x : Shard) (h : Same fp s₀ s) (m_drv : Part.drv ∈ fp) : Same fp s₀ (State.freeEntry s x) := by unfold State.freeEntry; simp (maxDischargeDepth := 40) [h, m_drv]

@[simp] theorem State.runShard_same {s₀ s : State} {fp : List Part} (region : Nat) (x : Shard) (p : Party) (pr : Profile) (fold : Fold) (h : Same fp s₀ s) (m_flash : Part.flash ∈ fp) (m_blocks : Part.blocks ∈ fp) (m_regions : Part.regions ∈ fp) (m_tensors : Part.tensors ∈ fp) (m_mem : Part.mem ∈ fp) (m_gov : Part.gov ∈ fp) (m_upd : Part.upd ∈ fp) (m_drv : Part.drv ∈ fp) (m_ports : Part.ports ∈ fp) (m_err : Part.err ∈ fp) (m_trc : Part.trc ∈ fp) (m_counters : Part.counters ∈ fp) (m_out : Part.out ∈ fp) (m_fresh : Part.fresh ∈ fp) : Same fp s₀ (State.runShard s region x p pr fold) := by unfold State.runShard; simp +contextual (maxDischargeDepth := 40) [h, m_flash, m_blocks, m_regions, m_tensors, m_mem, m_gov, m_upd, m_drv, m_ports, m_err, m_trc, m_counters, m_out, m_fresh]

@[simp] theorem State.readGrads_same {s₀ s : State} {fp : List Part} (region : Nat) (n : Nat) (h : Same fp s₀ s) (m_counters : Part.counters ∈ fp) (m_fresh : Part.fresh ∈ fp) : Same fp s₀ (State.readGrads s region n) := by unfold State.readGrads; simp (maxDischargeDepth := 40) [h, m_counters, m_fresh]

@[simp] theorem State.takeShard_same {s₀ s : State} {fp : List Part} (region : Nat) (x : Shard) (n : Nat) (h : Same fp s₀ s) (m_regions : Part.regions ∈ fp) : Same fp s₀ (State.takeShard s region x n) := by unfold State.takeShard; simp (maxDischargeDepth := 40) [h, m_regions]

/-! ## Verdicts -/

@[simp] theorem State.formVerdict_same {s₀ s : State} {fp : List Part} (units : List Vote) (h : Same fp s₀ s) (m_flash : Part.flash ∈ fp) (m_regions : Part.regions ∈ fp) (m_gov : Part.gov ∈ fp) (m_drv : Part.drv ∈ fp) (m_err : Part.err ∈ fp) (m_trc : Part.trc ∈ fp) (m_counters : Part.counters ∈ fp) (m_fresh : Part.fresh ∈ fp) : Same fp s₀ ((State.formVerdict s units).1) := by
  simp only [State.formVerdict]
  (repeat' split) <;> simp +contextual (maxDischargeDepth := 40) [h, m_flash, m_regions, m_gov, m_drv, m_err, m_trc, m_counters, m_fresh]

@[simp] theorem State.rangeVerdict_same {s₀ s : State} {fp : List Part} (n : Nat) (verdict : Nat) (h : Same fp s₀ s) (m_eng : Part.eng ∈ fp) : Same fp s₀ (State.rangeVerdict s n verdict) := by
  simp only [State.rangeVerdict]
  (repeat' split) <;> simp +contextual (maxDischargeDepth := 40) [h, m_eng]

@[simp] theorem State.fillWindows_same {s₀ s : State} {fp : List Part} (n : Nat) (h : Same fp s₀ s) (m_gov : Part.gov ∈ fp) : Same fp s₀ (State.fillWindows s n) := by unfold State.fillWindows; simp (maxDischargeDepth := 40) [h, m_gov]

@[simp] theorem State.ledger_same {s₀ s : State} {fp : List Part} (m : Map (Nat × Nat)) (add : Bool) (h : Same fp s₀ s) (m_blocks : Part.blocks ∈ fp) : Same fp s₀ (State.ledger s m add) := by unfold State.ledger; simp +contextual (maxDischargeDepth := 40) [h, m_blocks]

@[simp] theorem State.sizeLedger_same {s₀ s : State} {fp : List Part} (e : PrecEntry) (k : GovK) (code : Nat) (h : Same fp s₀ s) (m_blocks : Part.blocks ∈ fp) :
    Same fp s₀ (s.sizeLedger e k code).1 := by
  unfold State.sizeLedger
  apply same_foldl_fst _ _ _ _ h
  rintro ⟨t, k⟩ b hp
  simp only at hp ⊢
  simp (maxDischargeDepth := 60) [hp, m_blocks]

@[simp] theorem State.takeDecision_same {s₀ s : State} {fp : List Part} (eff : Nat) (raised : Bool) (d : Decision) (h : Same fp s₀ s) (m_blocks : Part.blocks ∈ fp) (m_regions : Part.regions ∈ fp) (m_gov : Part.gov ∈ fp) : Same fp s₀ (State.takeDecision s eff raised d) := by
  simp only [State.takeDecision]
  (repeat' split) <;> simp +contextual (maxDischargeDepth := 40) [h, m_blocks, m_regions, m_gov]

@[simp] theorem State.raiseBaseline_same {s₀ s : State} {fp : List Part} (eff : Nat) (h : Same fp s₀ s) (m_blocks : Part.blocks ∈ fp) (m_gov : Part.gov ∈ fp) : Same fp s₀ (State.raiseBaseline s eff) := by unfold State.raiseBaseline; simp +contextual (maxDischargeDepth := 40) [h, m_blocks, m_gov]

@[simp] theorem State.takePending_same {s₀ s : State} {fp : List Part} (l : List Decision) (h : Same fp s₀ s) (m_flash : Part.flash ∈ fp) (m_regions : Part.regions ∈ fp) (m_gov : Part.gov ∈ fp) (m_err : Part.err ∈ fp) (m_trc : Part.trc ∈ fp) (m_counters : Part.counters ∈ fp) (m_fresh : Part.fresh ∈ fp) : Same fp s₀ (State.takePending s l) := by unfold State.takePending; simp +contextual (maxDischargeDepth := 40) [h, m_flash, m_regions, m_gov, m_err, m_trc, m_counters, m_fresh]

@[simp] theorem State.dropEpoch_same {s₀ s : State} {fp : List Part} (n : Nat) (h : Same fp s₀ s) (m_regions : Part.regions ∈ fp) (m_tensors : Part.tensors ∈ fp) (m_drv : Part.drv ∈ fp) : Same fp s₀ (State.dropEpoch s n) := by unfold State.dropEpoch; simp +contextual (maxDischargeDepth := 40) [h, m_regions, m_tensors, m_drv]

@[simp] theorem State.snapBegins_same {s₀ s : State} {fp : List Part} (step : Nat) (h : Same fp s₀ s) (m_upd : Part.upd ∈ fp) : Same fp s₀ (State.snapBegins s step) := by unfold State.snapBegins; simp (maxDischargeDepth := 40) [h, m_upd]

@[simp] theorem State.snapFollows_same {s₀ s : State} {fp : List Part} (step : Nat) (h : Same fp s₀ s) (m_upd : Part.upd ∈ fp) (m_fresh : Part.fresh ∈ fp) : Same fp s₀ (State.snapFollows s step) := by unfold State.snapFollows; simp (maxDischargeDepth := 40) [h, m_upd, m_fresh]

@[simp] theorem State.snapMark_same {s₀ s : State} {fp : List Part} (step : Nat) (h : Same fp s₀ s) (m_upd : Part.upd ∈ fp) (m_fresh : Part.fresh ∈ fp) : Same fp s₀ (State.snapMark s step) := by unfold State.snapMark; simp (maxDischargeDepth := 40) [h, m_upd, m_fresh]

@[simp] theorem State.commitBlocks_same {s₀ s : State} {fp : List Part} (h : Same fp s₀ s) (m_blocks : Part.blocks ∈ fp) (m_gov : Part.gov ∈ fp) : Same fp s₀ (State.commitBlocks s) := by unfold State.commitBlocks; simp +contextual (maxDischargeDepth := 40) [h, m_blocks, m_gov]

@[simp] theorem State.commitStep_same {s₀ s : State} {fp : List Part} (n : Nat) (h : Same fp s₀ s) (m_blocks : Part.blocks ∈ fp) (m_regions : Part.regions ∈ fp) (m_queues : Part.queues ∈ fp) (m_tensors : Part.tensors ∈ fp) (m_gov : Part.gov ∈ fp) (m_upd : Part.upd ∈ fp) (m_drv : Part.drv ∈ fp) (m_counters : Part.counters ∈ fp) : Same fp s₀ (State.commitStep s n) := by unfold State.commitStep; simp +contextual (maxDischargeDepth := 40) [h, m_blocks, m_regions, m_queues, m_tensors, m_gov, m_upd, m_drv, m_counters]

@[simp] theorem State.squashStep_same {s₀ s : State} {fp : List Part} (n : Nat) (skip : Bool) (h : Same fp s₀ s) (m_regions : Part.regions ∈ fp) (m_tensors : Part.tensors ∈ fp) (m_gov : Part.gov ∈ fp) (m_upd : Part.upd ∈ fp) (m_drv : Part.drv ∈ fp) : Same fp s₀ (State.squashStep s n skip) := by unfold State.squashStep; simp (maxDischargeDepth := 40) [h, m_regions, m_tensors, m_gov, m_upd, m_drv]

@[simp] theorem State.noteVerdict_same {s₀ s : State} {fp : List Part} (v : Verdict) (h : Same fp s₀ s) (m_regions : Part.regions ∈ fp) (m_gov : Part.gov ∈ fp) (m_upd : Part.upd ∈ fp) (m_drv : Part.drv ∈ fp) (m_eng : Part.eng ∈ fp) (m_trc : Part.trc ∈ fp) (m_counters : Part.counters ∈ fp) : Same fp s₀ (State.noteVerdict s v) := by unfold State.noteVerdict; simp (maxDischargeDepth := 40) [h, m_regions, m_gov, m_upd, m_drv, m_eng, m_trc, m_counters]

@[simp] theorem State.turnStep_same {s₀ s : State} {fp : List Part} (v : Verdict) (h : Same fp s₀ s) (m_blocks : Part.blocks ∈ fp) (m_regions : Part.regions ∈ fp) (m_queues : Part.queues ∈ fp) (m_tensors : Part.tensors ∈ fp) (m_gov : Part.gov ∈ fp) (m_upd : Part.upd ∈ fp) (m_drv : Part.drv ∈ fp) (m_counters : Part.counters ∈ fp) : Same fp s₀ (State.turnStep s v) := by
  simp only [State.turnStep]
  (repeat' split) <;> simp +contextual (maxDischargeDepth := 40) [h, m_blocks, m_regions, m_queues, m_tensors, m_gov, m_upd, m_drv, m_counters]

@[simp] theorem State.takeDecisions_same {s₀ s : State} {fp : List Part} (v : Verdict) (h : Same fp s₀ s) (m_flash : Part.flash ∈ fp) (m_blocks : Part.blocks ∈ fp) (m_regions : Part.regions ∈ fp) (m_gov : Part.gov ∈ fp) (m_err : Part.err ∈ fp) (m_trc : Part.trc ∈ fp) (m_counters : Part.counters ∈ fp) (m_fresh : Part.fresh ∈ fp) : Same fp s₀ (State.takeDecisions s v) := by unfold State.takeDecisions; simp +contextual (maxDischargeDepth := 40) [h, m_flash, m_blocks, m_regions, m_gov, m_err, m_trc, m_counters, m_fresh]

@[simp] theorem State.applyVerdict_same {s₀ s : State} {fp : List Part} (v : Verdict) (h : Same fp s₀ s) (m_flash : Part.flash ∈ fp) (m_blocks : Part.blocks ∈ fp) (m_regions : Part.regions ∈ fp) (m_queues : Part.queues ∈ fp) (m_tensors : Part.tensors ∈ fp) (m_gov : Part.gov ∈ fp) (m_upd : Part.upd ∈ fp) (m_drv : Part.drv ∈ fp) (m_ports : Part.ports ∈ fp) (m_eng : Part.eng ∈ fp) (m_err : Part.err ∈ fp) (m_trc : Part.trc ∈ fp) (m_counters : Part.counters ∈ fp) (m_out : Part.out ∈ fp) (m_fresh : Part.fresh ∈ fp) : Same fp s₀ (State.applyVerdict s v) := by unfold State.applyVerdict; simp (maxDischargeDepth := 40) [h, m_flash, m_blocks, m_regions, m_queues, m_tensors, m_gov, m_upd, m_drv, m_ports, m_eng, m_err, m_trc, m_counters, m_out, m_fresh]

@[simp] theorem State.issueVerdict_same {s₀ s : State} {fp : List Part} (v : Verdict) (h : Same fp s₀ s) (m_flash : Part.flash ∈ fp) (m_blocks : Part.blocks ∈ fp) (m_regions : Part.regions ∈ fp) (m_queues : Part.queues ∈ fp) (m_tensors : Part.tensors ∈ fp) (m_gov : Part.gov ∈ fp) (m_upd : Part.upd ∈ fp) (m_drv : Part.drv ∈ fp) (m_ports : Part.ports ∈ fp) (m_eng : Part.eng ∈ fp) (m_err : Part.err ∈ fp) (m_trc : Part.trc ∈ fp) (m_counters : Part.counters ∈ fp) (m_out : Part.out ∈ fp) (m_fresh : Part.fresh ∈ fp) : Same fp s₀ (State.issueVerdict s v) := by unfold State.issueVerdict; simp +contextual (maxDischargeDepth := 40) [h, m_flash, m_blocks, m_regions, m_queues, m_tensors, m_gov, m_upd, m_drv, m_ports, m_eng, m_err, m_trc, m_counters, m_out, m_fresh]

theorem State.formVerdict_some_same {s₀ s t : State} {fp : List Part} {u : List Vote} {d : Verdict} (h : Same fp s₀ s) (m_flash : Part.flash ∈ fp) (m_blocks : Part.blocks ∈ fp) (m_regions : Part.regions ∈ fp) (m_queues : Part.queues ∈ fp) (m_tensors : Part.tensors ∈ fp) (m_gov : Part.gov ∈ fp) (m_upd : Part.upd ∈ fp) (m_drv : Part.drv ∈ fp) (m_ports : Part.ports ∈ fp) (m_eng : Part.eng ∈ fp) (m_err : Part.err ∈ fp) (m_trc : Part.trc ∈ fp) (m_counters : Part.counters ∈ fp) (m_out : Part.out ∈ fp) (m_fresh : Part.fresh ∈ fp) (e : s.formVerdict u = (t, some d)) :
    Same fp s₀ (t.issueVerdict d) := by
  have k : Same fp s₀ (s.formVerdict u).1 := by simp (maxDischargeDepth := 60) [h, m_flash, m_blocks, m_regions, m_queues, m_tensors, m_gov, m_upd, m_drv, m_ports, m_eng, m_err, m_trc, m_counters, m_out, m_fresh]
  rw [e] at k
  simp (maxDischargeDepth := 60) [k, m_flash, m_blocks, m_regions, m_queues, m_tensors, m_gov, m_upd, m_drv, m_ports, m_eng, m_err, m_trc, m_counters, m_out, m_fresh]

theorem State.formVerdict_none_same {s₀ s t : State} {fp : List Part} {u : List Vote} (h : Same fp s₀ s) (m_flash : Part.flash ∈ fp) (m_blocks : Part.blocks ∈ fp) (m_regions : Part.regions ∈ fp) (m_queues : Part.queues ∈ fp) (m_tensors : Part.tensors ∈ fp) (m_gov : Part.gov ∈ fp) (m_upd : Part.upd ∈ fp) (m_drv : Part.drv ∈ fp) (m_ports : Part.ports ∈ fp) (m_eng : Part.eng ∈ fp) (m_err : Part.err ∈ fp) (m_trc : Part.trc ∈ fp) (m_counters : Part.counters ∈ fp) (m_out : Part.out ∈ fp) (m_fresh : Part.fresh ∈ fp) (e : s.formVerdict u = (t, none)) : Same fp s₀ t := by
  have k : Same fp s₀ (s.formVerdict u).1 := by simp (maxDischargeDepth := 60) [h, m_flash, m_blocks, m_regions, m_queues, m_tensors, m_gov, m_upd, m_drv, m_ports, m_eng, m_err, m_trc, m_counters, m_out, m_fresh]
  rwa [e] at k

@[simp] theorem State.tryVerdict_same {s₀ s : State} {fp : List Part} (h : Same fp s₀ s) (m_flash : Part.flash ∈ fp) (m_blocks : Part.blocks ∈ fp) (m_regions : Part.regions ∈ fp) (m_queues : Part.queues ∈ fp) (m_tensors : Part.tensors ∈ fp) (m_gov : Part.gov ∈ fp) (m_upd : Part.upd ∈ fp) (m_drv : Part.drv ∈ fp) (m_ports : Part.ports ∈ fp) (m_eng : Part.eng ∈ fp) (m_err : Part.err ∈ fp) (m_trc : Part.trc ∈ fp) (m_counters : Part.counters ∈ fp) (m_out : Part.out ∈ fp) (m_fresh : Part.fresh ∈ fp) : Same fp s₀ s.tryVerdict := by
  simp only [State.tryVerdict]
  repeat' split
  all_goals first
    | exact h
    | with_reducible exact State.formVerdict_some_same (State.waitRec_same _ _ h m_regions m_trc m_counters) m_flash m_blocks m_regions m_queues m_tensors m_gov m_upd m_drv m_ports m_eng m_err m_trc m_counters m_out m_fresh ‹_›
    | with_reducible exact State.formVerdict_none_same (State.waitRec_same _ _ h m_regions m_trc m_counters) m_flash m_blocks m_regions m_queues m_tensors m_gov m_upd m_drv m_ports m_eng m_err m_trc m_counters m_out m_fresh ‹_›
    | simp (maxDischargeDepth := 60) [h, m_flash, m_blocks, m_regions, m_queues, m_tensors, m_gov, m_upd, m_drv, m_ports, m_eng, m_err, m_trc, m_counters, m_out, m_fresh]

@[simp] theorem State.addVote_same {s₀ s : State} {fp : List Part} (v : Vote) (h : Same fp s₀ s) (m_flash : Part.flash ∈ fp) (m_blocks : Part.blocks ∈ fp) (m_regions : Part.regions ∈ fp) (m_queues : Part.queues ∈ fp) (m_tensors : Part.tensors ∈ fp) (m_gov : Part.gov ∈ fp) (m_upd : Part.upd ∈ fp) (m_drv : Part.drv ∈ fp) (m_ports : Part.ports ∈ fp) (m_eng : Part.eng ∈ fp) (m_err : Part.err ∈ fp) (m_trc : Part.trc ∈ fp) (m_counters : Part.counters ∈ fp) (m_out : Part.out ∈ fp) (m_fresh : Part.fresh ∈ fp) : Same fp s₀ (State.addVote s v) := by unfold State.addVote; simp (maxDischargeDepth := 40) [h, m_flash, m_blocks, m_regions, m_queues, m_tensors, m_gov, m_upd, m_drv, m_ports, m_eng, m_err, m_trc, m_counters, m_out, m_fresh]

/-! ## Snapshot -/

@[simp] theorem State.spoilSlot_same {s₀ s : State} {fp : List Part} (k : Nat) (h : Same fp s₀ s) (m_upd : Part.upd ∈ fp) : Same fp s₀ (State.spoilSlot s k) := by unfold State.spoilSlot; simp (maxDischargeDepth := 40) [h, m_upd]

@[simp] theorem State.readSlot_same {s₀ s : State} {fp : List Part} (ups : Upsets) (k : Nat) (h : Same fp s₀ s) (m_flash : Part.flash ∈ fp) (m_regions : Part.regions ∈ fp) (m_mem : Part.mem ∈ fp) (m_upd : Part.upd ∈ fp) (m_err : Part.err ∈ fp) (m_trc : Part.trc ∈ fp) (m_counters : Part.counters ∈ fp) (m_fresh : Part.fresh ∈ fp) : Same fp s₀ ((State.readSlot s ups k).1) := by
  simp only [State.readSlot]
  (repeat' split) <;> simp +contextual (maxDischargeDepth := 40) [h, m_flash, m_regions, m_mem, m_upd, m_err, m_trc, m_counters, m_fresh]

@[simp] theorem State.writeSlotBlocks_same {s₀ s : State} {fp : List Part} (ups : Upsets) (k : Nat) (bytes : Nat) (h : Same fp s₀ s) (m_flash : Part.flash ∈ fp) (m_regions : Part.regions ∈ fp) (m_mem : Part.mem ∈ fp) (m_err : Part.err ∈ fp) (m_trc : Part.trc ∈ fp) (m_counters : Part.counters ∈ fp) (m_fresh : Part.fresh ∈ fp) : Same fp s₀ ((State.writeSlotBlocks s ups k bytes).1) := by unfold State.writeSlotBlocks; simp (maxDischargeDepth := 40) [h, m_flash, m_regions, m_mem, m_err, m_trc, m_counters, m_fresh]

@[simp] theorem State.slotDone_same {s₀ s : State} {fp : List Part} (k : Nat) (image : List Byte) (h : Same fp s₀ s) (m_upd : Part.upd ∈ fp) : Same fp s₀ (State.slotDone s k image) := by unfold State.slotDone; simp (maxDischargeDepth := 40) [h, m_upd]

@[simp] theorem State.finishTake_same {s₀ s : State} {fp : List Part} (status : Nat) (fault : Nat) (result : List Byte) (h : Same fp s₀ s) (m_ports : Part.ports ∈ fp) (m_hci : Part.hci ∈ fp) (m_eng : Part.eng ∈ fp) (m_counters : Part.counters ∈ fp) (m_out : Part.out ∈ fp) : Same fp s₀ (State.finishTake s status fault result) := by unfold State.finishTake; simp +contextual (maxDischargeDepth := 40) [h, m_ports, m_hci, m_eng, m_counters, m_out]

@[simp] theorem State.takeEnds_same {s₀ s : State} {fp : List Part} (result : List Byte) (h : Same fp s₀ s) (m_upd : Part.upd ∈ fp) (m_ports : Part.ports ∈ fp) (m_hci : Part.hci ∈ fp) (m_eng : Part.eng ∈ fp) (m_counters : Part.counters ∈ fp) (m_out : Part.out ∈ fp) (m_fresh : Part.fresh ∈ fp) : Same fp s₀ (State.takeEnds s result) := by unfold State.takeEnds; simp (maxDischargeDepth := 40) [h, m_upd, m_ports, m_hci, m_eng, m_counters, m_out, m_fresh]

@[simp] theorem State.copyStops_same {s₀ s : State} {fp : List Part} (h : Same fp s₀ s) (m_upd : Part.upd ∈ fp) : Same fp s₀ (State.copyStops s) := by unfold State.copyStops; simp (maxDischargeDepth := 40) [h, m_upd]

@[simp] theorem State.copyEnds_same {s₀ s : State} {fp : List Part} (ups : Upsets) (h : Same fp s₀ s) (m_flash : Part.flash ∈ fp) (m_regions : Part.regions ∈ fp) (m_mem : Part.mem ∈ fp) (m_upd : Part.upd ∈ fp) (m_ports : Part.ports ∈ fp) (m_hci : Part.hci ∈ fp) (m_eng : Part.eng ∈ fp) (m_err : Part.err ∈ fp) (m_trc : Part.trc ∈ fp) (m_counters : Part.counters ∈ fp) (m_out : Part.out ∈ fp) (m_fresh : Part.fresh ∈ fp) : Same fp s₀ (State.copyEnds s ups) := by unfold State.copyEnds; simp (maxDischargeDepth := 40) [h, m_flash, m_regions, m_mem, m_upd, m_ports, m_hci, m_eng, m_err, m_trc, m_counters, m_out, m_fresh]

@[simp] theorem State.snapPoison_same {s₀ s : State} {fp : List Part} (t : Nat) (region : Nat) (h : Same fp s₀ s) (m_flash : Part.flash ∈ fp) (m_regions : Part.regions ∈ fp) (m_upd : Part.upd ∈ fp) (m_err : Part.err ∈ fp) (m_trc : Part.trc ∈ fp) (m_counters : Part.counters ∈ fp) (m_fresh : Part.fresh ∈ fp) : Same fp s₀ (State.snapPoison s t region) := by unfold State.snapPoison; simp (maxDischargeDepth := 40) [h, m_flash, m_regions, m_upd, m_err, m_trc, m_counters, m_fresh]

@[simp] theorem State.readSection_same {s₀ s : State} {fp : List Part} (ups : Upsets) (t : Nat) (l : List SnapUnit) (h : Same fp s₀ s) (m_flash : Part.flash ∈ fp) (m_regions : Part.regions ∈ fp) (m_mem : Part.mem ∈ fp) (m_upd : Part.upd ∈ fp) (m_err : Part.err ∈ fp) (m_trc : Part.trc ∈ fp) (m_counters : Part.counters ∈ fp) (m_fresh : Part.fresh ∈ fp) :
    Same fp s₀ (s.readSection ups t l).1 := by
  induction l generalizing s with
  | nil => exact h
  | cons x r ih =>
    simp only [State.readSection]
    (repeat' split) <;> simp (maxDischargeDepth := 60) [h, ih, m_flash, m_regions, m_mem, m_upd, m_err, m_trc, m_counters, m_fresh]

@[simp] theorem State.copySections_same {s₀ s : State} {fp : List Part} (ups : Upsets) (l : List (Nat × Nat)) (h : Same fp s₀ s) (m_flash : Part.flash ∈ fp) (m_regions : Part.regions ∈ fp) (m_mem : Part.mem ∈ fp) (m_upd : Part.upd ∈ fp) (m_ports : Part.ports ∈ fp) (m_hci : Part.hci ∈ fp) (m_eng : Part.eng ∈ fp) (m_err : Part.err ∈ fp) (m_trc : Part.trc ∈ fp) (m_counters : Part.counters ∈ fp) (m_out : Part.out ∈ fp) (m_fresh : Part.fresh ∈ fp) :
    Same fp s₀ (s.copySections ups l) := by
  induction l generalizing s with
  | nil => simp (maxDischargeDepth := 60) [State.copySections, h, m_flash, m_regions, m_mem, m_upd, m_ports, m_hci, m_eng, m_err, m_trc, m_counters, m_out, m_fresh]
  | cons x r ih =>
    obtain ⟨ty, t⟩ := x
    simp only [State.copySections]
    (repeat' split) <;> simp +contextual (maxDischargeDepth := 60) [h, m_flash, m_regions, m_mem, m_upd, m_ports, m_hci, m_eng, m_err, m_trc, m_counters, m_out, m_fresh, ih]

@[simp] theorem State.copyIdle_same {s₀ s : State} {fp : List Part} (h : Same fp s₀ s) (m_upd : Part.upd ∈ fp) (m_ports : Part.ports ∈ fp) (m_hci : Part.hci ∈ fp) (m_eng : Part.eng ∈ fp) (m_counters : Part.counters ∈ fp) (m_out : Part.out ∈ fp) (m_fresh : Part.fresh ∈ fp) : Same fp s₀ (State.copyIdle s) := by
  simp only [State.copyIdle]
  (repeat' split) <;> simp +contextual (maxDischargeDepth := 40) [h, m_upd, m_ports, m_hci, m_eng, m_counters, m_out, m_fresh]

@[simp] theorem State.slotChecked_same {s₀ s : State} {fp : List Part} (ups : Upsets) (byte : Nat) (h : Same fp s₀ s) (m_flash : Part.flash ∈ fp) (m_regions : Part.regions ∈ fp) (m_mem : Part.mem ∈ fp) (m_upd : Part.upd ∈ fp) (m_err : Part.err ∈ fp) (m_trc : Part.trc ∈ fp) (m_counters : Part.counters ∈ fp) (m_fresh : Part.fresh ∈ fp) : Same fp s₀ ((State.slotChecked s ups byte).1) := by
  simp only [State.slotChecked]
  (repeat' split) <;> simp +contextual (maxDischargeDepth := 40) [h, m_flash, m_regions, m_mem, m_upd, m_err, m_trc, m_counters, m_fresh]

@[simp] theorem State.restoreUnits_same {s₀ s : State} {fp : List Part} (ty t a b : Nat) (body : List Byte) (h : Same fp s₀ s) (m_blocks : Part.blocks ∈ fp) (m_tensors : Part.tensors ∈ fp) (m_mem : Part.mem ∈ fp) (m_counters : Part.counters ∈ fp) :
    Same fp s₀ (s.restoreUnits ty t a b body) := by
  simp only [State.restoreUnits]
  split
  · apply same_foldl _ _ _ _ h
    intro t a ht
    split <;> simp (maxDischargeDepth := 60) +contextual [ht, m_blocks, m_tensors, m_mem, m_counters]
  · apply same_foldl _ _ _ _ h
    intro t a ht
    simp (maxDischargeDepth := 60) +contextual [ht, m_blocks, m_tensors, m_mem, m_counters]

@[simp] theorem State.restoreList_same {s₀ s : State} {fp : List Part} (ups : Upsets) (k : Nat) (l : List (Nat × Nat × Nat)) (h : Same fp s₀ s) (m_flash : Part.flash ∈ fp) (m_blocks : Part.blocks ∈ fp) (m_regions : Part.regions ∈ fp) (m_tensors : Part.tensors ∈ fp) (m_mem : Part.mem ∈ fp) (m_upd : Part.upd ∈ fp) (m_err : Part.err ∈ fp) (m_trc : Part.trc ∈ fp) (m_counters : Part.counters ∈ fp) (m_fresh : Part.fresh ∈ fp) :
    Same fp s₀ (s.restoreList ups k l) := by
  induction l generalizing s with
  | nil => simp (maxDischargeDepth := 60) +contextual [State.restoreList, h, m_flash, m_blocks, m_regions, m_tensors, m_mem, m_upd, m_err, m_trc, m_counters, m_fresh]
  | cons x r ih =>
    obtain ⟨ty, t, done⟩ := x
    simp only [State.restoreList]
    split
    · exact ih (by simp (maxDischargeDepth := 60) +contextual [h, m_flash, m_blocks, m_regions, m_tensors, m_mem, m_upd, m_err, m_trc, m_counters, m_fresh])
    · simp (maxDischargeDepth := 60) +contextual [h, m_flash, m_blocks, m_regions, m_tensors, m_mem, m_upd, m_err, m_trc, m_counters, m_fresh]
    · simp (maxDischargeDepth := 60) +contextual [h, m_flash, m_blocks, m_regions, m_tensors, m_mem, m_upd, m_err, m_trc, m_counters, m_fresh]

@[simp] theorem State.initPlan_same {s₀ s : State} {fp : List Part} (t : Nat) (h : Same fp s₀ s) (m_blocks : Part.blocks ∈ fp) (m_mem : Part.mem ∈ fp) (m_counters : Part.counters ∈ fp) : Same fp s₀ (s.initPlan t) := by
  simp only [State.initPlan]
  split
  · exact h
  · split
    · exact h
    · apply same_foldl _ _ _ _ h
      intro s m hs
      split
      · exact same_foldl _ (fun s m hs => by simp (maxDischargeDepth := 60) [hs, m_blocks, m_mem, m_counters]) _ _ hs
      · exact hs

@[simp] theorem State.initPlans_same {s₀ s : State} {fp : List Part} (h : Same fp s₀ s) (m_blocks : Part.blocks ∈ fp) (m_mem : Part.mem ∈ fp) (m_counters : Part.counters ∈ fp) : Same fp s₀ (State.initPlans s) := by unfold State.initPlans; simp +contextual (maxDischargeDepth := 40) [h, m_blocks, m_mem, m_counters]

@[simp] theorem State.restorePair_same {s₀ s : State} {fp : List Part} (key : Nat) (cls : Nat) (size : Nat) (lambda : Nat) (h : Same fp s₀ s) (m_tensors : Part.tensors ∈ fp) (m_gov : Part.gov ∈ fp) : Same fp s₀ (State.restorePair s key cls size lambda) := by
  simp only [State.restorePair]
  (repeat' split) <;> simp +contextual (maxDischargeDepth := 40) [h, m_tensors, m_gov]

@[simp] theorem State.restoreFormat_same {s₀ s : State} {fp : List Part} (h0 : Nat) (old : Nat) (h : Same fp s₀ s) (m_tensors : Part.tensors ∈ fp) : Same fp s₀ (State.restoreFormat s h0 old) := by unfold State.restoreFormat; simp (maxDischargeDepth := 40) [h, m_tensors]

@[simp] theorem State.restoreLater_same {s₀ s : State} {fp : List Part} (step : Nat) (h0 : Nat) (h : Same fp s₀ s) (m_tensors : Part.tensors ∈ fp) : Same fp s₀ (State.restoreLater s step h0) := by
  simp only [State.restoreLater]
  (repeat' split) <;> simp +contextual (maxDischargeDepth := 40) [h, m_tensors]

@[simp] theorem State.restoreGov_same {s₀ s : State} {fp : List Part} (body : List Byte) (h : Same fp s₀ s) (m_tensors : Part.tensors ∈ fp) (m_gov : Part.gov ∈ fp) : Same fp s₀ (State.restoreGov s body) := by unfold State.restoreGov; simp +contextual (maxDischargeDepth := 40) [h, m_tensors, m_gov]

@[simp] theorem State.restoreSlot_same {s₀ s : State} {fp : List Part} (k : Nat) (h : Same fp s₀ s) (m_blocks : Part.blocks ∈ fp) (m_tensors : Part.tensors ∈ fp) (m_mem : Part.mem ∈ fp) (m_gov : Part.gov ∈ fp) (m_upd : Part.upd ∈ fp) (m_counters : Part.counters ∈ fp) : Same fp s₀ (State.restoreSlot s k) := by unfold State.restoreSlot; simp +contextual (maxDischargeDepth := 40) [h, m_blocks, m_tensors, m_mem, m_gov, m_upd, m_counters]

@[simp] theorem State.restoreEnds_same {s₀ s : State} {fp : List Part} (k : Nat) (h : Same fp s₀ s) (m_tensors : Part.tensors ∈ fp) : Same fp s₀ (State.restoreEnds s k) := by unfold State.restoreEnds; simp +contextual (maxDischargeDepth := 40) [h, m_tensors]

/-! ## Drover -/

@[simp] theorem State.sendHeads_same {s₀ s : State} {fp : List Part} (fold : Nat) (h : Same fp s₀ s) (m_drv : Part.drv ∈ fp) (m_ports : Part.ports ∈ fp) (m_counters : Part.counters ∈ fp) (m_out : Part.out ∈ fp) : Same fp s₀ (State.sendHeads s fold) := by unfold State.sendHeads; simp +contextual (maxDischargeDepth := 40) [h, m_drv, m_ports, m_counters, m_out]

@[simp] theorem State.fileGrad_same {s₀ s : State} {fp : List Part} (step : Nat) (layer : Nat) (r : TallyRec) (h : Same fp s₀ s) (m_gov : Part.gov ∈ fp) : Same fp s₀ (State.fileGrad s step layer r) := by unfold State.fileGrad; simp (maxDischargeDepth := 40) [h, m_gov]

@[simp] theorem State.reduceOwn_same {s₀ s : State} {fp : List Part} (f : Fold) (layer chunk fw : Nat) (x : Full)
    (enc : List (Span × List Nat × List Byte × TallyRec)) (h : Same fp s₀ s) (m_flash : Part.flash ∈ fp) (m_regions : Part.regions ∈ fp) (m_drv : Part.drv ∈ fp) (m_ports : Part.ports ∈ fp) (m_err : Part.err ∈ fp) (m_trc : Part.trc ∈ fp) (m_counters : Part.counters ∈ fp) (m_out : Part.out ∈ fp) (m_fresh : Part.fresh ∈ fp) : Same fp s₀ (s.reduceOwn f layer chunk fw x enc) := by
  unfold State.reduceOwn
  split
  · exact h
  · rename_i e
    apply same_foldl _ _ _ _ (State.joinEntry_same _ _ _ _ _ _ h m_drv e)
    intro t a ht
    split <;> simp (maxDischargeDepth := 60) [ht, m_flash, m_regions, m_drv, m_ports, m_err, m_trc, m_counters, m_out, m_fresh]

@[simp] theorem State.contribute_same {s₀ s : State} {fp : List Part} (f : Fold) (layer : Nat) (chunk : Nat) (x : Full) (h : Same fp s₀ s) (m_flash : Part.flash ∈ fp) (m_regions : Part.regions ∈ fp) (m_gov : Part.gov ∈ fp) (m_drv : Part.drv ∈ fp) (m_ports : Part.ports ∈ fp) (m_err : Part.err ∈ fp) (m_trc : Part.trc ∈ fp) (m_counters : Part.counters ∈ fp) (m_out : Part.out ∈ fp) (m_fresh : Part.fresh ∈ fp) : Same fp s₀ (State.contribute s f layer chunk x) := by unfold State.contribute; simp (maxDischargeDepth := 40) [h, m_flash, m_regions, m_gov, m_drv, m_ports, m_err, m_trc, m_counters, m_out, m_fresh]

@[simp] theorem State.stall_same {s₀ s : State} {fp : List Part} (m : DMsg) (h : Same fp s₀ s) (m_drv : Part.drv ∈ fp) : Same fp s₀ (State.stall s m) := by unfold State.stall; simp (maxDischargeDepth := 40) [h, m_drv]

@[simp] theorem State.onGrant_same {s₀ s : State} {fp : List Part} (m : DMsg) (h : Same fp s₀ s) (m_regions : Part.regions ∈ fp) (m_drv : Part.drv ∈ fp) (m_ports : Part.ports ∈ fp) (m_trc : Part.trc ∈ fp) (m_counters : Part.counters ∈ fp) (m_out : Part.out ∈ fp) : Same fp s₀ (State.onGrant s m) := by
  simp only [State.onGrant]
  (repeat' split) <;> simp +contextual (maxDischargeDepth := 40) [h, m_regions, m_drv, m_ports, m_trc, m_counters, m_out]

@[simp] theorem State.onGrad_same {s₀ s : State} {fp : List Part} (m : DMsg) (h : Same fp s₀ s) (m_flash : Part.flash ∈ fp) (m_regions : Part.regions ∈ fp) (m_drv : Part.drv ∈ fp) (m_ports : Part.ports ∈ fp) (m_err : Part.err ∈ fp) (m_trc : Part.trc ∈ fp) (m_counters : Part.counters ∈ fp) (m_out : Part.out ∈ fp) (m_fresh : Part.fresh ∈ fp) : Same fp s₀ (State.onGrad s m) := by
  simp only [State.onGrad]
  (repeat' split) <;> simp +contextual (maxDischargeDepth := 40) [h, m_flash, m_regions, m_drv, m_ports, m_err, m_trc, m_counters, m_out, m_fresh]

@[simp] theorem State.onRing_same {s₀ s : State} {fp : List Part} (m : DMsg) (h : Same fp s₀ s) (m_flash : Part.flash ∈ fp) (m_regions : Part.regions ∈ fp) (m_drv : Part.drv ∈ fp) (m_ports : Part.ports ∈ fp) (m_err : Part.err ∈ fp) (m_trc : Part.trc ∈ fp) (m_counters : Part.counters ∈ fp) (m_out : Part.out ∈ fp) (m_fresh : Part.fresh ∈ fp) : Same fp s₀ (State.onRing s m) := by
  simp only [State.onRing]
  (repeat' split) <;> simp +contextual (maxDischargeDepth := 40) [h, m_flash, m_regions, m_drv, m_ports, m_err, m_trc, m_counters, m_out, m_fresh]

@[simp] theorem State.onRingFinal_same {s₀ s : State} {fp : List Part} (m : DMsg) (h : Same fp s₀ s) (m_regions : Part.regions ∈ fp) (m_drv : Part.drv ∈ fp) (m_ports : Part.ports ∈ fp) (m_counters : Part.counters ∈ fp) (m_out : Part.out ∈ fp) : Same fp s₀ (State.onRingFinal s m) := by
  simp only [State.onRingFinal]
  (repeat' split) <;> simp +contextual (maxDischargeDepth := 40) [h, m_regions, m_drv, m_ports, m_counters, m_out]

@[simp] theorem State.storePlans_same {s₀ s : State} {fp : List Part} (v : View) (b0 nb : Nat) (plans : List Byte) (h : Same fp s₀ s) (m_blocks : Part.blocks ∈ fp) (m_mem : Part.mem ∈ fp) (m_counters : Part.counters ∈ fp) :
    Same fp s₀ (s.storePlans v b0 nb plans) := by
  unfold State.storePlans
  apply same_foldl _ _ _ _ h
  intro t a ht
  split <;> simp (maxDischargeDepth := 60) [ht, m_blocks, m_mem, m_counters]

@[simp] theorem State.storeParam_same {s₀ s : State} {fp : List Part} (ups : Upsets) (m : DMsg) (t : Nat) (refresh : Bool) (h : Same fp s₀ s) (m_flash : Part.flash ∈ fp) (m_blocks : Part.blocks ∈ fp) (m_regions : Part.regions ∈ fp) (m_tensors : Part.tensors ∈ fp) (m_mem : Part.mem ∈ fp) (m_upd : Part.upd ∈ fp) (m_drv : Part.drv ∈ fp) (m_err : Part.err ∈ fp) (m_trc : Part.trc ∈ fp) (m_counters : Part.counters ∈ fp) (m_fresh : Part.fresh ∈ fp) : Same fp s₀ (State.storeParam s ups m t refresh) := by unfold State.storeParam; simp (maxDischargeDepth := 40) [h, m_flash, m_blocks, m_regions, m_tensors, m_mem, m_upd, m_drv, m_err, m_trc, m_counters, m_fresh]

@[simp] theorem State.paramBar_same {s₀ s : State} {fp : List Part} (ups : Upsets) (m : DMsg) (a3 : Bar) (h : Same fp s₀ s) (m_flash : Part.flash ∈ fp) (m_regions : Part.regions ∈ fp) (m_mem : Part.mem ∈ fp) (m_drv : Part.drv ∈ fp) (m_err : Part.err ∈ fp) (m_trc : Part.trc ∈ fp) (m_counters : Part.counters ∈ fp) (m_fresh : Part.fresh ∈ fp) : Same fp s₀ (State.paramBar s ups m a3) := by
  simp only [State.paramBar]
  (repeat' split) <;> simp +contextual (maxDischargeDepth := 40) [h, m_flash, m_regions, m_mem, m_drv, m_err, m_trc, m_counters, m_fresh]

@[simp] theorem State.onParam_same {s₀ s : State} {fp : List Part} (ups : Upsets) (m : DMsg) (h : Same fp s₀ s) (m_flash : Part.flash ∈ fp) (m_blocks : Part.blocks ∈ fp) (m_regions : Part.regions ∈ fp) (m_tensors : Part.tensors ∈ fp) (m_mem : Part.mem ∈ fp) (m_upd : Part.upd ∈ fp) (m_drv : Part.drv ∈ fp) (m_err : Part.err ∈ fp) (m_trc : Part.trc ∈ fp) (m_counters : Part.counters ∈ fp) (m_fresh : Part.fresh ∈ fp) : Same fp s₀ (State.onParam s ups m) := by
  simp only [State.onParam]
  (repeat' split) <;> simp +contextual (maxDischargeDepth := 40) [h, m_flash, m_blocks, m_regions, m_tensors, m_mem, m_upd, m_drv, m_err, m_trc, m_counters, m_fresh]

@[simp] theorem State.deliver_same {s₀ s : State} {fp : List Part} (ups : Upsets) (m : DMsg) (h : Same fp s₀ s) (m_flash : Part.flash ∈ fp) (m_blocks : Part.blocks ∈ fp) (m_regions : Part.regions ∈ fp) (m_tensors : Part.tensors ∈ fp) (m_mem : Part.mem ∈ fp) (m_upd : Part.upd ∈ fp) (m_drv : Part.drv ∈ fp) (m_ports : Part.ports ∈ fp) (m_err : Part.err ∈ fp) (m_trc : Part.trc ∈ fp) (m_counters : Part.counters ∈ fp) (m_out : Part.out ∈ fp) (m_fresh : Part.fresh ∈ fp) : Same fp s₀ (State.deliver ups s m) := by
  simp only [State.deliver]
  (repeat' split) <;> simp +contextual (maxDischargeDepth := 40) [h, m_flash, m_blocks, m_regions, m_tensors, m_mem, m_upd, m_drv, m_ports, m_err, m_trc, m_counters, m_out, m_fresh]

@[simp] theorem State.retryStalled_same {s₀ s : State} {fp : List Part} (ups : Upsets) (h : Same fp s₀ s) (m_flash : Part.flash ∈ fp) (m_blocks : Part.blocks ∈ fp) (m_regions : Part.regions ∈ fp) (m_tensors : Part.tensors ∈ fp) (m_mem : Part.mem ∈ fp) (m_upd : Part.upd ∈ fp) (m_drv : Part.drv ∈ fp) (m_ports : Part.ports ∈ fp) (m_err : Part.err ∈ fp) (m_trc : Part.trc ∈ fp) (m_counters : Part.counters ∈ fp) (m_out : Part.out ∈ fp) (m_fresh : Part.fresh ∈ fp) : Same fp s₀ (State.retryStalled s ups) := by unfold State.retryStalled; simp +contextual (maxDischargeDepth := 40) [h, m_flash, m_blocks, m_regions, m_tensors, m_mem, m_upd, m_drv, m_ports, m_err, m_trc, m_counters, m_out, m_fresh]

@[simp] theorem State.foldMessage_same {s₀ s : State} {fp : List Part} (m : DMsg) (ups : Upsets) (h : Same fp s₀ s) (m_flash : Part.flash ∈ fp) (m_blocks : Part.blocks ∈ fp) (m_regions : Part.regions ∈ fp) (m_tensors : Part.tensors ∈ fp) (m_mem : Part.mem ∈ fp) (m_upd : Part.upd ∈ fp) (m_drv : Part.drv ∈ fp) (m_ports : Part.ports ∈ fp) (m_err : Part.err ∈ fp) (m_trc : Part.trc ∈ fp) (m_counters : Part.counters ∈ fp) (m_out : Part.out ∈ fp) (m_fresh : Part.fresh ∈ fp) : Same fp s₀ (State.foldMessage s m ups) := by unfold State.foldMessage; simp (maxDischargeDepth := 40) [h, m_flash, m_blocks, m_regions, m_tensors, m_mem, m_upd, m_drv, m_ports, m_err, m_trc, m_counters, m_out, m_fresh]

end Sys2Proof.Machine
end

