-- ==== Sys2Proof/Laws/FrameModule.lean ====
section
/-! SUPPORT. Frames of the beginning of a job, links, register fields, faults, verdicts, the flock, stopping and host commands. -/

namespace Sys2Proof.Machine

set_option linter.unusedSimpArgs false
set_option linter.unusedVariables false

/-! ## JobBegin -/

@[simp] theorem State.loadContents_same {s₀ s : State} {fp : List Part} (h : Same fp s₀ s) (m_blocks : Part.blocks ∈ fp) (m_tensors : Part.tensors ∈ fp) (m_mem : Part.mem ∈ fp) (m_counters : Part.counters ∈ fp) : Same fp s₀ s.loadContents := by
  simp only [State.loadContents]
  apply same_foldl _ _ _ _ h
  intro s m hs
  (repeat' split) <;> simp (maxDischargeDepth := 60) [hs, m_blocks, m_tensors, m_mem, m_counters]

@[simp] theorem State.zeroPruned_same {s₀ s : State} {fp : List Part} (h : Same fp s₀ s) (m_blocks : Part.blocks ∈ fp) (m_mem : Part.mem ∈ fp) (m_counters : Part.counters ∈ fp) : Same fp s₀ (State.zeroPruned s) := by unfold State.zeroPruned; simp +contextual (maxDischargeDepth := 40) [h, m_blocks, m_mem, m_counters]

@[simp] theorem State.emptyQueues_same {s₀ s : State} {fp : List Part} (step : Nat) (h : Same fp s₀ s) (m_regions : Part.regions ∈ fp) (m_queues : Part.queues ∈ fp) (m_ports : Part.ports ∈ fp) (m_hci : Part.hci ∈ fp) (m_eng : Part.eng ∈ fp) (m_counters : Part.counters ∈ fp) (m_out : Part.out ∈ fp) : Same fp s₀ (State.emptyQueues s step) := by unfold State.emptyQueues; simp +contextual (maxDischargeDepth := 40) [h, m_regions, m_queues, m_ports, m_hci, m_eng, m_counters, m_out]

@[simp] theorem State.refreshPart_same {s₀ s : State} {fp : List Part} (ups : Upsets) (f : Fold) (layer : Nat) (t : Nat) (c : Nat) (k : Nat) (els : List Nat) (h : Same fp s₀ s) (m_flash : Part.flash ∈ fp) (m_blocks : Part.blocks ∈ fp) (m_regions : Part.regions ∈ fp) (m_tensors : Part.tensors ∈ fp) (m_mem : Part.mem ∈ fp) (m_gov : Part.gov ∈ fp) (m_upd : Part.upd ∈ fp) (m_drv : Part.drv ∈ fp) (m_ports : Part.ports ∈ fp) (m_err : Part.err ∈ fp) (m_trc : Part.trc ∈ fp) (m_counters : Part.counters ∈ fp) (m_out : Part.out ∈ fp) (m_fresh : Part.fresh ∈ fp) : Same fp s₀ (State.refreshPart s ups f layer t c k els) := by unfold State.refreshPart; simp (maxDischargeDepth := 40) [h, m_flash, m_blocks, m_regions, m_tensors, m_mem, m_gov, m_upd, m_drv, m_ports, m_err, m_trc, m_counters, m_out, m_fresh]

@[simp] theorem State.refreshList_same {s₀ s : State} {fp : List Part} (ups : Upsets) (l : List (Nat × Nat × Nat × Nat)) (h : Same fp s₀ s) (m_flash : Part.flash ∈ fp) (m_blocks : Part.blocks ∈ fp) (m_regions : Part.regions ∈ fp) (m_tensors : Part.tensors ∈ fp) (m_mem : Part.mem ∈ fp) (m_gov : Part.gov ∈ fp) (m_upd : Part.upd ∈ fp) (m_drv : Part.drv ∈ fp) (m_ports : Part.ports ∈ fp) (m_err : Part.err ∈ fp) (m_trc : Part.trc ∈ fp) (m_counters : Part.counters ∈ fp) (m_out : Part.out ∈ fp) (m_fresh : Part.fresh ∈ fp) :
    Same fp s₀ (s.refreshList ups l) := by
  induction l generalizing s with
  | nil => simp (maxDischargeDepth := 60) +contextual [State.refreshList, h, m_flash, m_blocks, m_regions, m_tensors, m_mem, m_gov, m_upd, m_drv, m_ports, m_err, m_trc, m_counters, m_out, m_fresh]
  | cons x r ih =>
    obtain ⟨layer, t, k, done⟩ := x
    simp only [State.refreshList]
    (repeat' split) <;> simp (maxDischargeDepth := 60) +contextual [h, ih, m_flash, m_blocks, m_regions, m_tensors, m_mem, m_gov, m_upd, m_drv, m_ports, m_err, m_trc, m_counters, m_out, m_fresh]

@[simp] theorem State.refreshOpens_same {s₀ s : State} {fp : List Part} (n : Nat) (h : Same fp s₀ s) (m_tensors : Part.tensors ∈ fp) (m_upd : Part.upd ∈ fp) : Same fp s₀ (State.refreshOpens s n) := by unfold State.refreshOpens; simp +contextual (maxDischargeDepth := 40) [h, m_tensors, m_upd]

@[simp] theorem State.refreshCopies_same {s₀ s : State} {fp : List Part} (ups : Upsets) (h : Same fp s₀ s) (m_flash : Part.flash ∈ fp) (m_blocks : Part.blocks ∈ fp) (m_regions : Part.regions ∈ fp) (m_tensors : Part.tensors ∈ fp) (m_mem : Part.mem ∈ fp) (m_gov : Part.gov ∈ fp) (m_upd : Part.upd ∈ fp) (m_drv : Part.drv ∈ fp) (m_ports : Part.ports ∈ fp) (m_err : Part.err ∈ fp) (m_trc : Part.trc ∈ fp) (m_counters : Part.counters ∈ fp) (m_out : Part.out ∈ fp) (m_fresh : Part.fresh ∈ fp) : Same fp s₀ (State.refreshCopies s ups) := by unfold State.refreshCopies; simp (maxDischargeDepth := 40) [h, m_flash, m_blocks, m_regions, m_tensors, m_mem, m_gov, m_upd, m_drv, m_ports, m_err, m_trc, m_counters, m_out, m_fresh]

@[simp] theorem State.restoreOn_same {s₀ s : State} {fp : List Part} (ups : Upsets) (h : Same fp s₀ s) (m_flash : Part.flash ∈ fp) (m_blocks : Part.blocks ∈ fp) (m_regions : Part.regions ∈ fp) (m_tensors : Part.tensors ∈ fp) (m_mem : Part.mem ∈ fp) (m_gov : Part.gov ∈ fp) (m_upd : Part.upd ∈ fp) (m_drv : Part.drv ∈ fp) (m_ports : Part.ports ∈ fp) (m_err : Part.err ∈ fp) (m_trc : Part.trc ∈ fp) (m_counters : Part.counters ∈ fp) (m_out : Part.out ∈ fp) (m_fresh : Part.fresh ∈ fp) : Same fp s₀ (State.restoreOn s ups) := by
  simp only [State.restoreOn]
  (repeat' split) <;> simp +contextual (maxDischargeDepth := 40) [h, m_flash, m_blocks, m_regions, m_tensors, m_mem, m_gov, m_upd, m_drv, m_ports, m_err, m_trc, m_counters, m_out, m_fresh]

@[simp] theorem State.refreshOn_same {s₀ s : State} {fp : List Part} (ups : Upsets) (h : Same fp s₀ s) (m_flash : Part.flash ∈ fp) (m_blocks : Part.blocks ∈ fp) (m_regions : Part.regions ∈ fp) (m_tensors : Part.tensors ∈ fp) (m_mem : Part.mem ∈ fp) (m_gov : Part.gov ∈ fp) (m_upd : Part.upd ∈ fp) (m_drv : Part.drv ∈ fp) (m_ports : Part.ports ∈ fp) (m_err : Part.err ∈ fp) (m_trc : Part.trc ∈ fp) (m_counters : Part.counters ∈ fp) (m_out : Part.out ∈ fp) (m_fresh : Part.fresh ∈ fp) : Same fp s₀ (State.refreshOn s ups) := by unfold State.refreshOn; simp (maxDischargeDepth := 40) [h, m_flash, m_blocks, m_regions, m_tensors, m_mem, m_gov, m_upd, m_drv, m_ports, m_err, m_trc, m_counters, m_out, m_fresh]

@[simp] theorem State.gateAll_same {s₀ s : State} {fp : List Part} (n : Nat) (h : Same fp s₀ s) (m_queues : Part.queues ∈ fp) : Same fp s₀ (State.gateAll s n) := by unfold State.gateAll; simp (maxDischargeDepth := 40) [h, m_queues]

@[simp] theorem State.beginJob_same {s₀ s : State} {fp : List Part} (slot : Option Nat) (epoch : Nat) (ups : Upsets) (h : Same fp s₀ s) (m_glb : Part.glb ∈ fp) (m_flash : Part.flash ∈ fp) (m_blocks : Part.blocks ∈ fp) (m_regions : Part.regions ∈ fp) (m_queues : Part.queues ∈ fp) (m_tensors : Part.tensors ∈ fp) (m_mem : Part.mem ∈ fp) (m_gov : Part.gov ∈ fp) (m_upd : Part.upd ∈ fp) (m_drv : Part.drv ∈ fp) (m_ports : Part.ports ∈ fp) (m_err : Part.err ∈ fp) (m_trc : Part.trc ∈ fp) (m_counters : Part.counters ∈ fp) (m_out : Part.out ∈ fp) (m_fresh : Part.fresh ∈ fp) :
    Same fp s₀ (s.beginJob slot epoch ups) := by
  have hb : ∀ y : Block, Memory.wf y.store = true → Memory.wf (Block.begun y).store = true := fun y hy => by
    first | exact hy | rfl
  simp only [State.beginJob]
  (repeat' split) <;> simp (maxDischargeDepth := 60) +contextual [h, hb, m_glb, m_flash, m_blocks, m_regions, m_queues, m_tensors, m_mem, m_gov, m_upd, m_drv, m_ports, m_err, m_trc, m_counters, m_out, m_fresh]

/-! ## Link -/

@[simp] theorem State.bindPeer_same {s₀ s : State} {fp : List Part} (p : Nat) (h : Same fp s₀ s) (m_ports : Part.ports ∈ fp) : Same fp s₀ (State.bindPeer s p) := by
  simp only [State.bindPeer]
  (repeat' split) <;> simp +contextual (maxDischargeDepth := 40) [h, m_ports]

@[simp] theorem State.setStream_same {s₀ s : State} {fp : List Part} (k : Nat) (x : Stream) (h : Same fp s₀ s) (m_hci : Part.hci ∈ fp) : Same fp s₀ (State.setStream s k x) := by unfold State.setStream; simp (maxDischargeDepth := 40) [h, m_hci]

@[simp] theorem State.endBulk_same {s₀ s : State} {fp : List Part} (h : Same fp s₀ s) (m_ports : Part.ports ∈ fp) (m_hci : Part.hci ∈ fp) (m_eng : Part.eng ∈ fp) (m_counters : Part.counters ∈ fp) (m_out : Part.out ∈ fp) : Same fp s₀ (State.endBulk s) := by unfold State.endBulk; simp +contextual (maxDischargeDepth := 40) [h, m_ports, m_hci, m_eng, m_counters, m_out]

@[simp] theorem State.dropSession_same {s₀ s : State} {fp : List Part} (n : Nat) (h : Same fp s₀ s) (m_ports : Part.ports ∈ fp) (m_hci : Part.hci ∈ fp) (m_eng : Part.eng ∈ fp) (m_counters : Part.counters ∈ fp) (m_out : Part.out ∈ fp) : Same fp s₀ (s.dropSession n) := by
  simp only [State.dropSession]
  split
  · exact h
  · apply same_foldl
    · intro s m hs
      split <;> simp (maxDischargeDepth := 60) [hs, m_ports, m_hci, m_eng, m_counters, m_out]
    · simp (maxDischargeDepth := 60) [h, m_ports, m_hci, m_eng, m_counters, m_out]

@[simp] theorem State.endOnward_same {s₀ s : State} {fp : List Part} (p : Nat) (k : Nat) (h : Same fp s₀ s) (m_ports : Part.ports ∈ fp) (m_counters : Part.counters ∈ fp) (m_out : Part.out ∈ fp) : Same fp s₀ (State.endOnward s p k) := by
  simp only [State.endOnward]
  (repeat' split) <;> simp +contextual (maxDischargeDepth := 40) [h, m_ports, m_counters, m_out]

@[simp] theorem State.forwardingLost_same {s₀ s : State} {fp : List Part} (p : Nat) (h : Same fp s₀ s) (m_ports : Part.ports ∈ fp) (m_counters : Part.counters ∈ fp) (m_out : Part.out ∈ fp) : Same fp s₀ (State.forwardingLost s p) := by unfold State.forwardingLost; simp +contextual (maxDischargeDepth := 40) [h, m_ports, m_counters, m_out]

@[simp] theorem State.linkLost_same {s₀ s : State} {fp : List Part} (p : Nat) (h : Same fp s₀ s) (m_ports : Part.ports ∈ fp) (m_hci : Part.hci ∈ fp) (m_eng : Part.eng ∈ fp) (m_counters : Part.counters ∈ fp) (m_out : Part.out ∈ fp) : Same fp s₀ (State.linkLost s p) := by unfold State.linkLost; simp +contextual (maxDischargeDepth := 40) [h, m_ports, m_hci, m_eng, m_counters, m_out]

@[simp] theorem State.linkDown_same {s₀ s : State} {fp : List Part} (p : Nat) (detail : Nat) (h : Same fp s₀ s) (m_flash : Part.flash ∈ fp) (m_regions : Part.regions ∈ fp) (m_ports : Part.ports ∈ fp) (m_hci : Part.hci ∈ fp) (m_eng : Part.eng ∈ fp) (m_err : Part.err ∈ fp) (m_trc : Part.trc ∈ fp) (m_counters : Part.counters ∈ fp) (m_out : Part.out ∈ fp) (m_fresh : Part.fresh ∈ fp) : Same fp s₀ (State.linkDown s p detail) := by unfold State.linkDown; simp (maxDischargeDepth := 40) [h, m_flash, m_regions, m_ports, m_hci, m_eng, m_err, m_trc, m_counters, m_out, m_fresh]

@[simp] theorem State.startRetrain_same {s₀ s : State} {fp : List Part} (p : Nat) (h : Same fp s₀ s) (m_ports : Part.ports ∈ fp) (m_counters : Part.counters ∈ fp) : Same fp s₀ (State.startRetrain s p) := by unfold State.startRetrain; simp (maxDischargeDepth := 40) [h, m_ports, m_counters]

@[simp] theorem State.linkExhausted_same {s₀ s : State} {fp : List Part} (p : Nat) (h : Same fp s₀ s) (m_flash : Part.flash ∈ fp) (m_regions : Part.regions ∈ fp) (m_ports : Part.ports ∈ fp) (m_hci : Part.hci ∈ fp) (m_eng : Part.eng ∈ fp) (m_err : Part.err ∈ fp) (m_trc : Part.trc ∈ fp) (m_counters : Part.counters ∈ fp) (m_out : Part.out ∈ fp) (m_fresh : Part.fresh ∈ fp) : Same fp s₀ (State.linkExhausted s p) := by unfold State.linkExhausted; simp (maxDischargeDepth := 40) [h, m_flash, m_regions, m_ports, m_hci, m_eng, m_err, m_trc, m_counters, m_out, m_fresh]

@[simp] theorem State.resend_same {s₀ s : State} {fp : List Part} (p : Nat) (h : Same fp s₀ s) (m_flash : Part.flash ∈ fp) (m_regions : Part.regions ∈ fp) (m_ports : Part.ports ∈ fp) (m_hci : Part.hci ∈ fp) (m_eng : Part.eng ∈ fp) (m_err : Part.err ∈ fp) (m_trc : Part.trc ∈ fp) (m_counters : Part.counters ∈ fp) (m_out : Part.out ∈ fp) (m_fresh : Part.fresh ∈ fp) : Same fp s₀ (State.resend s p) := by unfold State.resend; simp (maxDischargeDepth := 40) [h, m_flash, m_regions, m_ports, m_hci, m_eng, m_err, m_trc, m_counters, m_out, m_fresh]

@[simp] theorem State.sendNak_same {s₀ s : State} {fp : List Part} (p : Nat) (h : Same fp s₀ s) (m_ports : Part.ports ∈ fp) (m_counters : Part.counters ∈ fp) (m_out : Part.out ∈ fp) : Same fp s₀ (State.sendNak s p) := by unfold State.sendNak; simp (maxDischargeDepth := 40) [h, m_ports, m_counters, m_out]

@[simp] theorem State.nakOnce_same {s₀ s : State} {fp : List Part} (p : Nat) (h : Same fp s₀ s) (m_ports : Part.ports ∈ fp) (m_counters : Part.counters ∈ fp) (m_out : Part.out ∈ fp) : Same fp s₀ (State.nakOnce s p) := by unfold State.nakOnce; simp (maxDischargeDepth := 40) [h, m_ports, m_counters, m_out]

@[simp] theorem State.owe_same {s₀ s : State} {fp : List Part} (p : Nat) (k : Nat) (h : Same fp s₀ s) (m_ports : Part.ports ∈ fp) (m_hci : Part.hci ∈ fp) : Same fp s₀ (State.owe s p k) := by
  simp only [State.owe]
  (repeat' split) <;> simp +contextual (maxDischargeDepth := 40) [h, m_ports, m_hci]

@[simp] theorem State.cutThrough_same {s₀ s : State} {fp : List Part} (p : Nat) (f : Flit) (l : List Nat) (h : Same fp s₀ s) (m_ports : Part.ports ∈ fp) (m_hci : Part.hci ∈ fp) (m_counters : Part.counters ∈ fp) (m_out : Part.out ∈ fp) : Same fp s₀ (State.cutThrough s p f l) := by unfold State.cutThrough; simp (maxDischargeDepth := 40) [h, m_ports, m_hci, m_counters, m_out]

@[simp] theorem State.takeData_same {s₀ s : State} {fp : List Part} (p : Nat) (f : Flit) (h : Same fp s₀ s) (m_ports : Part.ports ∈ fp) (m_hci : Part.hci ∈ fp) (m_counters : Part.counters ∈ fp) (m_out : Part.out ∈ fp) : Same fp s₀ (State.takeData s p f) := by
  simp only [State.takeData]
  (repeat' split) <;> simp +contextual (maxDischargeDepth := 40) [h, m_ports, m_hci, m_counters, m_out]

@[simp] theorem State.acceptBlock_same {s₀ s : State} {fp : List Part} (p : Nat) (f : Flit) (h : Same fp s₀ s) (m_ports : Part.ports ∈ fp) (m_hci : Part.hci ∈ fp) (m_counters : Part.counters ∈ fp) (m_out : Part.out ∈ fp) : Same fp s₀ (State.acceptBlock s p f) := by unfold State.acceptBlock; simp (maxDischargeDepth := 40) [h, m_ports, m_hci, m_counters, m_out]

@[simp] theorem State.linkUp_same {s₀ s : State} {fp : List Part} (p : Nat) (h0 : Hello) (h : Same fp s₀ s) (m_ports : Part.ports ∈ fp) : Same fp s₀ (State.linkUp s p h0) := by unfold State.linkUp; simp (maxDischargeDepth := 40) [h, m_ports]

@[simp] theorem State.tryUp_same {s₀ s : State} {fp : List Part} (p : Nat) (h : Same fp s₀ s) (m_ports : Part.ports ∈ fp) : Same fp s₀ (State.tryUp s p) := by
  simp only [State.tryUp]
  (repeat' split) <;> simp +contextual (maxDischargeDepth := 40) [h, m_ports]

@[simp] theorem State.onHello_same {s₀ s : State} {fp : List Part} (p : Nat) (h0 : Hello) (h : Same fp s₀ s) (m_flash : Part.flash ∈ fp) (m_regions : Part.regions ∈ fp) (m_ports : Part.ports ∈ fp) (m_hci : Part.hci ∈ fp) (m_eng : Part.eng ∈ fp) (m_err : Part.err ∈ fp) (m_trc : Part.trc ∈ fp) (m_counters : Part.counters ∈ fp) (m_out : Part.out ∈ fp) (m_fresh : Part.fresh ∈ fp) : Same fp s₀ (State.onHello s p h0) := by unfold State.onHello; simp (maxDischargeDepth := 40) [h, m_flash, m_regions, m_ports, m_hci, m_eng, m_err, m_trc, m_counters, m_out, m_fresh]

@[simp] theorem State.fecWork_same {s₀ s : State} {fp : List Part} (p : Nat) (h : Same fp s₀ s) (m_ports : Part.ports ∈ fp) (m_counters : Part.counters ∈ fp) (m_fresh : Part.fresh ∈ fp) : Same fp s₀ (State.fecWork s p) := by unfold State.fecWork; simp (maxDischargeDepth := 40) [h, m_ports, m_counters, m_fresh]

/-! ## Flags -/

@[simp] theorem State.badAccess_same {s₀ s : State} {fp : List Part} (h : Same fp s₀ s) (m_sb : Part.sb ∈ fp) : Same fp s₀ (State.badAccess s) := by unfold State.badAccess; simp (maxDischargeDepth := 40) [h, m_sb]

@[simp] theorem State.rowWrite_same {s₀ s : State} {fp : List Part} (r : RegId) (act : State → State) (h : Same fp s₀ s) (m_sb : Part.sb ∈ fp)
    (ha : ∀ t, Same fp s₀ t → Same fp s₀ (act t)) : Same fp s₀ (s.rowWrite r act) := by
  unfold State.rowWrite
  split <;> simp (maxDischargeDepth := 60) [h, ha, m_sb]

@[simp] theorem State.keepLines_same {s₀ s : State} {fp : List Part} (kinds : List Nat) (h : Same fp s₀ s) (m_cdc : Part.cdc ∈ fp) : Same fp s₀ (State.keepLines s kinds) := by unfold State.keepLines; simp (maxDischargeDepth := 40) [h, m_cdc]

@[simp] theorem State.crossDown_same {s₀ s : State} {fp : List Part} (drained : Bool) (srcs : List Nat) (h : Same fp s₀ s) (m_cdc : Part.cdc ∈ fp) (m_counters : Part.counters ∈ fp) (m_fresh : Part.fresh ∈ fp) : Same fp s₀ (State.crossDown s drained srcs) := by unfold State.crossDown; simp (maxDischargeDepth := 40) [h, m_cdc, m_counters, m_fresh]

@[simp] theorem State.crossUp_same {s₀ s : State} {fp : List Part} (srcs : List Nat) (h : Same fp s₀ s) (m_cdc : Part.cdc ∈ fp) : Same fp s₀ (State.crossUp s srcs) := by unfold State.crossUp; simp (maxDischargeDepth := 40) [h, m_cdc]

/-! ## FaultCmds -/

@[simp] theorem State.bankBands_same {s₀ s : State} {fp : List Part} (h : Same fp s₀ s) (m_mem : Part.mem ∈ fp) (m_counters : Part.counters ∈ fp) : Same fp s₀ (State.bankBands s) := by unfold State.bankBands; simp +contextual (maxDischargeDepth := 40) [h, m_mem, m_counters]

@[simp] theorem State.bankCycles_same {s₀ s : State} {fp : List Part} (h : Same fp s₀ s) (m_blocks : Part.blocks ∈ fp) (m_mem : Part.mem ∈ fp) (m_counters : Part.counters ∈ fp) : Same fp s₀ (State.bankCycles s) := by unfold State.bankCycles; simp +contextual (maxDischargeDepth := 40) [h, m_blocks, m_mem, m_counters]

@[simp] theorem State.markCycles_same {s₀ s : State} {fp : List Part} (h : Same fp s₀ s) (m_blocks : Part.blocks ∈ fp) (m_mem : Part.mem ∈ fp) : Same fp s₀ (State.markCycles s) := by unfold State.markCycles; simp (maxDischargeDepth := 40) [h, m_blocks, m_mem]

@[simp] theorem State.ageAborts_same {s₀ s : State} {fp : List Part} (h : Same fp s₀ s) (m_age : Part.age ∈ fp) : Same fp s₀ (State.ageAborts s) := by unfold State.ageAborts; simp (maxDischargeDepth := 40) [h, m_age]

@[simp] theorem State.faultCompletes_same {s₀ s : State} {fp : List Part} (code : Nat) (h : Same fp s₀ s) (m_ports : Part.ports ∈ fp) (m_hci : Part.hci ∈ fp) (m_eng : Part.eng ∈ fp) (m_counters : Part.counters ∈ fp) (m_out : Part.out ∈ fp) : Same fp s₀ (State.faultCompletes s code) := by unfold State.faultCompletes; simp (maxDischargeDepth := 40) [h, m_ports, m_hci, m_eng, m_counters, m_out]

@[simp] theorem State.enterFaulted_same {s₀ s : State} {fp : List Part} (code : Nat) (dev : Nat) (h : Same fp s₀ s) (m_glb : Part.glb ∈ fp) (m_regions : Part.regions ∈ fp) (m_upd : Part.upd ∈ fp) (m_ports : Part.ports ∈ fp) (m_hci : Part.hci ∈ fp) (m_eng : Part.eng ∈ fp) (m_err : Part.err ∈ fp) (m_age : Part.age ∈ fp) (m_trc : Part.trc ∈ fp) (m_stop : Part.stop ∈ fp) (m_counters : Part.counters ∈ fp) (m_out : Part.out ∈ fp) : Same fp s₀ (State.enterFaulted s code dev) := by unfold State.enterFaulted; simp (maxDischargeDepth := 40) [h, m_glb, m_regions, m_upd, m_ports, m_hci, m_eng, m_err, m_age, m_trc, m_stop, m_counters, m_out]

@[simp] theorem State.sendStop_same {s₀ s : State} {fp : List Part} (code : Nat) (dev : Nat) (h : Same fp s₀ s) (m_drv : Part.drv ∈ fp) (m_ports : Part.ports ∈ fp) (m_counters : Part.counters ∈ fp) (m_out : Part.out ∈ fp) : Same fp s₀ (State.sendStop s code dev) := by unfold State.sendStop; simp +contextual (maxDischargeDepth := 40) [h, m_drv, m_ports, m_counters, m_out]

@[simp] theorem State.tellManager_same {s₀ s : State} {fp : List Part} (code : Nat) (time : Nat) (h : Same fp s₀ s) (m_drv : Part.drv ∈ fp) (m_ports : Part.ports ∈ fp) (m_counters : Part.counters ∈ fp) (m_out : Part.out ∈ fp) : Same fp s₀ (State.tellManager s code time) := by unfold State.tellManager; simp (maxDischargeDepth := 40) [h, m_drv, m_ports, m_counters, m_out]

@[simp] theorem State.latchFirst_same {s₀ s : State} {fp : List Part} (x : LogEnt) (dev : Option Nat) (h : Same fp s₀ s) (m_flash : Part.flash ∈ fp) (m_regions : Part.regions ∈ fp) (m_err : Part.err ∈ fp) (m_trc : Part.trc ∈ fp) (m_counters : Part.counters ∈ fp) : Same fp s₀ (State.latchFirst s x dev) := by unfold State.latchFirst; simp (maxDischargeDepth := 40) [h, m_flash, m_regions, m_err, m_trc, m_counters]

@[simp] theorem State.memoryLost_same {s₀ s : State} {fp : List Part} (h : Same fp s₀ s) (m_mem : Part.mem ∈ fp) (m_upd : Part.upd ∈ fp) (m_eng : Part.eng ∈ fp) : Same fp s₀ (State.memoryLost s) := by unfold State.memoryLost; simp (maxDischargeDepth := 40) [h, m_mem, m_upd, m_eng]

@[simp] theorem State.railsOff_same {s₀ s : State} {fp : List Part} (h : Same fp s₀ s) (m_glb : Part.glb ∈ fp) (m_regions : Part.regions ∈ fp) (m_mem : Part.mem ∈ fp) (m_upd : Part.upd ∈ fp) (m_ports : Part.ports ∈ fp) (m_hci : Part.hci ∈ fp) (m_eng : Part.eng ∈ fp) (m_counters : Part.counters ∈ fp) (m_out : Part.out ∈ fp) : Same fp s₀ (State.railsOff s) := by unfold State.railsOff; simp +contextual (maxDischargeDepth := 40) [h, m_glb, m_regions, m_mem, m_upd, m_ports, m_hci, m_eng, m_counters, m_out]

@[simp] theorem State.watchdog_same {s₀ s : State} {fp : List Part} (detail : Nat) (h : Same fp s₀ s) (m_flash : Part.flash ∈ fp) (m_regions : Part.regions ∈ fp) (m_err : Part.err ∈ fp) (m_trc : Part.trc ∈ fp) (m_counters : Part.counters ∈ fp) (m_fresh : Part.fresh ∈ fp) : Same fp s₀ (State.watchdog s detail) := by unfold State.watchdog; simp (maxDischargeDepth := 40) [h, m_flash, m_regions, m_err, m_trc, m_counters, m_fresh]

@[simp] theorem State.markInexact_same {s₀ s : State} {fp : List Part} (source : Nat) (i : Nat) (h : Same fp s₀ s) (m_cdc : Part.cdc ∈ fp) (m_regions : Part.regions ∈ fp) : Same fp s₀ (State.markInexact s source i) := by unfold State.markInexact; simp (maxDischargeDepth := 40) [h, m_cdc, m_regions]

@[simp] theorem State.sampleLost_same {s₀ s : State} {fp : List Part} (h : Same fp s₀ s) (m_hci : Part.hci ∈ fp) (m_eng : Part.eng ∈ fp) : Same fp s₀ (State.sampleLost s) := by unfold State.sampleLost; simp (maxDischargeDepth := 40) [h, m_hci, m_eng]

/-! ## Flock -/

@[simp] theorem State.startRecord_same {s₀ s : State} {fp : List Part} (h : Same fp s₀ s) (m_flash : Part.flash ∈ fp) : Same fp s₀ (State.startRecord s) := by unfold State.startRecord; simp (maxDischargeDepth := 40) [h, m_flash]

@[simp] theorem State.startReady_same {s₀ s : State} {fp : List Part} (h : Same fp s₀ s) (m_glb : Part.glb ∈ fp) (m_flash : Part.flash ∈ fp) (m_regions : Part.regions ∈ fp) (m_ports : Part.ports ∈ fp) (m_eng : Part.eng ∈ fp) (m_age : Part.age ∈ fp) (m_counters : Part.counters ∈ fp) (m_out : Part.out ∈ fp) : Same fp s₀ (State.startReady s) := by unfold State.startReady; simp (maxDischargeDepth := 40) [h, m_glb, m_flash, m_regions, m_ports, m_eng, m_age, m_counters, m_out]

@[simp] theorem State.startFail_same {s₀ s : State} {fp : List Part} (code : Nat) (src : Nat) (ctx : Nat) (h : Same fp s₀ s) (m_glb : Part.glb ∈ fp) (m_flash : Part.flash ∈ fp) (m_regions : Part.regions ∈ fp) (m_ports : Part.ports ∈ fp) (m_eng : Part.eng ∈ fp) (m_err : Part.err ∈ fp) (m_age : Part.age ∈ fp) (m_counters : Part.counters ∈ fp) (m_out : Part.out ∈ fp) (m_fresh : Part.fresh ∈ fp) : Same fp s₀ (State.startFail s code src ctx) := by unfold State.startFail; simp (maxDischargeDepth := 40) [h, m_glb, m_flash, m_regions, m_ports, m_eng, m_err, m_age, m_counters, m_out, m_fresh]

@[simp] theorem State.launchProbes_same {s₀ s : State} {fp : List Part} (h : Same fp s₀ s) (m_drv : Part.drv ∈ fp) (m_ports : Part.ports ∈ fp) (m_counters : Part.counters ∈ fp) (m_out : Part.out ∈ fp) : Same fp s₀ (State.launchProbes s) := by unfold State.launchProbes; simp +contextual (maxDischargeDepth := 40) [h, m_drv, m_ports, m_counters, m_out]

@[simp] theorem State.sendForm_same {s₀ s : State} {fp : List Part} (l : List Nat) (h : Same fp s₀ s) (m_ports : Part.ports ∈ fp) (m_counters : Part.counters ∈ fp) (m_out : Part.out ∈ fp) : Same fp s₀ (State.sendForm s l) := by unfold State.sendForm; simp +contextual (maxDischargeDepth := 40) [h, m_ports, m_counters, m_out]

@[simp] theorem State.formDone_same {s₀ s : State} {fp : List Part} (o : Int) (h : Same fp s₀ s) (m_glb : Part.glb ∈ fp) (m_flash : Part.flash ∈ fp) (m_regions : Part.regions ∈ fp) (m_drv : Part.drv ∈ fp) (m_ports : Part.ports ∈ fp) (m_eng : Part.eng ∈ fp) (m_age : Part.age ∈ fp) (m_counters : Part.counters ∈ fp) (m_out : Part.out ∈ fp) : Same fp s₀ (State.formDone s o) := by unfold State.formDone; simp +contextual (maxDischargeDepth := 40) [h, m_glb, m_flash, m_regions, m_drv, m_ports, m_eng, m_age, m_counters, m_out]

@[simp] theorem State.formMembers_same {s₀ s : State} {fp : List Part} (o : Int) (h : Same fp s₀ s) (m_glb : Part.glb ∈ fp) (m_flash : Part.flash ∈ fp) (m_regions : Part.regions ∈ fp) (m_drv : Part.drv ∈ fp) (m_ports : Part.ports ∈ fp) (m_eng : Part.eng ∈ fp) (m_age : Part.age ∈ fp) (m_counters : Part.counters ∈ fp) (m_out : Part.out ∈ fp) : Same fp s₀ (State.formMembers s o) := by unfold State.formMembers; simp +contextual (maxDischargeDepth := 40) [h, m_glb, m_flash, m_regions, m_drv, m_ports, m_eng, m_age, m_counters, m_out]

@[simp] theorem State.probeAll_same {s₀ s : State} {fp : List Part} (l : List Nat) (phase : Nat) (h : Same fp s₀ s) (m_drv : Part.drv ∈ fp) (m_ports : Part.ports ∈ fp) (m_counters : Part.counters ∈ fp) (m_out : Part.out ∈ fp) : Same fp s₀ (State.probeAll s l phase) := by unfold State.probeAll; simp (maxDischargeDepth := 40) [h, m_drv, m_ports, m_counters, m_out]

@[simp] theorem State.formStep_same {s₀ s : State} {fp : List Part} (h : Same fp s₀ s) (m_glb : Part.glb ∈ fp) (m_flash : Part.flash ∈ fp) (m_regions : Part.regions ∈ fp) (m_drv : Part.drv ∈ fp) (m_ports : Part.ports ∈ fp) (m_eng : Part.eng ∈ fp) (m_age : Part.age ∈ fp) (m_counters : Part.counters ∈ fp) (m_out : Part.out ∈ fp) : Same fp s₀ (State.formStep s) := by
  simp only [State.formStep]
  (repeat' split) <;> simp +contextual (maxDischargeDepth := 40) [h, m_glb, m_flash, m_regions, m_drv, m_ports, m_eng, m_age, m_counters, m_out]

@[simp] theorem State.formRun_same {s₀ s : State} {fp : List Part} (n : Nat) (h : Same fp s₀ s) (m_glb : Part.glb ∈ fp) (m_flash : Part.flash ∈ fp) (m_regions : Part.regions ∈ fp) (m_drv : Part.drv ∈ fp) (m_ports : Part.ports ∈ fp) (m_eng : Part.eng ∈ fp) (m_age : Part.age ∈ fp) (m_counters : Part.counters ∈ fp) (m_out : Part.out ∈ fp) : Same fp s₀ (State.formRun n s) := by
  induction n generalizing s with
  | zero => exact h
  | succ n ih => exact ih (by simp (maxDischargeDepth := 60) [h, m_glb, m_flash, m_regions, m_drv, m_ports, m_eng, m_age, m_counters, m_out])

@[simp] theorem State.darkPort_same {s₀ s : State} {fp : List Part} (p : Nat) (h : Same fp s₀ s) (m_flash : Part.flash ∈ fp) (m_regions : Part.regions ∈ fp) (m_ports : Part.ports ∈ fp) (m_err : Part.err ∈ fp) (m_trc : Part.trc ∈ fp) (m_counters : Part.counters ∈ fp) (m_fresh : Part.fresh ∈ fp) : Same fp s₀ (State.darkPort s p) := by unfold State.darkPort; simp (maxDischargeDepth := 40) [h, m_flash, m_regions, m_ports, m_err, m_trc, m_counters, m_fresh]

@[simp] theorem State.formFails_same {s₀ s : State} {fp : List Part} (code : Nat) (ctx : Nat) (h : Same fp s₀ s) (m_glb : Part.glb ∈ fp) (m_flash : Part.flash ∈ fp) (m_regions : Part.regions ∈ fp) (m_drv : Part.drv ∈ fp) (m_ports : Part.ports ∈ fp) (m_eng : Part.eng ∈ fp) (m_err : Part.err ∈ fp) (m_age : Part.age ∈ fp) (m_counters : Part.counters ∈ fp) (m_out : Part.out ∈ fp) (m_fresh : Part.fresh ∈ fp) : Same fp s₀ (State.formFails s code ctx) := by unfold State.formFails; simp (maxDischargeDepth := 40) [h, m_glb, m_flash, m_regions, m_drv, m_ports, m_eng, m_err, m_age, m_counters, m_out, m_fresh]

@[simp] theorem State.takeStop_same {s₀ s : State} {fp : List Part} (code : Nat) (dev : Nat) (h : Same fp s₀ s) (m_glb : Part.glb ∈ fp) (m_regions : Part.regions ∈ fp) (m_upd : Part.upd ∈ fp) (m_ports : Part.ports ∈ fp) (m_hci : Part.hci ∈ fp) (m_eng : Part.eng ∈ fp) (m_err : Part.err ∈ fp) (m_age : Part.age ∈ fp) (m_trc : Part.trc ∈ fp) (m_stop : Part.stop ∈ fp) (m_counters : Part.counters ∈ fp) (m_out : Part.out ∈ fp) (m_fresh : Part.fresh ∈ fp) : Same fp s₀ (State.takeStop s code dev) := by unfold State.takeStop; simp (maxDischargeDepth := 40) [h, m_glb, m_regions, m_upd, m_ports, m_hci, m_eng, m_err, m_age, m_trc, m_stop, m_counters, m_out, m_fresh]

@[simp] theorem State.restartHere_same {s₀ s : State} {fp : List Part} (slot : Nat) (epoch : Nat) (ups : Upsets) (h : Same fp s₀ s) (m_glb : Part.glb ∈ fp) (m_cdc : Part.cdc ∈ fp) (m_flash : Part.flash ∈ fp) (m_blocks : Part.blocks ∈ fp) (m_regions : Part.regions ∈ fp) (m_queues : Part.queues ∈ fp) (m_tensors : Part.tensors ∈ fp) (m_mem : Part.mem ∈ fp) (m_gov : Part.gov ∈ fp) (m_upd : Part.upd ∈ fp) (m_drv : Part.drv ∈ fp) (m_ports : Part.ports ∈ fp) (m_hci : Part.hci ∈ fp) (m_eng : Part.eng ∈ fp) (m_err : Part.err ∈ fp) (m_age : Part.age ∈ fp) (m_trc : Part.trc ∈ fp) (m_stop : Part.stop ∈ fp) (m_counters : Part.counters ∈ fp) (m_out : Part.out ∈ fp) (m_fresh : Part.fresh ∈ fp) : Same fp s₀ ((State.restartHere s slot epoch ups).1) := by
  simp only [State.restartHere]
  (repeat' split) <;> simp +contextual (maxDischargeDepth := 40) [h, m_glb, m_cdc, m_flash, m_blocks, m_regions, m_queues, m_tensors, m_mem, m_gov, m_upd, m_drv, m_ports, m_hci, m_eng, m_err, m_age, m_trc, m_stop, m_counters, m_out, m_fresh]

@[simp] theorem State.restartFails_same {s₀ s : State} {fp : List Part} (h : Same fp s₀ s) (m_glb : Part.glb ∈ fp) (m_regions : Part.regions ∈ fp) (m_upd : Part.upd ∈ fp) (m_drv : Part.drv ∈ fp) (m_ports : Part.ports ∈ fp) (m_hci : Part.hci ∈ fp) (m_eng : Part.eng ∈ fp) (m_err : Part.err ∈ fp) (m_age : Part.age ∈ fp) (m_trc : Part.trc ∈ fp) (m_stop : Part.stop ∈ fp) (m_counters : Part.counters ∈ fp) (m_out : Part.out ∈ fp) : Same fp s₀ (State.restartFails s) := by unfold State.restartFails; simp (maxDischargeDepth := 40) [h, m_glb, m_regions, m_upd, m_drv, m_ports, m_hci, m_eng, m_err, m_age, m_trc, m_stop, m_counters, m_out]

@[simp] theorem State.restartAck_same {s₀ s : State} {fp : List Part} (dev : Nat) (result : Nat) (h : Same fp s₀ s) (m_glb : Part.glb ∈ fp) (m_regions : Part.regions ∈ fp) (m_upd : Part.upd ∈ fp) (m_drv : Part.drv ∈ fp) (m_ports : Part.ports ∈ fp) (m_hci : Part.hci ∈ fp) (m_eng : Part.eng ∈ fp) (m_err : Part.err ∈ fp) (m_age : Part.age ∈ fp) (m_trc : Part.trc ∈ fp) (m_stop : Part.stop ∈ fp) (m_counters : Part.counters ∈ fp) (m_out : Part.out ∈ fp) : Same fp s₀ (State.restartAck s dev result) := by unfold State.restartAck; simp (maxDischargeDepth := 40) [h, m_glb, m_regions, m_upd, m_drv, m_ports, m_hci, m_eng, m_err, m_age, m_trc, m_stop, m_counters, m_out]

@[simp] theorem State.managerRestart_same {s₀ s : State} {fp : List Part} (slot : Nat) (epoch : Nat) (ups : Upsets) (h : Same fp s₀ s) (m_glb : Part.glb ∈ fp) (m_cdc : Part.cdc ∈ fp) (m_flash : Part.flash ∈ fp) (m_blocks : Part.blocks ∈ fp) (m_regions : Part.regions ∈ fp) (m_queues : Part.queues ∈ fp) (m_tensors : Part.tensors ∈ fp) (m_mem : Part.mem ∈ fp) (m_gov : Part.gov ∈ fp) (m_upd : Part.upd ∈ fp) (m_drv : Part.drv ∈ fp) (m_ports : Part.ports ∈ fp) (m_hci : Part.hci ∈ fp) (m_eng : Part.eng ∈ fp) (m_err : Part.err ∈ fp) (m_age : Part.age ∈ fp) (m_trc : Part.trc ∈ fp) (m_stop : Part.stop ∈ fp) (m_counters : Part.counters ∈ fp) (m_out : Part.out ∈ fp) (m_fresh : Part.fresh ∈ fp) : Same fp s₀ (State.managerRestart s slot epoch ups) := by unfold State.managerRestart; simp (maxDischargeDepth := 40) [h, m_glb, m_cdc, m_flash, m_blocks, m_regions, m_queues, m_tensors, m_mem, m_gov, m_upd, m_drv, m_ports, m_hci, m_eng, m_err, m_age, m_trc, m_stop, m_counters, m_out, m_fresh]

/-! ## StopJob -/

@[simp] theorem State.stopStages_same {s₀ s : State} {fp : List Part} (h : Same fp s₀ s) (m_regions : Part.regions ∈ fp) (m_queues : Part.queues ∈ fp) (m_counters : Part.counters ∈ fp) : Same fp s₀ (State.stopStages s) := by unfold State.stopStages; simp +contextual (maxDischargeDepth := 40) [h, m_regions, m_queues, m_counters]

@[simp] theorem State.sendMarkers_same {s₀ s : State} {fp : List Part} (round : Nat) (h : Same fp s₀ s) (m_ports : Part.ports ∈ fp) (m_stop : Part.stop ∈ fp) (m_counters : Part.counters ∈ fp) (m_out : Part.out ∈ fp) : Same fp s₀ (State.sendMarkers s round) := by
  simp only [State.sendMarkers]
  (repeat' split) <;> simp +contextual (maxDischargeDepth := 40) [h, m_ports, m_stop, m_counters, m_out]

@[simp] theorem State.cutRecords_same {s₀ s : State} {fp : List Part} (r : Nat) (l : List TRec) (h : Same fp s₀ s) (m_regions : Part.regions ∈ fp) (m_trc : Part.trc ∈ fp) (m_counters : Part.counters ∈ fp) : Same fp s₀ (State.cutRecords s r l) := by unfold State.cutRecords; simp +contextual (maxDischargeDepth := 40) [h, m_regions, m_trc, m_counters]

@[simp] theorem State.pauseCut_same {s₀ s : State} {fp : List Part} (h : Same fp s₀ s) (m_glb : Part.glb ∈ fp) (m_regions : Part.regions ∈ fp) (m_ports : Part.ports ∈ fp) (m_hci : Part.hci ∈ fp) (m_eng : Part.eng ∈ fp) (m_age : Part.age ∈ fp) (m_trc : Part.trc ∈ fp) (m_stop : Part.stop ∈ fp) (m_counters : Part.counters ∈ fp) (m_out : Part.out ∈ fp) : Same fp s₀ (State.pauseCut s) := by unfold State.pauseCut; simp (maxDischargeDepth := 40) [h, m_glb, m_regions, m_ports, m_hci, m_eng, m_age, m_trc, m_stop, m_counters, m_out]

@[simp] theorem State.tryRounds_same {s₀ s : State} {fp : List Part} (n : Nat) (h : Same fp s₀ s) (m_glb : Part.glb ∈ fp) (m_regions : Part.regions ∈ fp) (m_ports : Part.ports ∈ fp) (m_hci : Part.hci ∈ fp) (m_eng : Part.eng ∈ fp) (m_age : Part.age ∈ fp) (m_trc : Part.trc ∈ fp) (m_stop : Part.stop ∈ fp) (m_counters : Part.counters ∈ fp) (m_out : Part.out ∈ fp) : Same fp s₀ (s.tryRounds n) := by
  induction n generalizing s with
  | zero => exact h
  | succ n ih =>
    simp only [State.tryRounds]
    (repeat' split) <;> simp (maxDischargeDepth := 60) [h, m_glb, m_regions, m_ports, m_hci, m_eng, m_age, m_trc, m_stop, m_counters, m_out, ih]

@[simp] theorem State.pauseId_same {s₀ s : State} {fp : List Part} (id : Nat × Nat) (h : Same fp s₀ s) (m_ports : Part.ports ∈ fp) (m_stop : Part.stop ∈ fp) : Same fp s₀ (State.pauseId s id) := by unfold State.pauseId; simp (maxDischargeDepth := 40) [h, m_ports, m_stop]

@[simp] theorem State.learnPause_same {s₀ s : State} {fp : List Part} (id : Nat × Nat) (h : Same fp s₀ s) (m_glb : Part.glb ∈ fp) (m_regions : Part.regions ∈ fp) (m_queues : Part.queues ∈ fp) (m_ports : Part.ports ∈ fp) (m_hci : Part.hci ∈ fp) (m_eng : Part.eng ∈ fp) (m_age : Part.age ∈ fp) (m_trc : Part.trc ∈ fp) (m_stop : Part.stop ∈ fp) (m_counters : Part.counters ∈ fp) (m_out : Part.out ∈ fp) : Same fp s₀ (State.learnPause s id) := by unfold State.learnPause; simp (maxDischargeDepth := 40) [h, m_glb, m_regions, m_queues, m_ports, m_hci, m_eng, m_age, m_trc, m_stop, m_counters, m_out]

@[simp] theorem State.abortAll_same {s₀ s : State} {fp : List Part} (h : Same fp s₀ s) (m_ports : Part.ports ∈ fp) (m_counters : Part.counters ∈ fp) (m_out : Part.out ∈ fp) : Same fp s₀ (State.abortAll s) := by unfold State.abortAll; simp +contextual (maxDischargeDepth := 40) [h, m_ports, m_counters, m_out]

@[simp] theorem State.haltNow_same {s₀ s : State} {fp : List Part} (dev : Nat) (handle : Nat) (h : Same fp s₀ s) (m_glb : Part.glb ∈ fp) (m_regions : Part.regions ∈ fp) (m_ports : Part.ports ∈ fp) (m_hci : Part.hci ∈ fp) (m_eng : Part.eng ∈ fp) (m_age : Part.age ∈ fp) (m_trc : Part.trc ∈ fp) (m_stop : Part.stop ∈ fp) (m_counters : Part.counters ∈ fp) (m_out : Part.out ∈ fp) : Same fp s₀ (State.haltNow s dev handle) := by unfold State.haltNow; simp (maxDischargeDepth := 40) [h, m_glb, m_regions, m_ports, m_hci, m_eng, m_age, m_trc, m_stop, m_counters, m_out]

@[simp] theorem State.restartTimers_same {s₀ s : State} {fp : List Part} (h : Same fp s₀ s) (m_drv : Part.drv ∈ fp) : Same fp s₀ (State.restartTimers s) := by unfold State.restartTimers; simp (maxDischargeDepth := 40) [h, m_drv]

@[simp] theorem State.dropPause_same {s₀ s : State} {fp : List Part} (h : Same fp s₀ s) (m_ports : Part.ports ∈ fp) (m_stop : Part.stop ∈ fp) : Same fp s₀ (State.dropPause s) := by unfold State.dropPause; simp (maxDischargeDepth := 40) [h, m_ports, m_stop]

@[simp] theorem State.goOn_same {s₀ s : State} {fp : List Part} (h : Same fp s₀ s) (m_flash : Part.flash ∈ fp) (m_blocks : Part.blocks ∈ fp) (m_regions : Part.regions ∈ fp) (m_queues : Part.queues ∈ fp) (m_tensors : Part.tensors ∈ fp) (m_mem : Part.mem ∈ fp) (m_gov : Part.gov ∈ fp) (m_upd : Part.upd ∈ fp) (m_drv : Part.drv ∈ fp) (m_ports : Part.ports ∈ fp) (m_eng : Part.eng ∈ fp) (m_err : Part.err ∈ fp) (m_trc : Part.trc ∈ fp) (m_counters : Part.counters ∈ fp) (m_out : Part.out ∈ fp) (m_fresh : Part.fresh ∈ fp) : Same fp s₀ (State.goOn s) := by unfold State.goOn; simp +contextual (maxDischargeDepth := 40) [h, m_flash, m_blocks, m_regions, m_queues, m_tensors, m_mem, m_gov, m_upd, m_drv, m_ports, m_eng, m_err, m_trc, m_counters, m_out, m_fresh]

@[simp] theorem State.resumeNow_same {s₀ s : State} {fp : List Part} (h : Same fp s₀ s) (m_glb : Part.glb ∈ fp) (m_flash : Part.flash ∈ fp) (m_blocks : Part.blocks ∈ fp) (m_regions : Part.regions ∈ fp) (m_queues : Part.queues ∈ fp) (m_tensors : Part.tensors ∈ fp) (m_mem : Part.mem ∈ fp) (m_gov : Part.gov ∈ fp) (m_upd : Part.upd ∈ fp) (m_drv : Part.drv ∈ fp) (m_ports : Part.ports ∈ fp) (m_hci : Part.hci ∈ fp) (m_eng : Part.eng ∈ fp) (m_err : Part.err ∈ fp) (m_age : Part.age ∈ fp) (m_trc : Part.trc ∈ fp) (m_stop : Part.stop ∈ fp) (m_counters : Part.counters ∈ fp) (m_out : Part.out ∈ fp) (m_fresh : Part.fresh ∈ fp) : Same fp s₀ (State.resumeNow s) := by unfold State.resumeNow; simp (maxDischargeDepth := 40) [h, m_glb, m_flash, m_blocks, m_regions, m_queues, m_tensors, m_mem, m_gov, m_upd, m_drv, m_ports, m_hci, m_eng, m_err, m_age, m_trc, m_stop, m_counters, m_out, m_fresh]

@[simp] theorem State.stopAct_same {s₀ s : State} {fp : List Part} (action : Nat) (dev : Nat) (handle : Nat) (h : Same fp s₀ s) (m_glb : Part.glb ∈ fp) (m_flash : Part.flash ∈ fp) (m_blocks : Part.blocks ∈ fp) (m_regions : Part.regions ∈ fp) (m_queues : Part.queues ∈ fp) (m_tensors : Part.tensors ∈ fp) (m_mem : Part.mem ∈ fp) (m_gov : Part.gov ∈ fp) (m_upd : Part.upd ∈ fp) (m_drv : Part.drv ∈ fp) (m_ports : Part.ports ∈ fp) (m_hci : Part.hci ∈ fp) (m_eng : Part.eng ∈ fp) (m_err : Part.err ∈ fp) (m_age : Part.age ∈ fp) (m_trc : Part.trc ∈ fp) (m_stop : Part.stop ∈ fp) (m_counters : Part.counters ∈ fp) (m_out : Part.out ∈ fp) (m_fresh : Part.fresh ∈ fp) : Same fp s₀ (State.stopAct s action dev handle) := by
  simp only [State.stopAct]
  (repeat' split) <;> simp +contextual (maxDischargeDepth := 40) [h, m_glb, m_flash, m_blocks, m_regions, m_queues, m_tensors, m_mem, m_gov, m_upd, m_drv, m_ports, m_hci, m_eng, m_err, m_age, m_trc, m_stop, m_counters, m_out, m_fresh]

@[simp] theorem State.stopRequest_same {s₀ s : State} {fp : List Part} (from' : Option Nat) (action : Nat) (dev : Nat) (handle : Nat) (time : Nat) (h : Same fp s₀ s) (m_glb : Part.glb ∈ fp) (m_flash : Part.flash ∈ fp) (m_blocks : Part.blocks ∈ fp) (m_regions : Part.regions ∈ fp) (m_queues : Part.queues ∈ fp) (m_tensors : Part.tensors ∈ fp) (m_mem : Part.mem ∈ fp) (m_gov : Part.gov ∈ fp) (m_upd : Part.upd ∈ fp) (m_drv : Part.drv ∈ fp) (m_ports : Part.ports ∈ fp) (m_hci : Part.hci ∈ fp) (m_eng : Part.eng ∈ fp) (m_err : Part.err ∈ fp) (m_age : Part.age ∈ fp) (m_trc : Part.trc ∈ fp) (m_stop : Part.stop ∈ fp) (m_counters : Part.counters ∈ fp) (m_out : Part.out ∈ fp) (m_fresh : Part.fresh ∈ fp) : Same fp s₀ (State.stopRequest s from' action dev handle time) := by unfold State.stopRequest; simp (maxDischargeDepth := 40) [h, m_glb, m_flash, m_blocks, m_regions, m_queues, m_tensors, m_mem, m_gov, m_upd, m_drv, m_ports, m_hci, m_eng, m_err, m_age, m_trc, m_stop, m_counters, m_out, m_fresh]

@[simp] theorem State.endJob_same {s₀ s : State} {fp : List Part} (h : Same fp s₀ s) (m_glb : Part.glb ∈ fp) (m_regions : Part.regions ∈ fp) (m_queues : Part.queues ∈ fp) (m_gov : Part.gov ∈ fp) (m_upd : Part.upd ∈ fp) (m_drv : Part.drv ∈ fp) (m_ports : Part.ports ∈ fp) (m_hci : Part.hci ∈ fp) (m_eng : Part.eng ∈ fp) (m_err : Part.err ∈ fp) (m_age : Part.age ∈ fp) (m_stop : Part.stop ∈ fp) (m_counters : Part.counters ∈ fp) (m_out : Part.out ∈ fp) : Same fp s₀ (State.endJob s) := by unfold State.endJob; simp (maxDischargeDepth := 40) [h, m_glb, m_regions, m_queues, m_gov, m_upd, m_drv, m_ports, m_hci, m_eng, m_err, m_age, m_stop, m_counters, m_out]

/-! ## Observe -/

@[simp] theorem State.strobesMarked_same {s₀ s : State} {fp : List Part} (l : List (Nat × Nat)) (h : Same fp s₀ s) (m_cdc : Part.cdc ∈ fp) : Same fp s₀ (State.strobesMarked s l) := by unfold State.strobesMarked; simp (maxDischargeDepth := 40) [h, m_cdc]

@[simp] theorem State.sendData_same {s₀ s : State} {fp : List Part} (h0 : Hnd) (vc : Nat) (l : List (List Byte)) (result : List Byte) (h : Same fp s₀ s) (m_ports : Part.ports ∈ fp) (m_hci : Part.hci ∈ fp) (m_eng : Part.eng ∈ fp) (m_counters : Part.counters ∈ fp) (m_out : Part.out ∈ fp) : Same fp s₀ (State.sendData s h0 vc l result) := by unfold State.sendData; simp (maxDischargeDepth := 40) [h, m_ports, m_hci, m_eng, m_counters, m_out]

@[simp] theorem State.freezeArmed_same {s₀ s : State} {fp : List Part} (mask : Nat) (h : Same fp s₀ s) (m_regions : Part.regions ∈ fp) : Same fp s₀ (State.freezeArmed s mask) := by unfold State.freezeArmed; simp (maxDischargeDepth := 40) [h, m_regions]

@[simp] theorem State.force_same {s₀ s : State} {fp : List Part} (h : Same fp s₀ s) (m_regions : Part.regions ∈ fp) (m_trc : Part.trc ∈ fp) (m_counters : Part.counters ∈ fp) : Same fp s₀ (State.force s) := by unfold State.force; simp (maxDischargeDepth := 40) [h, m_regions, m_trc, m_counters]

@[simp] theorem State.disarm_same {s₀ s : State} {fp : List Part} (h : Same fp s₀ s) (m_regions : Part.regions ∈ fp) : Same fp s₀ (State.disarm s) := by unfold State.disarm; simp (maxDischargeDepth := 40) [h, m_regions]

/-! ## Host -/

@[simp] theorem State.writeSlot_same {s₀ s : State} {fp : List Part} (h0 : Hnd) (ups : Upsets) (h : Same fp s₀ s) (m_glb : Part.glb ∈ fp) (m_flash : Part.flash ∈ fp) (m_regions : Part.regions ∈ fp) (m_mem : Part.mem ∈ fp) (m_upd : Part.upd ∈ fp) (m_ports : Part.ports ∈ fp) (m_hci : Part.hci ∈ fp) (m_eng : Part.eng ∈ fp) (m_err : Part.err ∈ fp) (m_trc : Part.trc ∈ fp) (m_counters : Part.counters ∈ fp) (m_out : Part.out ∈ fp) (m_fresh : Part.fresh ∈ fp) : Same fp s₀ (State.writeSlot s h0 ups) := by unfold State.writeSlot; simp (maxDischargeDepth := 40) [h, m_glb, m_flash, m_regions, m_mem, m_upd, m_ports, m_hci, m_eng, m_err, m_trc, m_counters, m_out, m_fresh]

@[simp] theorem State.keepChunk_same {s₀ s : State} {fp : List Part} (src : Nat) (index : Nat) (count : Nat) (len : Nat) (crc : Nat) (data : List Byte) (ups : Upsets) (h : Same fp s₀ s) (m_flash : Part.flash ∈ fp) (m_regions : Part.regions ∈ fp) (m_mem : Part.mem ∈ fp) (m_upd : Part.upd ∈ fp) (m_err : Part.err ∈ fp) (m_trc : Part.trc ∈ fp) (m_counters : Part.counters ∈ fp) (m_fresh : Part.fresh ∈ fp) : Same fp s₀ (State.keepChunk s src index count len crc data ups) := by unfold State.keepChunk; simp (maxDischargeDepth := 40) [h, m_flash, m_regions, m_mem, m_upd, m_err, m_trc, m_counters, m_fresh]

@[simp] theorem State.cutOwn_same {s₀ s : State} {fp : List Part} (p : Nat) (k : Nat) (handle : Nat) (h : Same fp s₀ s) (m_ports : Part.ports ∈ fp) (m_counters : Part.counters ∈ fp) (m_out : Part.out ∈ fp) : Same fp s₀ (State.cutOwn s p k handle) := by unfold State.cutOwn; simp (maxDischargeDepth := 40) [h, m_ports, m_counters, m_out]

theorem State.abortNow_same {s₀ s t : State} {fp : List Part} (x : Hnd) (h : Same fp s₀ s) (m_glb : Part.glb ∈ fp) (m_flash : Part.flash ∈ fp) (m_blocks : Part.blocks ∈ fp) (m_regions : Part.regions ∈ fp) (m_queues : Part.queues ∈ fp) (m_tensors : Part.tensors ∈ fp) (m_mem : Part.mem ∈ fp) (m_gov : Part.gov ∈ fp) (m_upd : Part.upd ∈ fp) (m_drv : Part.drv ∈ fp) (m_ports : Part.ports ∈ fp) (m_hci : Part.hci ∈ fp) (m_pwr : Part.pwr ∈ fp) (m_eng : Part.eng ∈ fp) (m_err : Part.err ∈ fp) (m_age : Part.age ∈ fp) (m_trc : Part.trc ∈ fp) (m_stop : Part.stop ∈ fp) (m_counters : Part.counters ∈ fp) (m_out : Part.out ∈ fp) (m_fresh : Part.fresh ∈ fp) (e : s.abortNow x = some t) : Same fp s₀ t := by
  simp only [State.abortNow] at e
  (repeat' split at e) <;> simp only [Option.some.injEq, reduceCtorEq] at e <;> subst e <;> simp (maxDischargeDepth := 60) [h, m_glb, m_flash, m_blocks, m_regions, m_queues, m_tensors, m_mem, m_gov, m_upd, m_drv, m_ports, m_hci, m_pwr, m_eng, m_err, m_age, m_trc, m_stop, m_counters, m_out, m_fresh]

end Sys2Proof.Machine
end

