-- ==== Sys2Proof/Laws/FrameParts.lean ====
section
/-! SUPPORT. Frames of energy, ageing, the array, loading, start-up, registers, power, sideband, board, memory and vector operations. -/

namespace Sys2Proof.Machine

set_option linter.unusedSimpArgs false
set_option linter.unusedVariables false

/-! ## Energy -/

@[simp] theorem State.signNext_same {s₀ s : State} {fp : List Part} (h : Same fp s₀ s) (m_eng : Part.eng ∈ fp) : Same fp s₀ (State.signNext s) := by
  simp only [State.signNext]
  (repeat' split) <;> simp +contextual (maxDischargeDepth := 40) [h, m_eng]

@[simp] theorem State.signAll_same {s₀ s : State} {fp : List Part} (n : Nat) (h : Same fp s₀ s) (m_eng : Part.eng ∈ fp) : Same fp s₀ (s.signAll n) := by
  induction n generalizing s with
  | zero => exact h
  | succ n ih => exact ih (by simp (maxDischargeDepth := 60) [h, m_eng])

@[simp] theorem State.saveHead_same {s₀ s : State} {fp : List Part} (h : Same fp s₀ s) (m_flash : Part.flash ∈ fp) (m_eng : Part.eng ∈ fp) : Same fp s₀ (State.saveHead s) := by unfold State.saveHead; simp (maxDischargeDepth := 40) [h, m_flash, m_eng]

@[simp] theorem State.genesis_same {s₀ s : State} {fp : List Part} (h : Same fp s₀ s) (m_eng : Part.eng ∈ fp) : Same fp s₀ (State.genesis s) := by unfold State.genesis; simp (maxDischargeDepth := 40) [h, m_eng]

@[simp] theorem State.signFlock_same {s₀ s : State} {fp : List Part} (h : Same fp s₀ s) (m_eng : Part.eng ∈ fp) : Same fp s₀ (State.signFlock s) := by unfold State.signFlock; simp (maxDischargeDepth := 40) [h, m_eng]

@[simp] theorem State.clearFlock_same {s₀ s : State} {fp : List Part} (h : Same fp s₀ s) (m_eng : Part.eng ∈ fp) : Same fp s₀ (State.clearFlock s) := by unfold State.clearFlock; simp (maxDischargeDepth := 40) [h, m_eng]

@[simp] theorem State.stageAppend_same {s₀ s : State} {fp : List Part} (v : Nat) (h : Same fp s₀ s) (m_eng : Part.eng ∈ fp) : Same fp s₀ (State.stageAppend s v) := by unfold State.stageAppend; simp (maxDischargeDepth := 40) [h, m_eng]

/-! ## Ageing -/

@[simp] theorem State.planBlock_same {s₀ s : State} {fp : List Part} (r : AgeRead) (h : Same fp s₀ s) (m_flash : Part.flash ∈ fp) (m_blocks : Part.blocks ∈ fp) (m_regions : Part.regions ∈ fp) (m_err : Part.err ∈ fp) (m_trc : Part.trc ∈ fp) (m_counters : Part.counters ∈ fp) (m_fresh : Part.fresh ∈ fp) : Same fp s₀ (State.planBlock s r) := by unfold State.planBlock; simp (maxDischargeDepth := 40) [h, m_flash, m_blocks, m_regions, m_err, m_trc, m_counters, m_fresh]

@[simp] theorem State.ageEnds_same {s₀ s : State} {fp : List Part} (reads : List AgeRead) (h : Same fp s₀ s) (m_flash : Part.flash ∈ fp) (m_blocks : Part.blocks ∈ fp) (m_regions : Part.regions ∈ fp) (m_mem : Part.mem ∈ fp) (m_err : Part.err ∈ fp) (m_age : Part.age ∈ fp) (m_trc : Part.trc ∈ fp) (m_counters : Part.counters ∈ fp) (m_fresh : Part.fresh ∈ fp) : Same fp s₀ (State.ageEnds s reads) := by unfold State.ageEnds; simp +contextual (maxDischargeDepth := 40) [h, m_flash, m_blocks, m_regions, m_mem, m_err, m_age, m_trc, m_counters, m_fresh]

@[simp] theorem State.ageDue_same {s₀ s : State} {fp : List Part} (h : Same fp s₀ s) (m_age : Part.age ∈ fp) : Same fp s₀ (State.ageDue s) := by unfold State.ageDue; simp (maxDischargeDepth := 40) [h, m_age]

@[simp] theorem State.ageNow_same {s₀ s : State} {fp : List Part} (h : Same fp s₀ s) (m_age : Part.age ∈ fp) : Same fp s₀ (State.ageNow s) := by unfold State.ageNow; simp (maxDischargeDepth := 40) [h, m_age]

@[simp] theorem State.writeSummary_same {s₀ s : State} {fp : List Part} (h : Same fp s₀ s) (m_flash : Part.flash ∈ fp) (m_age : Part.age ∈ fp) : Same fp s₀ (State.writeSummary s) := by unfold State.writeSummary; simp (maxDischargeDepth := 40) [h, m_flash, m_age]

@[simp] theorem State.loadSummary_same {s₀ s : State} {fp : List Part} (h : Same fp s₀ s) (m_err : Part.err ∈ fp) (m_age : Part.age ∈ fp) : Same fp s₀ (State.loadSummary s) := by
  simp only [State.loadSummary]
  (repeat' split) <;> simp +contextual (maxDischargeDepth := 40) [h, m_err, m_age]

@[simp] theorem State.tick_same {s₀ s : State} {fp : List Part} (h : Same fp s₀ s) (m_board : Part.board ∈ fp) (m_age : Part.age ∈ fp) : Same fp s₀ (State.tick s) := by unfold State.tick; simp (maxDischargeDepth := 40) [h, m_board, m_age]

/-! ## Array -/

@[simp] theorem State.tableFaults_same {s₀ s : State} {fp : List Part} (c : Ctx) (hits : List TableHit) (h : Same fp s₀ s) (m_flash : Part.flash ∈ fp) (m_blocks : Part.blocks ∈ fp) (m_regions : Part.regions ∈ fp) (m_err : Part.err ∈ fp) (m_trc : Part.trc ∈ fp) (m_counters : Part.counters ∈ fp) (m_fresh : Part.fresh ∈ fp) : Same fp s₀ (State.tableFaults s c hits) := by unfold State.tableFaults; simp +contextual (maxDischargeDepth := 40) [h, m_flash, m_blocks, m_regions, m_err, m_trc, m_counters, m_fresh]

@[simp] theorem State.noteCycles_same {s₀ s : State} {fp : List Part} (c : Ctx) (cyc : Nat) (h : Same fp s₀ s) (m_blocks : Part.blocks ∈ fp) : Same fp s₀ (State.noteCycles s c cyc) := by unfold State.noteCycles; simp (maxDischargeDepth := 40) [h, m_blocks]

@[simp] theorem arrayRun_same {s₀ s : State} {fp : List Part} (lay : State → Ctx → Lay) (ups : Upsets) (c : Ctx) (h : Same fp s₀ s) (m_flash : Part.flash ∈ fp) (m_blocks : Part.blocks ∈ fp) (m_regions : Part.regions ∈ fp) (m_tensors : Part.tensors ∈ fp) (m_mem : Part.mem ∈ fp) (m_err : Part.err ∈ fp) (m_trc : Part.trc ∈ fp) (m_counters : Part.counters ∈ fp) (m_fresh : Part.fresh ∈ fp) : Same fp s₀ ((arrayRun lay ups c s).s) := by unfold arrayRun; simp (maxDischargeDepth := 40) [h, m_flash, m_blocks, m_regions, m_tensors, m_mem, m_err, m_trc, m_counters, m_fresh]

/-! ## Load -/

@[simp] theorem State.acceptJob_same {s₀ s : State} {fp : List Part} (h : Same fp s₀ s) (m_glb : Part.glb ∈ fp) (m_job : Part.job ∈ fp) : Same fp s₀ (State.acceptJob s) := by unfold State.acceptJob; simp (maxDischargeDepth := 40) [h, m_glb, m_job]

/-! ## Start -/

theorem Ordered.andThen_same {s₀ : State} {fp : List Part} {x : Ordered} (n : Nat) (f : State → Ordered) (h : Same fp s₀ x.s) (m_glb : Part.glb ∈ fp) (hf : ∀ t, Same fp s₀ t → Same fp s₀ (f t).s) :
    Same fp s₀ (x.andThen n f).s := by
  unfold Ordered.andThen
  split
  · exact h
  · exact hf _ (by simp (maxDischargeDepth := 60) [h, m_glb])

@[simp] theorem State.startBegins_same {s₀ s : State} {fp : List Part} (h : Same fp s₀ s) (m_board : Part.board ∈ fp) (m_glb : Part.glb ∈ fp) (m_regions : Part.regions ∈ fp) (m_ports : Part.ports ∈ fp) (m_eng : Part.eng ∈ fp) (m_err : Part.err ∈ fp) (m_age : Part.age ∈ fp) (m_counters : Part.counters ∈ fp) (m_out : Part.out ∈ fp) : Same fp s₀ (State.startBegins s) := by unfold State.startBegins; simp (maxDischargeDepth := 40) [h, m_board, m_glb, m_regions, m_ports, m_eng, m_err, m_age, m_counters, m_out]

@[simp] theorem State.bootLatch_same {s₀ s : State} {fp : List Part} (e : LoadErr) (h : Same fp s₀ s) (m_glb : Part.glb ∈ fp) (m_err : Part.err ∈ fp) (m_fresh : Part.fresh ∈ fp) : Same fp s₀ (State.bootLatch s e) := by unfold State.bootLatch; simp (maxDischargeDepth := 40) [h, m_glb, m_err, m_fresh]

@[simp] theorem State.closeSegment_same {s₀ s : State} {fp : List Part} (h : Same fp s₀ s) (m_flash : Part.flash ∈ fp) : Same fp s₀ (State.closeSegment s) := by unfold State.closeSegment; simp (maxDischargeDepth := 40) [h, m_flash]

@[simp] theorem State.tripRecord_same {s₀ s : State} {fp : List Part} (h : Same fp s₀ s) (m_glb : Part.glb ∈ fp) (m_flash : Part.flash ∈ fp) : Same fp s₀ (State.tripRecord s) := by
  simp only [State.tripRecord]
  (repeat' split) <;> simp +contextual (maxDischargeDepth := 40) [h, m_glb, m_flash]

@[simp] theorem State.bootFails_same {s₀ s : State} {fp : List Part} (e : LoadErr) (h : Same fp s₀ s) (m_glb : Part.glb ∈ fp) (m_flash : Part.flash ∈ fp) (m_regions : Part.regions ∈ fp) (m_ports : Part.ports ∈ fp) (m_eng : Part.eng ∈ fp) (m_err : Part.err ∈ fp) (m_age : Part.age ∈ fp) (m_counters : Part.counters ∈ fp) (m_out : Part.out ∈ fp) (m_fresh : Part.fresh ∈ fp) : Same fp s₀ (State.bootFails s e) := by
  simp only [State.bootFails]
  (repeat' split) <;> simp +contextual (maxDischargeDepth := 40) [h, m_glb, m_flash, m_regions, m_ports, m_eng, m_err, m_age, m_counters, m_out, m_fresh]

@[simp] theorem State.calibrate_same {s₀ s : State} {fp : List Part} (h : Same fp s₀ s) (m_glb : Part.glb ∈ fp) (m_flash : Part.flash ∈ fp) (m_fresh : Part.fresh ∈ fp) : Same fp s₀ (State.calibrate s) := by unfold State.calibrate; simp (maxDischargeDepth := 40) [h, m_glb, m_flash, m_fresh]

@[simp] theorem State.applyPlan_same {s₀ s : State} {fp : List Part} (l : List PlanBlk) (h : Same fp s₀ s) (m_blocks : Part.blocks ∈ fp) : Same fp s₀ (State.applyPlan s l) := by unfold State.applyPlan; simp +contextual (maxDischargeDepth := 40) [h, m_blocks]

@[simp] theorem State.islandsUp_same {s₀ s : State} {fp : List Part} (h : Same fp s₀ s) (m_cdc : Part.cdc ∈ fp) (m_blocks : Part.blocks ∈ fp) (m_regions : Part.regions ∈ fp) (m_mem : Part.mem ∈ fp) : Same fp s₀ (State.islandsUp s) := by unfold State.islandsUp; simp (maxDischargeDepth := 40) [h, m_cdc, m_blocks, m_regions, m_mem]

@[simp] theorem State.powerIslands_same {s₀ s : State} {fp : List Part} (h : Same fp s₀ s) (m_glb : Part.glb ∈ fp) (m_cdc : Part.cdc ∈ fp) (m_flash : Part.flash ∈ fp) (m_blocks : Part.blocks ∈ fp) (m_regions : Part.regions ∈ fp) (m_mem : Part.mem ∈ fp) (m_err : Part.err ∈ fp) (m_age : Part.age ∈ fp) (m_fresh : Part.fresh ∈ fp) : Same fp s₀ (State.powerIslands s) := by unfold State.powerIslands; simp (maxDischargeDepth := 40) [h, m_glb, m_cdc, m_flash, m_blocks, m_regions, m_mem, m_err, m_age, m_fresh]

@[simp] theorem State.trainMemory_same {s₀ s : State} {fp : List Part} (fails : List Nat) (h : Same fp s₀ s) (m_ports : Part.ports ∈ fp) : Same fp s₀ ((State.trainMemory s fails).s) := by
  simp only [State.trainMemory]
  (repeat' split) <;> simp +contextual (maxDischargeDepth := 40) [h, m_ports]

@[simp] theorem State.placeTables_same {s₀ s : State} {fp : List Part} (i : Image) (h : Same fp s₀ s) (m_job : Part.job ∈ fp) (m_drv : Part.drv ∈ fp) : Same fp s₀ (State.placeTables s i) := by unfold State.placeTables; simp (maxDischargeDepth := 40) [h, m_job, m_drv]

theorem State.verifyMain_same {s₀ s : State} {fp : List Part} (k : State → Image → Ordered) (h : Same fp s₀ s) (m_glb : Part.glb ∈ fp) (hk : ∀ t i, Same fp s₀ t → Same fp s₀ (k t i).s) :
    Same fp s₀ (s.verifyMain k).s := by
  unfold State.verifyMain
  split
  · exact h
  · exact hk _ _ (by simp (maxDischargeDepth := 60) [h, m_glb])

@[simp] theorem State.setClocks_same {s₀ s : State} {fp : List Part} (h : Same fp s₀ s) (m_blocks : Part.blocks ∈ fp) : Same fp s₀ (State.setClocks s) := by unfold State.setClocks; simp +contextual (maxDischargeDepth := 40) [h, m_blocks]

theorem orFirst_same {s₀ s t : State} {fp : List Part} (l : List LoadErr) (h : Same fp s₀ s)  (k : Same fp s₀ t) : Same fp s₀ (orFirst l s t).s := by
  cases l with
  | nil => exact k
  | cons e r => exact h

@[simp] theorem State.validateMain_same {s₀ s : State} {fp : List Part} (i : Image) (h : Same fp s₀ s) (m_job : Part.job ∈ fp) (m_blocks : Part.blocks ∈ fp) (m_drv : Part.drv ∈ fp) : Same fp s₀ (s.validateMain i).s := by
  unfold State.validateMain
  exact orFirst_same _ h (by simp (maxDischargeDepth := 60) [h, m_job, m_blocks, m_drv])

@[simp] theorem State.repairBlocks_same {s₀ s : State} {fp : List Part} (map : List BadBlk) (tests : List BlockTest) (h : Same fp s₀ s) (m_cdc : Part.cdc ∈ fp) (m_flash : Part.flash ∈ fp) (m_blocks : Part.blocks ∈ fp) (m_regions : Part.regions ∈ fp) (m_err : Part.err ∈ fp) (m_trc : Part.trc ∈ fp) (m_counters : Part.counters ∈ fp) (m_fresh : Part.fresh ∈ fp) :
    Same fp s₀ (s.repairBlocks map tests) := by
  simp only [State.repairBlocks]
  apply same_foldl _ _ _ _ h
  intro s b hs
  by_cases hx : (s.blk b).excluded = true
  · simp [hx, hs]
  simp only [hx, Bool.false_eq_true, if_false]
  have k : Same fp s₀ (s.setBlk b ((s.blk b).repaired ((map.find? fun x => x.blk == b).getD { blk := b }) ((tests.find? fun x => x.blk == b).getD { blk := b })).1) :=
    State.setBlk_same _ _ hs (by simp [m_cdc, m_flash, m_blocks, m_regions, m_err, m_trc, m_counters, m_fresh])
  split <;> simp (maxDischargeDepth := 60) [k, m_cdc, m_flash, m_blocks, m_regions, m_err, m_trc, m_counters, m_fresh]

@[simp] theorem State.retrain_same {s₀ s : State} {fp : List Part} (h : Same fp s₀ s) (m_cdc : Part.cdc ∈ fp) (m_flash : Part.flash ∈ fp) (m_blocks : Part.blocks ∈ fp) (m_regions : Part.regions ∈ fp) (m_err : Part.err ∈ fp) (m_trc : Part.trc ∈ fp) (m_counters : Part.counters ∈ fp) (m_fresh : Part.fresh ∈ fp) : Same fp s₀ s.retrain := by
  simp only [State.retrain]
  have hm : ∀ (t : State) (n : Nat), Same fp s₀ t → Same fp s₀ { t with fresh := n } := fun t n ht => by simp [ht, m_cdc, m_flash, m_blocks, m_regions, m_err, m_trc, m_counters, m_fresh]
  apply hm
  apply same_foldl _ _ _ _ h
  intro t b ht
  split
  · exact ht
  · have k : ∀ map bt, Same fp s₀ (t.setBlk b ((t.blk b).repaired map bt).1) := fun map bt => State.setBlk_same _ _ ht (by simp [m_cdc, m_flash, m_blocks, m_regions, m_err, m_trc, m_counters, m_fresh])
    split <;> simp (maxDischargeDepth := 60) [k, m_cdc, m_flash, m_blocks, m_regions, m_err, m_trc, m_counters, m_fresh]

@[simp] theorem State.selfTest_same {s₀ s : State} {fp : List Part} (env : StartEnv) (h : Same fp s₀ s) (m_glb : Part.glb ∈ fp) (m_cdc : Part.cdc ∈ fp) (m_flash : Part.flash ∈ fp) (m_blocks : Part.blocks ∈ fp) (m_regions : Part.regions ∈ fp) (m_err : Part.err ∈ fp) (m_trc : Part.trc ∈ fp) (m_counters : Part.counters ∈ fp) (m_fresh : Part.fresh ∈ fp) : Same fp s₀ ((State.selfTest s env).s) := by
  simp only [State.selfTest]
  (repeat' split) <;> simp +contextual (maxDischargeDepth := 40) [h, m_glb, m_cdc, m_flash, m_blocks, m_regions, m_err, m_trc, m_counters, m_fresh]

@[simp] theorem State.moveBlock_same {s₀ s : State} {fp : List Part} (b : Nat) (spare : Nat) (h : Same fp s₀ s) (m_job : Part.job ∈ fp) (m_blocks : Part.blocks ∈ fp) : Same fp s₀ (State.moveBlock s b spare) := by unfold State.moveBlock; simp (maxDischargeDepth := 40) [h, m_job, m_blocks]

@[simp] theorem State.substitute_same {s₀ s : State} {fp : List Part} (l : List Nat) (h : Same fp s₀ s) (m_job : Part.job ∈ fp) (m_blocks : Part.blocks ∈ fp) : Same fp s₀ (s.substitute l).s := by
  induction l generalizing s with
  | nil => exact h
  | cons b r ih =>
    simp only [State.substitute]
    (repeat' split) <;> simp (maxDischargeDepth := 60) [h, m_job, m_blocks, ih]

@[simp] theorem State.spares_same {s₀ s : State} {fp : List Part} (h : Same fp s₀ s) (m_glb : Part.glb ∈ fp) (m_job : Part.job ∈ fp) (m_blocks : Part.blocks ∈ fp) : Same fp s₀ s.spares.s := by
  simp only [State.spares]
  exact Ordered.andThen_same 9 _ (by simp [h, m_glb, m_job, m_blocks]) m_glb fun t ht => orFirst_same _ ht ht

@[simp] theorem State.zeroHbm_same {s₀ s : State} {fp : List Part} (h : Same fp s₀ s) (m_mem : Part.mem ∈ fp) : Same fp s₀ (State.zeroHbm s) := by unfold State.zeroHbm; simp (maxDischargeDepth := 40) [h, m_mem]

@[simp] theorem State.zeroMemory_same {s₀ s : State} {fp : List Part} (h : Same fp s₀ s) (m_mem : Part.mem ∈ fp) (m_eng : Part.eng ∈ fp) : Same fp s₀ (State.zeroMemory s) := by unfold State.zeroMemory; simp (maxDischargeDepth := 40) [h, m_mem, m_eng]

@[simp] theorem State.placePage_same {s₀ s : State} {fp : List Part} (tier : Nat) (p : Nat) (h : Same fp s₀ s) (m_mem : Part.mem ∈ fp) : Same fp s₀ (State.placePage s tier p) := by
  simp only [State.placePage]
  (repeat' split) <;> simp +contextual (maxDischargeDepth := 40) [h, m_mem]

@[simp] theorem State.placePages_same {s₀ s : State} {fp : List Part} (h : Same fp s₀ s) (m_mem : Part.mem ∈ fp) : Same fp s₀ (State.placePages s) := by unfold State.placePages; simp +contextual (maxDischargeDepth := 40) [h, m_mem]

@[simp] theorem State.fill_same {s₀ s : State} {fp : List Part} (h : Same fp s₀ s) (m_glb : Part.glb ∈ fp) (m_job : Part.job ∈ fp) (m_blocks : Part.blocks ∈ fp) (m_regions : Part.regions ∈ fp) (m_queues : Part.queues ∈ fp) (m_tensors : Part.tensors ∈ fp) (m_mem : Part.mem ∈ fp) (m_gov : Part.gov ∈ fp) (m_ports : Part.ports ∈ fp) (m_hci : Part.hci ∈ fp) (m_eng : Part.eng ∈ fp) (m_trc : Part.trc ∈ fp) (m_counters : Part.counters ∈ fp) (m_out : Part.out ∈ fp) : Same fp s₀ (State.fill s) := by unfold State.fill; simp +contextual (maxDischargeDepth := 40) [h, m_glb, m_job, m_blocks, m_regions, m_queues, m_tensors, m_mem, m_gov, m_ports, m_hci, m_eng, m_trc, m_counters, m_out]

@[simp] theorem State.trainPorts_same {s₀ s : State} {fp : List Part} (h : Same fp s₀ s) (m_glb : Part.glb ∈ fp) (m_ports : Part.ports ∈ fp) (m_lnkPorts : Part.lnkPorts ∈ fp) : Same fp s₀ (State.trainPorts s) := by unfold State.trainPorts; simp +contextual (maxDischargeDepth := 40) [h, m_glb, m_ports, m_lnkPorts]

@[simp] theorem State.loadOrders_same {s₀ s : State} {fp : List Part} (env : StartEnv) (h : Same fp s₀ s) (m_glb : Part.glb ∈ fp) (m_cdc : Part.cdc ∈ fp) (m_flash : Part.flash ∈ fp) (m_job : Part.job ∈ fp) (m_blocks : Part.blocks ∈ fp) (m_regions : Part.regions ∈ fp) (m_queues : Part.queues ∈ fp) (m_tensors : Part.tensors ∈ fp) (m_mem : Part.mem ∈ fp) (m_gov : Part.gov ∈ fp) (m_drv : Part.drv ∈ fp) (m_ports : Part.ports ∈ fp) (m_lnkPorts : Part.lnkPorts ∈ fp) (m_hci : Part.hci ∈ fp) (m_eng : Part.eng ∈ fp) (m_err : Part.err ∈ fp) (m_age : Part.age ∈ fp) (m_trc : Part.trc ∈ fp) (m_counters : Part.counters ∈ fp) (m_out : Part.out ∈ fp) (m_fresh : Part.fresh ∈ fp) : Same fp s₀ (s.loadOrders env).s := by
  unfold State.loadOrders
  apply State.verifyMain_same _ h m_glb
  intro t i ht
  have k := Ordered.andThen_same (fp := fp) (x := { s := t }) 7 (fun s => s.validateMain i) ht m_glb fun t ht => by simp (maxDischargeDepth := 60) [ht, m_glb, m_cdc, m_flash, m_job, m_blocks, m_regions, m_queues, m_tensors, m_mem, m_gov, m_drv, m_ports, m_lnkPorts, m_hci, m_eng, m_err, m_age, m_trc, m_counters, m_out, m_fresh]
  have k := Ordered.andThen_same 8 (fun s => s.selfTest env) k m_glb fun t ht => by simp (maxDischargeDepth := 60) [ht, m_glb, m_cdc, m_flash, m_job, m_blocks, m_regions, m_queues, m_tensors, m_mem, m_gov, m_drv, m_ports, m_lnkPorts, m_hci, m_eng, m_err, m_age, m_trc, m_counters, m_out, m_fresh]
  have k := Ordered.andThen_same 9 State.spares k m_glb fun t ht => by simp (maxDischargeDepth := 60) [ht, m_glb, m_cdc, m_flash, m_job, m_blocks, m_regions, m_queues, m_tensors, m_mem, m_gov, m_drv, m_ports, m_lnkPorts, m_hci, m_eng, m_err, m_age, m_trc, m_counters, m_out, m_fresh]
  have k := Ordered.andThen_same 10 (fun s => { s := s.ageEnds env.ageing }) k m_glb fun t ht => by simp (maxDischargeDepth := 60) [ht, m_glb, m_cdc, m_flash, m_job, m_blocks, m_regions, m_queues, m_tensors, m_mem, m_gov, m_drv, m_ports, m_lnkPorts, m_hci, m_eng, m_err, m_age, m_trc, m_counters, m_out, m_fresh]
  have k := Ordered.andThen_same 11 (fun s => { s := s.zeroMemory }) k m_glb fun t ht => by simp (maxDischargeDepth := 60) [ht, m_glb, m_cdc, m_flash, m_job, m_blocks, m_regions, m_queues, m_tensors, m_mem, m_gov, m_drv, m_ports, m_lnkPorts, m_hci, m_eng, m_err, m_age, m_trc, m_counters, m_out, m_fresh]
  have k := Ordered.andThen_same 12 (fun s => { s := s.fill }) k m_glb fun t ht => by simp (maxDischargeDepth := 60) [ht, m_glb, m_cdc, m_flash, m_job, m_blocks, m_regions, m_queues, m_tensors, m_mem, m_gov, m_drv, m_ports, m_lnkPorts, m_hci, m_eng, m_err, m_age, m_trc, m_counters, m_out, m_fresh]
  exact Ordered.andThen_same 13 (fun s => { s := s.trainPorts }) k m_glb fun t ht => by simp (maxDischargeDepth := 60) [ht, m_glb, m_cdc, m_flash, m_job, m_blocks, m_regions, m_queues, m_tensors, m_mem, m_gov, m_drv, m_ports, m_lnkPorts, m_hci, m_eng, m_err, m_age, m_trc, m_counters, m_out, m_fresh]

@[simp] theorem State.booted_same {s₀ s : State} {fp : List Part} (v : Nat) (h : Same fp s₀ s) (m_board : Part.board ∈ fp) (m_glb : Part.glb ∈ fp) (m_regions : Part.regions ∈ fp) (m_ports : Part.ports ∈ fp) (m_eng : Part.eng ∈ fp) (m_err : Part.err ∈ fp) (m_age : Part.age ∈ fp) (m_counters : Part.counters ∈ fp) (m_out : Part.out ∈ fp) : Same fp s₀ (State.booted s v) := by unfold State.booted; simp (maxDischargeDepth := 40) [h, m_board, m_glb, m_regions, m_ports, m_eng, m_err, m_age, m_counters, m_out]

@[simp] theorem State.ordered_same {s₀ s : State} {fp : List Part} (env : StartEnv) (h : Same fp s₀ s) (m_glb : Part.glb ∈ fp) (m_cdc : Part.cdc ∈ fp) (m_flash : Part.flash ∈ fp) (m_job : Part.job ∈ fp) (m_blocks : Part.blocks ∈ fp) (m_regions : Part.regions ∈ fp) (m_queues : Part.queues ∈ fp) (m_tensors : Part.tensors ∈ fp) (m_mem : Part.mem ∈ fp) (m_gov : Part.gov ∈ fp) (m_drv : Part.drv ∈ fp) (m_ports : Part.ports ∈ fp) (m_lnkPorts : Part.lnkPorts ∈ fp) (m_hci : Part.hci ∈ fp) (m_eng : Part.eng ∈ fp) (m_err : Part.err ∈ fp) (m_age : Part.age ∈ fp) (m_trc : Part.trc ∈ fp) (m_counters : Part.counters ∈ fp) (m_out : Part.out ∈ fp) (m_fresh : Part.fresh ∈ fp) : Same fp s₀ (s.ordered env).s := by
  unfold State.ordered
  exact Ordered.andThen_same 6 (fun s => s.loadOrders env) (Ordered.andThen_same 5 (fun s => s.trainMemory env.memFail)
    (Ordered.andThen_same (fp := fp) (x := { s := s }) 4 (fun s => { s := s.powerIslands }) h m_glb fun t ht => by simp (maxDischargeDepth := 60) [ht, m_glb, m_cdc, m_flash, m_job, m_blocks, m_regions, m_queues, m_tensors, m_mem, m_gov, m_drv, m_ports, m_lnkPorts, m_hci, m_eng, m_err, m_age, m_trc, m_counters, m_out, m_fresh])
    m_glb fun t ht => by simp (maxDischargeDepth := 60) [ht, m_glb, m_cdc, m_flash, m_job, m_blocks, m_regions, m_queues, m_tensors, m_mem, m_gov, m_drv, m_ports, m_lnkPorts, m_hci, m_eng, m_err, m_age, m_trc, m_counters, m_out, m_fresh]) m_glb fun t ht => by simp (maxDischargeDepth := 60) [ht, m_glb, m_cdc, m_flash, m_job, m_blocks, m_regions, m_queues, m_tensors, m_mem, m_gov, m_drv, m_ports, m_lnkPorts, m_hci, m_eng, m_err, m_age, m_trc, m_counters, m_out, m_fresh]

@[simp] theorem State.startOrders_same {s₀ s : State} {fp : List Part} (env : StartEnv) (h : Same fp s₀ s) (m_glb : Part.glb ∈ fp) (m_cdc : Part.cdc ∈ fp) (m_flash : Part.flash ∈ fp) (m_job : Part.job ∈ fp) (m_blocks : Part.blocks ∈ fp) (m_regions : Part.regions ∈ fp) (m_queues : Part.queues ∈ fp) (m_tensors : Part.tensors ∈ fp) (m_mem : Part.mem ∈ fp) (m_gov : Part.gov ∈ fp) (m_drv : Part.drv ∈ fp) (m_ports : Part.ports ∈ fp) (m_lnkPorts : Part.lnkPorts ∈ fp) (m_hci : Part.hci ∈ fp) (m_eng : Part.eng ∈ fp) (m_err : Part.err ∈ fp) (m_age : Part.age ∈ fp) (m_trc : Part.trc ∈ fp) (m_counters : Part.counters ∈ fp) (m_out : Part.out ∈ fp) (m_fresh : Part.fresh ∈ fp) : Same fp s₀ (s.startOrders env) := by
  have k : Same fp s₀ (s.ordered env).s := by simp (maxDischargeDepth := 60) [h, m_glb, m_cdc, m_flash, m_job, m_blocks, m_regions, m_queues, m_tensors, m_mem, m_gov, m_drv, m_ports, m_lnkPorts, m_hci, m_eng, m_err, m_age, m_trc, m_counters, m_out, m_fresh]
  simp only [State.startOrders]
  split
  · simp (maxDischargeDepth := 60) [k, m_glb, m_cdc, m_flash, m_job, m_blocks, m_regions, m_queues, m_tensors, m_mem, m_gov, m_drv, m_ports, m_lnkPorts, m_hci, m_eng, m_err, m_age, m_trc, m_counters, m_out, m_fresh]
  · exact k

@[simp] theorem State.start_same {s₀ s : State} {fp : List Part} (env : StartEnv) (h : Same fp s₀ s) (m_board : Part.board ∈ fp) (m_glb : Part.glb ∈ fp) (m_cdc : Part.cdc ∈ fp) (m_flash : Part.flash ∈ fp) (m_job : Part.job ∈ fp) (m_blocks : Part.blocks ∈ fp) (m_regions : Part.regions ∈ fp) (m_queues : Part.queues ∈ fp) (m_tensors : Part.tensors ∈ fp) (m_mem : Part.mem ∈ fp) (m_gov : Part.gov ∈ fp) (m_drv : Part.drv ∈ fp) (m_ports : Part.ports ∈ fp) (m_lnkPorts : Part.lnkPorts ∈ fp) (m_hci : Part.hci ∈ fp) (m_eng : Part.eng ∈ fp) (m_err : Part.err ∈ fp) (m_age : Part.age ∈ fp) (m_trc : Part.trc ∈ fp) (m_counters : Part.counters ∈ fp) (m_out : Part.out ∈ fp) (m_fresh : Part.fresh ∈ fp) : Same fp s₀ (State.start s env) := by
  simp only [State.start]
  (repeat' split) <;> simp +contextual (maxDischargeDepth := 40) [h, m_board, m_glb, m_cdc, m_flash, m_job, m_blocks, m_regions, m_queues, m_tensors, m_mem, m_gov, m_drv, m_ports, m_lnkPorts, m_hci, m_eng, m_err, m_age, m_trc, m_counters, m_out, m_fresh]

/-! ## RegOps -/

@[simp] theorem State.cdcReadLost_same {s₀ s : State} {fp : List Part} (src : Nat) (h : Same fp s₀ s) (m_cdc : Part.cdc ∈ fp) : Same fp s₀ (State.cdcReadLost s src) := by unfold State.cdcReadLost; simp (maxDischargeDepth := 40) [h, m_cdc]

@[simp] theorem State.clearRc_same {s₀ s : State} {fp : List Part} (a1 : RegId) (h : Same fp s₀ s) (m_sb : Part.sb ∈ fp) (m_cdc : Part.cdc ∈ fp) (m_blocks : Part.blocks ∈ fp) (m_regions : Part.regions ∈ fp) (m_drv : Part.drv ∈ fp) (m_hci : Part.hci ∈ fp) (m_pwr : Part.pwr ∈ fp) (m_eng : Part.eng ∈ fp) (m_err : Part.err ∈ fp) : Same fp s₀ (State.clearRc s a1) := by
  simp only [State.clearRc]
  (repeat' split) <;> simp +contextual (maxDischargeDepth := 40) [h, m_sb, m_cdc, m_blocks, m_regions, m_drv, m_hci, m_pwr, m_eng, m_err]

@[simp] theorem State.readReg_same {s₀ s : State} {fp : List Part} (l : Map Nat) (a : Nat) (h : Same fp s₀ s) (m_sb : Part.sb ∈ fp) (m_cdc : Part.cdc ∈ fp) (m_blocks : Part.blocks ∈ fp) (m_regions : Part.regions ∈ fp) (m_drv : Part.drv ∈ fp) (m_hci : Part.hci ∈ fp) (m_pwr : Part.pwr ∈ fp) (m_eng : Part.eng ∈ fp) (m_err : Part.err ∈ fp) (m_fresh : Part.fresh ∈ fp) : Same fp s₀ ((State.readReg s l a).2.1) := by
  simp only [State.readReg]
  (repeat' split) <;> simp +contextual (maxDischargeDepth := 40) [h, m_sb, m_cdc, m_blocks, m_regions, m_drv, m_hci, m_pwr, m_eng, m_err, m_fresh]

@[simp] theorem State.readRegs_same {s₀ s : State} {fp : List Part} (l : Map Nat) (as : List Nat) (h : Same fp s₀ s) (m_sb : Part.sb ∈ fp) (m_cdc : Part.cdc ∈ fp) (m_blocks : Part.blocks ∈ fp) (m_regions : Part.regions ∈ fp) (m_drv : Part.drv ∈ fp) (m_hci : Part.hci ∈ fp) (m_pwr : Part.pwr ∈ fp) (m_eng : Part.eng ∈ fp) (m_err : Part.err ∈ fp) (m_fresh : Part.fresh ∈ fp) : Same fp s₀ (s.readRegs l as).2.1 := by
  unfold State.readRegs
  suffices H : ∀ (as : List Nat) (x : List Nat × State × Map Nat), Same fp s₀ x.2.1 → Same fp s₀ (as.foldl (fun (x : List Nat × State × Map Nat) a =>
      let (v, s, l) := x.2.1.readReg x.2.2 a
      (x.1 ++ [v], s, l)) x).2.1 from H _ _ h
  intro as
  induction as with
  | nil => exact fun x hx => hx
  | cons a r ih => exact fun x hx => ih _ (by simp (maxDischargeDepth := 60) [hx, m_sb, m_cdc, m_blocks, m_regions, m_drv, m_hci, m_pwr, m_eng, m_err, m_fresh])

@[simp] theorem State.clearCdc_same {s₀ s : State} {fp : List Part} (src : Nat) (mask : Nat) (h : Same fp s₀ s) (m_cdc : Part.cdc ∈ fp) : Same fp s₀ (State.clearCdc s src mask) := by unfold State.clearCdc; simp (maxDischargeDepth := 40) [h, m_cdc]

@[simp] theorem State.consumeLog_same {s₀ s : State} {fp : List Part} (v : Nat) (h : Same fp s₀ s) (m_err : Part.err ∈ fp) : Same fp s₀ (State.consumeLog s v) := by unfold State.consumeLog; simp (maxDischargeDepth := 40) [h, m_err]

@[simp] theorem State.rearmFirst_same {s₀ s : State} {fp : List Part} (h : Same fp s₀ s) (m_err : Part.err ∈ fp) : Same fp s₀ (State.rearmFirst s) := by unfold State.rearmFirst; simp (maxDischargeDepth := 40) [h, m_err]

@[simp] theorem State.captureDesc_same {s₀ s : State} {fp : List Part} (r : Nat) (v : Nat) (h : Same fp s₀ s) (m_regions : Part.regions ∈ fp) : Same fp s₀ (State.captureDesc s r v) := by unfold State.captureDesc; simp (maxDischargeDepth := 40) [h, m_regions]

@[simp] theorem State.writePlain_same {s₀ s : State} {fp : List Part} (r : RegId) (v : Nat) (h : Same fp s₀ s) (m_cdc : Part.cdc ∈ fp) (m_blocks : Part.blocks ∈ fp) (m_regions : Part.regions ∈ fp) (m_mem : Part.mem ∈ fp) (m_drv : Part.drv ∈ fp) (m_ports : Part.ports ∈ fp) (m_hci : Part.hci ∈ fp) (m_eng : Part.eng ∈ fp) (m_err : Part.err ∈ fp) (m_age : Part.age ∈ fp) (m_trc : Part.trc ∈ fp) (m_counters : Part.counters ∈ fp) : Same fp s₀ (State.writePlain s r v) := by
  simp only [State.writePlain]
  (repeat' split) <;> simp +contextual (maxDischargeDepth := 40) [h, m_cdc, m_blocks, m_regions, m_mem, m_drv, m_ports, m_hci, m_eng, m_err, m_age, m_trc, m_counters]

/-! ## Power -/

@[simp] theorem State.dropRegs_same {s₀ s : State} {fp : List Part} (h : Same fp s₀ s) (m_blocks : Part.blocks ∈ fp) (m_regions : Part.regions ∈ fp) (m_mem : Part.mem ∈ fp) (m_drv : Part.drv ∈ fp) (m_hci : Part.hci ∈ fp) : Same fp s₀ (State.dropRegs s) := by unfold State.dropRegs; simp (maxDischargeDepth := 40) [h, m_blocks, m_regions, m_mem, m_drv, m_hci]

@[simp] theorem State.dormant_same {s₀ s : State} {fp : List Part} (h : Same fp s₀ s) (m_cdc : Part.cdc ∈ fp) (m_job : Part.job ∈ fp) (m_blocks : Part.blocks ∈ fp) (m_regions : Part.regions ∈ fp) (m_queues : Part.queues ∈ fp) (m_tensors : Part.tensors ∈ fp) (m_mem : Part.mem ∈ fp) (m_gov : Part.gov ∈ fp) (m_upd : Part.upd ∈ fp) (m_drv : Part.drv ∈ fp) (m_ports : Part.ports ∈ fp) (m_hci : Part.hci ∈ fp) (m_eng : Part.eng ∈ fp) (m_age : Part.age ∈ fp) (m_trc : Part.trc ∈ fp) (m_stop : Part.stop ∈ fp) (m_counters : Part.counters ∈ fp) (m_out : Part.out ∈ fp) (m_fresh : Part.fresh ∈ fp) : Same fp s₀ (State.dormant s) := by unfold State.dormant; simp +contextual (maxDischargeDepth := 40) [h, m_cdc, m_job, m_blocks, m_regions, m_queues, m_tensors, m_mem, m_gov, m_upd, m_drv, m_ports, m_hci, m_eng, m_age, m_trc, m_stop, m_counters, m_out, m_fresh]

@[simp] theorem State.sleepPorts_same {s₀ s : State} {fp : List Part} (h : Same fp s₀ s) (m_ports : Part.ports ∈ fp) (m_counters : Part.counters ∈ fp) (m_out : Part.out ∈ fp) : Same fp s₀ (State.sleepPorts s) := by unfold State.sleepPorts; simp +contextual (maxDischargeDepth := 40) [h, m_ports, m_counters, m_out]

@[simp] theorem State.enterPower_same {s₀ s : State} {fp : List Part} (h0 : Hnd) (target : Nat) (h : Same fp s₀ s) (m_cdc : Part.cdc ∈ fp) (m_flash : Part.flash ∈ fp) (m_job : Part.job ∈ fp) (m_blocks : Part.blocks ∈ fp) (m_regions : Part.regions ∈ fp) (m_queues : Part.queues ∈ fp) (m_tensors : Part.tensors ∈ fp) (m_mem : Part.mem ∈ fp) (m_gov : Part.gov ∈ fp) (m_upd : Part.upd ∈ fp) (m_drv : Part.drv ∈ fp) (m_ports : Part.ports ∈ fp) (m_hci : Part.hci ∈ fp) (m_pwr : Part.pwr ∈ fp) (m_eng : Part.eng ∈ fp) (m_age : Part.age ∈ fp) (m_trc : Part.trc ∈ fp) (m_stop : Part.stop ∈ fp) (m_counters : Part.counters ∈ fp) (m_out : Part.out ∈ fp) (m_fresh : Part.fresh ∈ fp) : Same fp s₀ (State.enterPower s h0 target) := by unfold State.enterPower; simp (maxDischargeDepth := 40) [h, m_cdc, m_flash, m_job, m_blocks, m_regions, m_queues, m_tensors, m_mem, m_gov, m_upd, m_drv, m_ports, m_hci, m_pwr, m_eng, m_age, m_trc, m_stop, m_counters, m_out, m_fresh]

@[simp] theorem State.refusePower_same {s₀ s : State} {fp : List Part} (h0 : Hnd) (code : Nat) (h : Same fp s₀ s) (m_ports : Part.ports ∈ fp) (m_hci : Part.hci ∈ fp) (m_pwr : Part.pwr ∈ fp) (m_eng : Part.eng ∈ fp) (m_counters : Part.counters ∈ fp) (m_out : Part.out ∈ fp) : Same fp s₀ (State.refusePower s h0 code) := by unfold State.refusePower; simp (maxDischargeDepth := 40) [h, m_ports, m_hci, m_pwr, m_eng, m_counters, m_out]

@[simp] theorem State.reloadFails_same {s₀ s : State} {fp : List Part} (e : StartErr) (h : Same fp s₀ s) (m_glb : Part.glb ∈ fp) (m_err : Part.err ∈ fp) (m_fresh : Part.fresh ∈ fp) : Same fp s₀ (State.reloadFails s e) := by unfold State.reloadFails; simp (maxDischargeDepth := 40) [h, m_glb, m_err, m_fresh]

@[simp] theorem State.reloadOrders_same {s₀ s : State} {fp : List Part} (h : Same fp s₀ s) (m_glb : Part.glb ∈ fp) (m_job : Part.job ∈ fp) (m_blocks : Part.blocks ∈ fp) (m_regions : Part.regions ∈ fp) (m_queues : Part.queues ∈ fp) (m_tensors : Part.tensors ∈ fp) (m_mem : Part.mem ∈ fp) (m_gov : Part.gov ∈ fp) (m_drv : Part.drv ∈ fp) (m_ports : Part.ports ∈ fp) (m_hci : Part.hci ∈ fp) (m_eng : Part.eng ∈ fp) (m_trc : Part.trc ∈ fp) (m_counters : Part.counters ∈ fp) (m_out : Part.out ∈ fp) : Same fp s₀ ((State.reloadOrders s).s) := by
  simp only [State.reloadOrders]
  (repeat' split) <;> simp +contextual (maxDischargeDepth := 40) [h, m_glb, m_job, m_blocks, m_regions, m_queues, m_tensors, m_mem, m_gov, m_drv, m_ports, m_hci, m_eng, m_trc, m_counters, m_out]

@[simp] theorem State.reload_same {s₀ s : State} {fp : List Part} (h : Same fp s₀ s) (m_glb : Part.glb ∈ fp) (m_cdc : Part.cdc ∈ fp) (m_flash : Part.flash ∈ fp) (m_job : Part.job ∈ fp) (m_blocks : Part.blocks ∈ fp) (m_regions : Part.regions ∈ fp) (m_queues : Part.queues ∈ fp) (m_tensors : Part.tensors ∈ fp) (m_mem : Part.mem ∈ fp) (m_gov : Part.gov ∈ fp) (m_drv : Part.drv ∈ fp) (m_ports : Part.ports ∈ fp) (m_hci : Part.hci ∈ fp) (m_eng : Part.eng ∈ fp) (m_err : Part.err ∈ fp) (m_trc : Part.trc ∈ fp) (m_counters : Part.counters ∈ fp) (m_clearTime : Part.clearTime ∈ fp) (m_out : Part.out ∈ fp) (m_fresh : Part.fresh ∈ fp) : Same fp s₀ (State.reload s) := by
  simp only [State.reload]
  (repeat' split) <;> simp +contextual (maxDischargeDepth := 40) [h, m_glb, m_cdc, m_flash, m_job, m_blocks, m_regions, m_queues, m_tensors, m_mem, m_gov, m_drv, m_ports, m_hci, m_eng, m_err, m_trc, m_counters, m_clearTime, m_out, m_fresh]

@[simp] theorem State.wakePorts_same {s₀ s : State} {fp : List Part} (h : Same fp s₀ s) (m_ports : Part.ports ∈ fp) (m_counters : Part.counters ∈ fp) (m_out : Part.out ∈ fp) : Same fp s₀ (State.wakePorts s) := by unfold State.wakePorts; simp +contextual (maxDischargeDepth := 40) [h, m_ports, m_counters, m_out]

@[simp] theorem State.restoreRegs_same {s₀ s : State} {fp : List Part} (h : Same fp s₀ s) (m_cdc : Part.cdc ∈ fp) (m_blocks : Part.blocks ∈ fp) (m_regions : Part.regions ∈ fp) (m_mem : Part.mem ∈ fp) (m_drv : Part.drv ∈ fp) (m_ports : Part.ports ∈ fp) (m_hci : Part.hci ∈ fp) (m_pwr : Part.pwr ∈ fp) (m_eng : Part.eng ∈ fp) (m_err : Part.err ∈ fp) (m_age : Part.age ∈ fp) (m_trc : Part.trc ∈ fp) (m_counters : Part.counters ∈ fp) : Same fp s₀ s.restoreRegs := by
  simp only [State.restoreRegs]
  apply same_foldl
  · intro s x hs
    (repeat' split) <;> simp (maxDischargeDepth := 60) [hs, m_cdc, m_blocks, m_regions, m_mem, m_drv, m_ports, m_hci, m_pwr, m_eng, m_err, m_age, m_trc, m_counters]
  · simp (maxDischargeDepth := 60) [h, m_cdc, m_blocks, m_regions, m_mem, m_drv, m_ports, m_hci, m_pwr, m_eng, m_err, m_age, m_trc, m_counters]

@[simp] theorem State.wake_same {s₀ s : State} {fp : List Part} (h : Same fp s₀ s) (m_glb : Part.glb ∈ fp) (m_cdc : Part.cdc ∈ fp) (m_flash : Part.flash ∈ fp) (m_job : Part.job ∈ fp) (m_blocks : Part.blocks ∈ fp) (m_regions : Part.regions ∈ fp) (m_queues : Part.queues ∈ fp) (m_tensors : Part.tensors ∈ fp) (m_mem : Part.mem ∈ fp) (m_gov : Part.gov ∈ fp) (m_drv : Part.drv ∈ fp) (m_ports : Part.ports ∈ fp) (m_hci : Part.hci ∈ fp) (m_pwr : Part.pwr ∈ fp) (m_eng : Part.eng ∈ fp) (m_err : Part.err ∈ fp) (m_age : Part.age ∈ fp) (m_trc : Part.trc ∈ fp) (m_counters : Part.counters ∈ fp) (m_clearTime : Part.clearTime ∈ fp) (m_out : Part.out ∈ fp) (m_fresh : Part.fresh ∈ fp) : Same fp s₀ (State.wake s) := by unfold State.wake; simp (maxDischargeDepth := 40) [h, m_glb, m_cdc, m_flash, m_job, m_blocks, m_regions, m_queues, m_tensors, m_mem, m_gov, m_drv, m_ports, m_hci, m_pwr, m_eng, m_err, m_age, m_trc, m_counters, m_clearTime, m_out, m_fresh]

@[simp] theorem State.entryOn_same {s₀ s : State} {fp : List Part} (h : Same fp s₀ s) (m_glb : Part.glb ∈ fp) (m_cdc : Part.cdc ∈ fp) (m_flash : Part.flash ∈ fp) (m_job : Part.job ∈ fp) (m_blocks : Part.blocks ∈ fp) (m_regions : Part.regions ∈ fp) (m_queues : Part.queues ∈ fp) (m_tensors : Part.tensors ∈ fp) (m_mem : Part.mem ∈ fp) (m_gov : Part.gov ∈ fp) (m_upd : Part.upd ∈ fp) (m_drv : Part.drv ∈ fp) (m_ports : Part.ports ∈ fp) (m_hci : Part.hci ∈ fp) (m_pwr : Part.pwr ∈ fp) (m_eng : Part.eng ∈ fp) (m_err : Part.err ∈ fp) (m_age : Part.age ∈ fp) (m_trc : Part.trc ∈ fp) (m_stop : Part.stop ∈ fp) (m_counters : Part.counters ∈ fp) (m_clearTime : Part.clearTime ∈ fp) (m_out : Part.out ∈ fp) (m_fresh : Part.fresh ∈ fp) : Same fp s₀ (State.entryOn s) := by
  simp only [State.entryOn]
  (repeat' split) <;> simp +contextual (maxDischargeDepth := 40) [h, m_glb, m_cdc, m_flash, m_job, m_blocks, m_regions, m_queues, m_tensors, m_mem, m_gov, m_upd, m_drv, m_ports, m_hci, m_pwr, m_eng, m_err, m_age, m_trc, m_stop, m_counters, m_clearTime, m_out, m_fresh]

/-! ## Regs -/

@[simp] theorem State.writeReg_same {s₀ s : State} {fp : List Part} (r : RegId) (v : Nat) (h : Same fp s₀ s) (m_glb : Part.glb ∈ fp) (m_cdc : Part.cdc ∈ fp) (m_flash : Part.flash ∈ fp) (m_job : Part.job ∈ fp) (m_blocks : Part.blocks ∈ fp) (m_regions : Part.regions ∈ fp) (m_queues : Part.queues ∈ fp) (m_tensors : Part.tensors ∈ fp) (m_mem : Part.mem ∈ fp) (m_gov : Part.gov ∈ fp) (m_drv : Part.drv ∈ fp) (m_ports : Part.ports ∈ fp) (m_hci : Part.hci ∈ fp) (m_pwr : Part.pwr ∈ fp) (m_eng : Part.eng ∈ fp) (m_err : Part.err ∈ fp) (m_age : Part.age ∈ fp) (m_trc : Part.trc ∈ fp) (m_counters : Part.counters ∈ fp) (m_clearTime : Part.clearTime ∈ fp) (m_out : Part.out ∈ fp) (m_fresh : Part.fresh ∈ fp) : Same fp s₀ (State.writeReg s r v) := by
  simp only [State.writeReg]
  (repeat' split) <;> simp +contextual (maxDischargeDepth := 40) [h, m_glb, m_cdc, m_flash, m_job, m_blocks, m_regions, m_queues, m_tensors, m_mem, m_gov, m_drv, m_ports, m_hci, m_pwr, m_eng, m_err, m_age, m_trc, m_counters, m_clearTime, m_out, m_fresh]

@[simp] theorem State.writeAt_same {s₀ s : State} {fp : List Part} (a : Nat) (v : Nat) (h : Same fp s₀ s) (m_glb : Part.glb ∈ fp) (m_cdc : Part.cdc ∈ fp) (m_flash : Part.flash ∈ fp) (m_job : Part.job ∈ fp) (m_blocks : Part.blocks ∈ fp) (m_regions : Part.regions ∈ fp) (m_queues : Part.queues ∈ fp) (m_tensors : Part.tensors ∈ fp) (m_mem : Part.mem ∈ fp) (m_gov : Part.gov ∈ fp) (m_drv : Part.drv ∈ fp) (m_ports : Part.ports ∈ fp) (m_hci : Part.hci ∈ fp) (m_pwr : Part.pwr ∈ fp) (m_eng : Part.eng ∈ fp) (m_err : Part.err ∈ fp) (m_age : Part.age ∈ fp) (m_trc : Part.trc ∈ fp) (m_counters : Part.counters ∈ fp) (m_clearTime : Part.clearTime ∈ fp) (m_out : Part.out ∈ fp) (m_fresh : Part.fresh ∈ fp) : Same fp s₀ (State.writeAt s a v) := by
  simp only [State.writeAt]
  (repeat' split) <;> simp +contextual (maxDischargeDepth := 40) [h, m_glb, m_cdc, m_flash, m_job, m_blocks, m_regions, m_queues, m_tensors, m_mem, m_gov, m_drv, m_ports, m_hci, m_pwr, m_eng, m_err, m_age, m_trc, m_counters, m_clearTime, m_out, m_fresh]

@[simp] theorem State.sbWrite_same {s₀ s : State} {fp : List Part} (a : Nat) (v : Nat) (h : Same fp s₀ s) (m_glb : Part.glb ∈ fp) (m_sb : Part.sb ∈ fp) (m_cdc : Part.cdc ∈ fp) (m_flash : Part.flash ∈ fp) (m_job : Part.job ∈ fp) (m_blocks : Part.blocks ∈ fp) (m_regions : Part.regions ∈ fp) (m_queues : Part.queues ∈ fp) (m_tensors : Part.tensors ∈ fp) (m_mem : Part.mem ∈ fp) (m_gov : Part.gov ∈ fp) (m_drv : Part.drv ∈ fp) (m_ports : Part.ports ∈ fp) (m_hci : Part.hci ∈ fp) (m_pwr : Part.pwr ∈ fp) (m_eng : Part.eng ∈ fp) (m_err : Part.err ∈ fp) (m_age : Part.age ∈ fp) (m_trc : Part.trc ∈ fp) (m_counters : Part.counters ∈ fp) (m_clearTime : Part.clearTime ∈ fp) (m_out : Part.out ∈ fp) (m_fresh : Part.fresh ∈ fp) : Same fp s₀ (State.sbWrite s a v) := by
  simp only [State.sbWrite]
  (repeat' split) <;> simp +contextual (maxDischargeDepth := 40) [h, m_glb, m_sb, m_cdc, m_flash, m_job, m_blocks, m_regions, m_queues, m_tensors, m_mem, m_gov, m_drv, m_ports, m_hci, m_pwr, m_eng, m_err, m_age, m_trc, m_counters, m_clearTime, m_out, m_fresh]

@[simp] theorem State.pathWrite_same {s₀ s : State} {fp : List Part} (p : Path) (a : Nat) (v : Nat) (h : Same fp s₀ s) (m_glb : Part.glb ∈ fp) (m_sb : Part.sb ∈ fp) (m_cdc : Part.cdc ∈ fp) (m_flash : Part.flash ∈ fp) (m_job : Part.job ∈ fp) (m_blocks : Part.blocks ∈ fp) (m_regions : Part.regions ∈ fp) (m_queues : Part.queues ∈ fp) (m_tensors : Part.tensors ∈ fp) (m_mem : Part.mem ∈ fp) (m_gov : Part.gov ∈ fp) (m_drv : Part.drv ∈ fp) (m_ports : Part.ports ∈ fp) (m_hci : Part.hci ∈ fp) (m_pwr : Part.pwr ∈ fp) (m_eng : Part.eng ∈ fp) (m_err : Part.err ∈ fp) (m_age : Part.age ∈ fp) (m_trc : Part.trc ∈ fp) (m_counters : Part.counters ∈ fp) (m_clearTime : Part.clearTime ∈ fp) (m_out : Part.out ∈ fp) (m_fresh : Part.fresh ∈ fp) : Same fp s₀ (State.pathWrite s p a v) := by
  simp only [State.pathWrite]
  (repeat' split) <;> simp +contextual (maxDischargeDepth := 40) [h, m_glb, m_sb, m_cdc, m_flash, m_job, m_blocks, m_regions, m_queues, m_tensors, m_mem, m_gov, m_drv, m_ports, m_hci, m_pwr, m_eng, m_err, m_age, m_trc, m_counters, m_clearTime, m_out, m_fresh]

@[simp] theorem State.pathRead_same {s₀ s : State} {fp : List Part} (p : Path) (a : Nat) (h : Same fp s₀ s) (m_sb : Part.sb ∈ fp) (m_cdc : Part.cdc ∈ fp) (m_blocks : Part.blocks ∈ fp) (m_regions : Part.regions ∈ fp) (m_drv : Part.drv ∈ fp) (m_hci : Part.hci ∈ fp) (m_pwr : Part.pwr ∈ fp) (m_eng : Part.eng ∈ fp) (m_err : Part.err ∈ fp) (m_fresh : Part.fresh ∈ fp) : Same fp s₀ ((State.pathRead s p a).2) := by
  simp only [State.pathRead]
  (repeat' split) <;> simp +contextual (maxDischargeDepth := 40) [h, m_sb, m_cdc, m_blocks, m_regions, m_drv, m_hci, m_pwr, m_eng, m_err, m_fresh]

/-! ## Sideband -/

@[simp] theorem State.framing_same {s₀ s : State} {fp : List Part} (byte : Nat) (h : Same fp s₀ s) (m_sb : Part.sb ∈ fp) (m_ports : Part.ports ∈ fp) (m_counters : Part.counters ∈ fp) (m_out : Part.out ∈ fp) : Same fp s₀ (State.framing s byte) := by unfold State.framing; simp (maxDischargeDepth := 40) [h, m_sb, m_ports, m_counters, m_out]

@[simp] theorem State.pecBad_same {s₀ s : State} {fp : List Part} (byte : Nat) (h : Same fp s₀ s) (m_sb : Part.sb ∈ fp) (m_ports : Part.ports ∈ fp) (m_counters : Part.counters ∈ fp) (m_out : Part.out ∈ fp) : Same fp s₀ (State.pecBad s byte) := by unfold State.pecBad; simp (maxDischargeDepth := 40) [h, m_sb, m_ports, m_counters, m_out]

@[simp] theorem State.sbAnswer_same {s₀ s : State} {fp : List Part} (code : Nat) (written : List Byte) (h : Same fp s₀ s) (m_ports : Part.ports ∈ fp) (m_counters : Part.counters ∈ fp) (m_out : Part.out ∈ fp) : Same fp s₀ (State.sbAnswer s code written) := by unfold State.sbAnswer; simp (maxDischargeDepth := 40) [h, m_ports, m_counters, m_out]

@[simp] theorem State.sbServe_same {s₀ s : State} {fp : List Part} (code : Nat) (written : List Byte) (as : List Nat) (h : Same fp s₀ s) (m_sb : Part.sb ∈ fp) (m_cdc : Part.cdc ∈ fp) (m_blocks : Part.blocks ∈ fp) (m_regions : Part.regions ∈ fp) (m_drv : Part.drv ∈ fp) (m_ports : Part.ports ∈ fp) (m_hci : Part.hci ∈ fp) (m_pwr : Part.pwr ∈ fp) (m_eng : Part.eng ∈ fp) (m_err : Part.err ∈ fp) (m_counters : Part.counters ∈ fp) (m_out : Part.out ∈ fp) (m_fresh : Part.fresh ∈ fp) : Same fp s₀ (State.sbServe s code written as) := by unfold State.sbServe; simp (maxDischargeDepth := 40) [h, m_sb, m_cdc, m_blocks, m_regions, m_drv, m_ports, m_hci, m_pwr, m_eng, m_err, m_counters, m_out, m_fresh]

/-! ## Board -/

@[simp] theorem State.islandsGone_same {s₀ s : State} {fp : List Part} (h : Same fp s₀ s) (m_board : Part.board ∈ fp) (m_glb : Part.glb ∈ fp) (m_job : Part.job ∈ fp) (m_blocks : Part.blocks ∈ fp) (m_regions : Part.regions ∈ fp) (m_queues : Part.queues ∈ fp) (m_tensors : Part.tensors ∈ fp) (m_gov : Part.gov ∈ fp) (m_drv : Part.drv ∈ fp) (m_ports : Part.ports ∈ fp) (m_lnkPorts : Part.lnkPorts ∈ fp) (m_hci : Part.hci ∈ fp) (m_trc : Part.trc ∈ fp) (m_stop : Part.stop ∈ fp) : Same fp s₀ (State.islandsGone s) := by unfold State.islandsGone; simp (maxDischargeDepth := 40) [h, m_board, m_glb, m_job, m_blocks, m_regions, m_queues, m_tensors, m_gov, m_drv, m_ports, m_lnkPorts, m_hci, m_trc, m_stop]

@[simp] theorem State.heartKept_same {s₀ s : State} {fp : List Part} (h : Same fp s₀ s) (m_mem : Part.mem ∈ fp) (m_upd : Part.upd ∈ fp) (m_pwr : Part.pwr ∈ fp) (m_err : Part.err ∈ fp) (m_age : Part.age ∈ fp) : Same fp s₀ (State.heartKept s) := by unfold State.heartKept; simp (maxDischargeDepth := 40) [h, m_mem, m_upd, m_pwr, m_err, m_age]

@[simp] theorem State.workDropped_same {s₀ s : State} {fp : List Part} (h : Same fp s₀ s) (m_hci : Part.hci ∈ fp) (m_age : Part.age ∈ fp) : Same fp s₀ (State.workDropped s) := by unfold State.workDropped; simp (maxDischargeDepth := 40) [h, m_hci, m_age]

@[simp] theorem State.resetFalls_same {s₀ s : State} {fp : List Part} (h : Same fp s₀ s) (m_board : Part.board ∈ fp) (m_glb : Part.glb ∈ fp) (m_cdc : Part.cdc ∈ fp) (m_job : Part.job ∈ fp) (m_blocks : Part.blocks ∈ fp) (m_regions : Part.regions ∈ fp) (m_queues : Part.queues ∈ fp) (m_tensors : Part.tensors ∈ fp) (m_mem : Part.mem ∈ fp) (m_gov : Part.gov ∈ fp) (m_upd : Part.upd ∈ fp) (m_drv : Part.drv ∈ fp) (m_ports : Part.ports ∈ fp) (m_lnkPorts : Part.lnkPorts ∈ fp) (m_hci : Part.hci ∈ fp) (m_pwr : Part.pwr ∈ fp) (m_eng : Part.eng ∈ fp) (m_err : Part.err ∈ fp) (m_age : Part.age ∈ fp) (m_trc : Part.trc ∈ fp) (m_stop : Part.stop ∈ fp) (m_counters : Part.counters ∈ fp) (m_out : Part.out ∈ fp) (m_fresh : Part.fresh ∈ fp) : Same fp s₀ (State.resetFalls s) := by unfold State.resetFalls; simp (maxDischargeDepth := 40) [h, m_board, m_glb, m_cdc, m_job, m_blocks, m_regions, m_queues, m_tensors, m_mem, m_gov, m_upd, m_drv, m_ports, m_lnkPorts, m_hci, m_pwr, m_eng, m_err, m_age, m_trc, m_stop, m_counters, m_out, m_fresh]

/-! ## Memory -/

@[simp] theorem State.moveFrame_same {s₀ s : State} {fp : List Part} (c : Nat) (f : Nat) (c' : Nat) (f' : Nat) (h : Same fp s₀ s) (m_mem : Part.mem ∈ fp) : Same fp s₀ (State.moveFrame s c f c' f') := by unfold State.moveFrame; simp (maxDischargeDepth := 40) [h, m_mem]

@[simp] theorem State.evictOne_same {s₀ s : State} {fp : List Part} (p : Nat) (h : Same fp s₀ s) (m_mem : Part.mem ∈ fp) : Same fp s₀ (State.evictOne s p) := by
  simp only [State.evictOne]
  (repeat' split) <;> simp +contextual (maxDischargeDepth := 40) [h, m_mem]

@[simp] theorem State.evict_same {s₀ s : State} {fp : List Part} (n : Nat) (h : Same fp s₀ s) (m_mem : Part.mem ∈ fp) : Same fp s₀ (s.evict n) := by
  induction n generalizing s with
  | zero => exact h
  | succ n ih =>
    simp only [State.evict]
    (repeat' split) <;> simp (maxDischargeDepth := 60) [h, m_mem, ih]

@[simp] theorem State.pageCame_same {s₀ s : State} {fp : List Part} (page old : Nat) (ups : Upsets) (h : Same fp s₀ s) (m_glb : Part.glb ∈ fp) (m_flash : Part.flash ∈ fp) (m_blocks : Part.blocks ∈ fp) (m_regions : Part.regions ∈ fp) (m_queues : Part.queues ∈ fp) (m_tensors : Part.tensors ∈ fp) (m_mem : Part.mem ∈ fp) (m_gov : Part.gov ∈ fp) (m_upd : Part.upd ∈ fp) (m_drv : Part.drv ∈ fp) (m_ports : Part.ports ∈ fp) (m_hci : Part.hci ∈ fp) (m_eng : Part.eng ∈ fp) (m_err : Part.err ∈ fp) (m_age : Part.age ∈ fp) (m_trc : Part.trc ∈ fp) (m_counters : Part.counters ∈ fp) (m_out : Part.out ∈ fp) (m_fresh : Part.fresh ∈ fp) : Same fp s₀ (s.pageCame page old ups) := by
  simp only [State.pageCame]
  have hm : ∀ t, Same fp s₀ t → Same fp s₀ ((t.refreshOn ups).retryStalled ups) := fun t ht => by simp (maxDischargeDepth := 60) +contextual [ht, m_glb, m_flash, m_blocks, m_regions, m_queues, m_tensors, m_mem, m_gov, m_upd, m_drv, m_ports, m_hci, m_eng, m_err, m_age, m_trc, m_counters, m_out, m_fresh]
  apply hm
  apply same_foldl _ _ _ _ h
  intro s b hs
  (repeat' split) <;> simp (maxDischargeDepth := 60) +contextual [hs, m_glb, m_flash, m_blocks, m_regions, m_queues, m_tensors, m_mem, m_gov, m_upd, m_drv, m_ports, m_hci, m_eng, m_err, m_age, m_trc, m_counters, m_out, m_fresh]

@[simp] theorem State.dropMove_same {s₀ s : State} {fp : List Part} (page : Nat) (h : Same fp s₀ s) (m_mem : Part.mem ∈ fp) : Same fp s₀ (State.dropMove s page) := by unfold State.dropMove; simp (maxDischargeDepth := 40) [h, m_mem]

@[simp] theorem State.moveDone_same {s₀ s : State} {fp : List Part} (page : Nat) (m : Move) (ups : Upsets) (h : Same fp s₀ s) (m_glb : Part.glb ∈ fp) (m_flash : Part.flash ∈ fp) (m_blocks : Part.blocks ∈ fp) (m_regions : Part.regions ∈ fp) (m_queues : Part.queues ∈ fp) (m_tensors : Part.tensors ∈ fp) (m_mem : Part.mem ∈ fp) (m_gov : Part.gov ∈ fp) (m_upd : Part.upd ∈ fp) (m_drv : Part.drv ∈ fp) (m_ports : Part.ports ∈ fp) (m_hci : Part.hci ∈ fp) (m_eng : Part.eng ∈ fp) (m_err : Part.err ∈ fp) (m_age : Part.age ∈ fp) (m_trc : Part.trc ∈ fp) (m_counters : Part.counters ∈ fp) (m_out : Part.out ∈ fp) (m_fresh : Part.fresh ∈ fp) : Same fp s₀ (State.moveDone s page m ups) := by unfold State.moveDone; simp (maxDischargeDepth := 40) [h, m_glb, m_flash, m_blocks, m_regions, m_queues, m_tensors, m_mem, m_gov, m_upd, m_drv, m_ports, m_hci, m_eng, m_err, m_age, m_trc, m_counters, m_out, m_fresh]

@[simp] theorem State.copyBlocks_same {s₀ s : State} {fp : List Part} (ups : Upsets) (l : List (Nat × Nat)) (h : Same fp s₀ s) (m_flash : Part.flash ∈ fp) (m_regions : Part.regions ∈ fp) (m_mem : Part.mem ∈ fp) (m_err : Part.err ∈ fp) (m_trc : Part.trc ∈ fp) (m_counters : Part.counters ∈ fp) (m_fresh : Part.fresh ∈ fp) :
    Same fp s₀ (s.copyBlocks ups l).1 := by
  induction l generalizing s with
  | nil => exact h
  | cons x r ih =>
    obtain ⟨a, b⟩ := x
    have k : Same fp s₀ (s.readBlock ups a).1 := by simp (maxDischargeDepth := 60) +contextual [h, m_flash, m_regions, m_mem, m_err, m_trc, m_counters, m_fresh]
    have k2 : Same fp s₀ ((s.readBlock ups a).1.writeBlocks ups [b]).1 := by simp (maxDischargeDepth := 60) +contextual [k, m_flash, m_regions, m_mem, m_err, m_trc, m_counters, m_fresh]
    simp only [State.copyBlocks]
    split
    · exact k
    · split
      · exact k2
      · exact ih k2

@[simp] theorem State.moveEnds_same {s₀ : State} {fp : List Part} (page : Nat) (m : Move) (ups : Upsets) (r : State × Bool) (h : Same fp s₀ r.1) (m_glb : Part.glb ∈ fp) (m_flash : Part.flash ∈ fp) (m_blocks : Part.blocks ∈ fp) (m_regions : Part.regions ∈ fp) (m_queues : Part.queues ∈ fp) (m_tensors : Part.tensors ∈ fp) (m_mem : Part.mem ∈ fp) (m_gov : Part.gov ∈ fp) (m_upd : Part.upd ∈ fp) (m_drv : Part.drv ∈ fp) (m_ports : Part.ports ∈ fp) (m_hci : Part.hci ∈ fp) (m_eng : Part.eng ∈ fp) (m_err : Part.err ∈ fp) (m_age : Part.age ∈ fp) (m_trc : Part.trc ∈ fp) (m_counters : Part.counters ∈ fp) (m_out : Part.out ∈ fp) (m_fresh : Part.fresh ∈ fp) :
    Same fp s₀ (State.moveEnds page m ups r) := by
  simp only [State.moveEnds]
  (repeat' split) <;> simp (maxDischargeDepth := 60) [h, m_glb, m_flash, m_blocks, m_regions, m_queues, m_tensors, m_mem, m_gov, m_upd, m_drv, m_ports, m_hci, m_eng, m_err, m_age, m_trc, m_counters, m_out, m_fresh]

/-! ## Vector -/

@[simp] theorem vecRun_same {s₀ s : State} {fp : List Part} (c : Ctx) (h : Same fp s₀ s) (m_blocks : Part.blocks ∈ fp) (m_tensors : Part.tensors ∈ fp) (m_mem : Part.mem ∈ fp) (m_counters : Part.counters ∈ fp) : Same fp s₀ ((vecRun c s).s) := by unfold vecRun; simp (maxDischargeDepth := 40) [h, m_blocks, m_tensors, m_mem, m_counters]

@[simp] theorem normRun_same {s₀ s : State} {fp : List Part} (c : Ctx) (h : Same fp s₀ s) (m_blocks : Part.blocks ∈ fp) (m_tensors : Part.tensors ∈ fp) (m_mem : Part.mem ∈ fp) (m_counters : Part.counters ∈ fp) : Same fp s₀ ((normRun c s).s) := by unfold normRun; simp (maxDischargeDepth := 40) [h, m_blocks, m_tensors, m_mem, m_counters]

@[simp] theorem softmaxRun_same {s₀ s : State} {fp : List Part} (c : Ctx) (h : Same fp s₀ s) (m_blocks : Part.blocks ∈ fp) (m_tensors : Part.tensors ∈ fp) (m_mem : Part.mem ∈ fp) (m_counters : Part.counters ∈ fp) : Same fp s₀ ((softmaxRun c s).s) := by
  simp only [softmaxRun]
  (repeat' split) <;> simp +contextual (maxDischargeDepth := 40) [h, m_blocks, m_tensors, m_mem, m_counters]

@[simp] theorem reduceRun_same {s₀ s : State} {fp : List Part} (c : Ctx) (h : Same fp s₀ s) (m_blocks : Part.blocks ∈ fp) (m_tensors : Part.tensors ∈ fp) (m_mem : Part.mem ∈ fp) (m_counters : Part.counters ∈ fp) : Same fp s₀ ((reduceRun c s).s) := by
  simp only [reduceRun]
  (repeat' split) <;> simp +contextual (maxDischargeDepth := 40) [h, m_blocks, m_tensors, m_mem, m_counters]

@[simp] theorem routeTopkRun_same {s₀ s : State} {fp : List Part} (c : Ctx) (h : Same fp s₀ s) (m_blocks : Part.blocks ∈ fp) (m_tensors : Part.tensors ∈ fp) (m_mem : Part.mem ∈ fp) (m_counters : Part.counters ∈ fp) : Same fp s₀ ((routeTopkRun c s).s) := by
  simp only [routeTopkRun]
  (repeat' split) <;> simp +contextual (maxDischargeDepth := 40) [h, m_blocks, m_tensors, m_mem, m_counters]

@[simp] theorem routeCountRun_same {s₀ s : State} {fp : List Part} (c : Ctx) (h : Same fp s₀ s) (m_blocks : Part.blocks ∈ fp) (m_tensors : Part.tensors ∈ fp) (m_mem : Part.mem ∈ fp) (m_counters : Part.counters ∈ fp) : Same fp s₀ ((routeCountRun c s).s) := by unfold routeCountRun; simp (maxDischargeDepth := 40) [h, m_blocks, m_tensors, m_mem, m_counters]

@[simp] theorem convertRun_same {s₀ s : State} {fp : List Part} (c : Ctx) (h : Same fp s₀ s) (m_blocks : Part.blocks ∈ fp) (m_tensors : Part.tensors ∈ fp) (m_mem : Part.mem ∈ fp) (m_counters : Part.counters ∈ fp) : Same fp s₀ ((convertRun c s).s) := by
  simp only [convertRun]
  (repeat' split) <;> simp +contextual (maxDischargeDepth := 40) [h, m_blocks, m_tensors, m_mem, m_counters]

@[simp] theorem rngRun_same {s₀ s : State} {fp : List Part} (c : Ctx) (h : Same fp s₀ s) (m_blocks : Part.blocks ∈ fp) (m_tensors : Part.tensors ∈ fp) (m_mem : Part.mem ∈ fp) (m_counters : Part.counters ∈ fp) : Same fp s₀ ((rngRun c s).s) := by unfold rngRun; simp (maxDischargeDepth := 40) [h, m_blocks, m_tensors, m_mem, m_counters]

@[simp] theorem xentRun_same {s₀ s : State} {fp : List Part} (c : Ctx) (h : Same fp s₀ s) (m_flash : Part.flash ∈ fp) (m_blocks : Part.blocks ∈ fp) (m_regions : Part.regions ∈ fp) (m_tensors : Part.tensors ∈ fp) (m_mem : Part.mem ∈ fp) (m_err : Part.err ∈ fp) (m_trc : Part.trc ∈ fp) (m_counters : Part.counters ∈ fp) (m_fresh : Part.fresh ∈ fp) : Same fp s₀ ((xentRun c s).s) := by
  simp only [xentRun]
  (repeat' split) <;> simp +contextual (maxDischargeDepth := 40) [h, m_flash, m_blocks, m_regions, m_tensors, m_mem, m_err, m_trc, m_counters, m_fresh]

@[simp] theorem mseRun_same {s₀ s : State} {fp : List Part} (c : Ctx) (h : Same fp s₀ s) (m_blocks : Part.blocks ∈ fp) (m_tensors : Part.tensors ∈ fp) (m_mem : Part.mem ∈ fp) (m_counters : Part.counters ∈ fp) : Same fp s₀ ((mseRun c s).s) := by unfold mseRun; simp (maxDischargeDepth := 40) [h, m_blocks, m_tensors, m_mem, m_counters]

@[simp] theorem lossRun_same {s₀ s : State} {fp : List Part} (c : Ctx) (h : Same fp s₀ s) (m_flash : Part.flash ∈ fp) (m_blocks : Part.blocks ∈ fp) (m_regions : Part.regions ∈ fp) (m_tensors : Part.tensors ∈ fp) (m_mem : Part.mem ∈ fp) (m_err : Part.err ∈ fp) (m_trc : Part.trc ∈ fp) (m_counters : Part.counters ∈ fp) (m_fresh : Part.fresh ∈ fp) : Same fp s₀ ((lossRun c s).s) := by
  simp only [lossRun]
  (repeat' split) <;> simp +contextual (maxDischargeDepth := 40) [h, m_flash, m_blocks, m_regions, m_tensors, m_mem, m_err, m_trc, m_counters, m_fresh]

/-! ## Step -/

@[simp] theorem idle_same {s₀ s : State} {fp : List Part} (h : Same fp s₀ s) (m_board : Part.board ∈ fp) (m_glb : Part.glb ∈ fp) (m_cdc : Part.cdc ∈ fp) (m_flash : Part.flash ∈ fp) (m_job : Part.job ∈ fp) (m_blocks : Part.blocks ∈ fp) (m_regions : Part.regions ∈ fp) (m_queues : Part.queues ∈ fp) (m_tensors : Part.tensors ∈ fp) (m_mem : Part.mem ∈ fp) (m_gov : Part.gov ∈ fp) (m_upd : Part.upd ∈ fp) (m_drv : Part.drv ∈ fp) (m_ports : Part.ports ∈ fp) (m_hci : Part.hci ∈ fp) (m_pwr : Part.pwr ∈ fp) (m_eng : Part.eng ∈ fp) (m_err : Part.err ∈ fp) (m_age : Part.age ∈ fp) (m_trc : Part.trc ∈ fp) (m_stop : Part.stop ∈ fp) (m_counters : Part.counters ∈ fp) (m_clearTime : Part.clearTime ∈ fp) (m_out : Part.out ∈ fp) (m_fresh : Part.fresh ∈ fp) : Same fp s₀ (idle s) := by unfold idle; simp (maxDischargeDepth := 40) [h, m_board, m_glb, m_cdc, m_flash, m_job, m_blocks, m_regions, m_queues, m_tensors, m_mem, m_gov, m_upd, m_drv, m_ports, m_hci, m_pwr, m_eng, m_err, m_age, m_trc, m_stop, m_counters, m_clearTime, m_out, m_fresh]

end Sys2Proof.Machine
end

