-- ==== Sys2Proof/Laws/FrameExec.lean ====
section
/-! SUPPORT. The frame of each command, one lemma a meaning. -/

namespace Sys2Proof.Machine

set_option linter.unusedSimpArgs false
set_option linter.unusedVariables false

/-! ## Exec -/

theorem execSealLayer_same {s t : State} {fp : List Part} (f : Fire) (m_glb : Part.glb ∈ fp) (m_flash : Part.flash ∈ fp) (m_blocks : Part.blocks ∈ fp) (m_regions : Part.regions ∈ fp) (m_ports : Part.ports ∈ fp) (m_hci : Part.hci ∈ fp) (m_eng : Part.eng ∈ fp) (m_err : Part.err ∈ fp) (m_age : Part.age ∈ fp) (m_trc : Part.trc ∈ fp) (m_counters : Part.counters ∈ fp) (m_out : Part.out ∈ fp) (m_fresh : Part.fresh ∈ fp) (e : execSealLayer f s = .next t) : Same fp s t := by
  have h := Same.refl fp s
  simp only [execSealLayer] at e
  (repeat' split at e) <;> (simp only [Host.Outcome.next.injEq] at e; subst e; simp +contextual (maxDischargeDepth := 60) [h, m_glb, m_flash, m_blocks, m_regions, m_ports, m_hci, m_eng, m_err, m_age, m_trc, m_counters, m_out, m_fresh])

theorem execTallyRecords_same {s t : State} {fp : List Part} (region : Nat) (layer : Nat) (m_regions : Part.regions ∈ fp) (e : execTallyRecords region layer s = .next t) : Same fp s t := by
  have h := Same.refl fp s
  simp only [execTallyRecords] at e
  (repeat' split at e) <;> (simp only [Host.Outcome.next.injEq] at e; subst e; simp +contextual (maxDischargeDepth := 60) [h, m_regions])

theorem execLayerVerdict_same {s t : State} {fp : List Part} (layer : Nat) (m_blocks : Part.blocks ∈ fp) (m_regions : Part.regions ∈ fp) (m_queues : Part.queues ∈ fp) (m_tensors : Part.tensors ∈ fp) (m_mem : Part.mem ∈ fp) (m_gov : Part.gov ∈ fp) (m_trc : Part.trc ∈ fp) (m_counters : Part.counters ∈ fp) (m_fresh : Part.fresh ∈ fp) (e : execLayerVerdict layer s = .next t) : Same fp s t := by
  have h := Same.refl fp s
  simp only [execLayerVerdict] at e
  (repeat' split at e) <;> (simp only [Host.Outcome.next.injEq] at e; subst e; simp +contextual (maxDischargeDepth := 60) [h, m_blocks, m_regions, m_queues, m_tensors, m_mem, m_gov, m_trc, m_counters, m_fresh])

theorem execSealStep_same {s t : State} {fp : List Part} (f : Fire) (m_glb : Part.glb ∈ fp) (m_flash : Part.flash ∈ fp) (m_blocks : Part.blocks ∈ fp) (m_regions : Part.regions ∈ fp) (m_queues : Part.queues ∈ fp) (m_tensors : Part.tensors ∈ fp) (m_ports : Part.ports ∈ fp) (m_hci : Part.hci ∈ fp) (m_eng : Part.eng ∈ fp) (m_err : Part.err ∈ fp) (m_age : Part.age ∈ fp) (m_trc : Part.trc ∈ fp) (m_counters : Part.counters ∈ fp) (m_out : Part.out ∈ fp) (m_fresh : Part.fresh ∈ fp) (e : execSealStep f s = .next t) : Same fp s t := by
  have h := Same.refl fp s
  simp only [execSealStep] at e
  (repeat' split at e) <;> (simp only [Host.Outcome.next.injEq] at e; subst e; simp +contextual (maxDischargeDepth := 60) [h, m_glb, m_flash, m_blocks, m_regions, m_queues, m_tensors, m_ports, m_hci, m_eng, m_err, m_age, m_trc, m_counters, m_out, m_fresh])

theorem execLayerSwitch_same {s t : State} {fp : List Part} (blk : Nat) (m_blocks : Part.blocks ∈ fp) (e : execLayerSwitch blk s = .next t) : Same fp s t := by
  have h := Same.refl fp s
  simp only [execLayerSwitch] at e
  (repeat' split at e) <;> (simp only [Host.Outcome.next.injEq] at e; subst e; simp +contextual (maxDischargeDepth := 60) [h, m_blocks])

theorem execPrefetchComplete_same {s t : State} {fp : List Part} (blk : Nat) (tensor : Met Nat) (m_flash : Part.flash ∈ fp) (m_blocks : Part.blocks ∈ fp) (m_regions : Part.regions ∈ fp) (m_tensors : Part.tensors ∈ fp) (m_mem : Part.mem ∈ fp) (m_err : Part.err ∈ fp) (m_trc : Part.trc ∈ fp) (m_counters : Part.counters ∈ fp) (m_fresh : Part.fresh ∈ fp) (e : execPrefetchComplete blk tensor s = .next t) : Same fp s t := by
  have h := Same.refl fp s
  simp only [execPrefetchComplete] at e
  (repeat' split at e) <;> (simp only [Host.Outcome.next.injEq] at e; subst e; simp +contextual (maxDischargeDepth := 60) [h, m_flash, m_blocks, m_regions, m_tensors, m_mem, m_err, m_trc, m_counters, m_fresh])

theorem execModuleStepSeal_same {s t : State} {fp : List Part} (m_regions : Part.regions ∈ fp) (m_gov : Part.gov ∈ fp) (m_eng : Part.eng ∈ fp) (m_age : Part.age ∈ fp) (m_trc : Part.trc ∈ fp) (m_counters : Part.counters ∈ fp) (e : execModuleStepSeal s = .next t) : Same fp s t := by
  have h := Same.refl fp s
  simp only [execModuleStepSeal] at e
  (repeat' split at e) <;> (simp only [Host.Outcome.next.injEq] at e; subst e; simp +contextual (maxDischargeDepth := 60) [h, m_regions, m_gov, m_eng, m_age, m_trc, m_counters])

theorem execFormatChangeEffect_same {s t : State} {fp : List Part} (m_flash : Part.flash ∈ fp) (m_regions : Part.regions ∈ fp) (m_tensors : Part.tensors ∈ fp) (m_gov : Part.gov ∈ fp) (e : execFormatChangeEffect s = .next t) : Same fp s t := by
  have h := Same.refl fp s
  simp only [execFormatChangeEffect] at e
  (repeat' split at e) <;> (simp only [Host.Outcome.next.injEq] at e; subst e; simp +contextual (maxDischargeDepth := 60) [h, m_flash, m_regions, m_tensors, m_gov])

theorem execQueueSquash_same {s t : State} {fp : List Part} (m_blocks : Part.blocks ∈ fp) (m_regions : Part.regions ∈ fp) (m_queues : Part.queues ∈ fp) (m_tensors : Part.tensors ∈ fp) (m_mem : Part.mem ∈ fp) (m_gov : Part.gov ∈ fp) (m_counters : Part.counters ∈ fp) (e : execQueueSquash s = .next t) : Same fp s t := by
  have h := Same.refl fp s
  simp only [execQueueSquash] at e
  (repeat' split at e) <;> (simp only [Host.Outcome.next.injEq] at e; subst e; simp +contextual (maxDischargeDepth := 60) [h, m_blocks, m_regions, m_queues, m_tensors, m_mem, m_gov, m_counters])

theorem execVecCopy_same {s t : State} {fp : List Part} (f : Fire) (m_glb : Part.glb ∈ fp) (m_flash : Part.flash ∈ fp) (m_blocks : Part.blocks ∈ fp) (m_regions : Part.regions ∈ fp) (m_queues : Part.queues ∈ fp) (m_tensors : Part.tensors ∈ fp) (m_mem : Part.mem ∈ fp) (m_ports : Part.ports ∈ fp) (m_hci : Part.hci ∈ fp) (m_eng : Part.eng ∈ fp) (m_err : Part.err ∈ fp) (m_age : Part.age ∈ fp) (m_trc : Part.trc ∈ fp) (m_counters : Part.counters ∈ fp) (m_out : Part.out ∈ fp) (m_fresh : Part.fresh ∈ fp) (e : execVecCopy f s = .next t) : Same fp s t := by
  have h := Same.refl fp s
  simp only [execVecCopy, Host.Outcome.next.injEq] at e
  subst e
  simp +contextual (maxDischargeDepth := 60) [h, m_glb, m_flash, m_blocks, m_regions, m_queues, m_tensors, m_mem, m_ports, m_hci, m_eng, m_err, m_age, m_trc, m_counters, m_out, m_fresh]

theorem execGather_same {s t : State} {fp : List Part} (f : Fire) (m_glb : Part.glb ∈ fp) (m_flash : Part.flash ∈ fp) (m_blocks : Part.blocks ∈ fp) (m_regions : Part.regions ∈ fp) (m_queues : Part.queues ∈ fp) (m_tensors : Part.tensors ∈ fp) (m_mem : Part.mem ∈ fp) (m_ports : Part.ports ∈ fp) (m_hci : Part.hci ∈ fp) (m_eng : Part.eng ∈ fp) (m_err : Part.err ∈ fp) (m_age : Part.age ∈ fp) (m_trc : Part.trc ∈ fp) (m_counters : Part.counters ∈ fp) (m_out : Part.out ∈ fp) (m_fresh : Part.fresh ∈ fp) (e : execGather f s = .next t) : Same fp s t := by
  have h := Same.refl fp s
  simp only [execGather, Host.Outcome.next.injEq] at e
  subst e
  simp +contextual (maxDischargeDepth := 60) [h, m_glb, m_flash, m_blocks, m_regions, m_queues, m_tensors, m_mem, m_ports, m_hci, m_eng, m_err, m_age, m_trc, m_counters, m_out, m_fresh]

theorem execScatterAdd_same {s t : State} {fp : List Part} (f : Fire) (m_glb : Part.glb ∈ fp) (m_flash : Part.flash ∈ fp) (m_blocks : Part.blocks ∈ fp) (m_regions : Part.regions ∈ fp) (m_queues : Part.queues ∈ fp) (m_tensors : Part.tensors ∈ fp) (m_mem : Part.mem ∈ fp) (m_ports : Part.ports ∈ fp) (m_hci : Part.hci ∈ fp) (m_eng : Part.eng ∈ fp) (m_err : Part.err ∈ fp) (m_age : Part.age ∈ fp) (m_trc : Part.trc ∈ fp) (m_counters : Part.counters ∈ fp) (m_out : Part.out ∈ fp) (m_fresh : Part.fresh ∈ fp) (e : execScatterAdd f s = .next t) : Same fp s t := by
  have h := Same.refl fp s
  simp only [execScatterAdd, Host.Outcome.next.injEq] at e
  subst e
  simp +contextual (maxDischargeDepth := 60) [h, m_glb, m_flash, m_blocks, m_regions, m_queues, m_tensors, m_mem, m_ports, m_hci, m_eng, m_err, m_age, m_trc, m_counters, m_out, m_fresh]

theorem execSend_same {s t : State} {fp : List Part} (f : Fire) (m_glb : Part.glb ∈ fp) (m_flash : Part.flash ∈ fp) (m_blocks : Part.blocks ∈ fp) (m_regions : Part.regions ∈ fp) (m_queues : Part.queues ∈ fp) (m_tensors : Part.tensors ∈ fp) (m_mem : Part.mem ∈ fp) (m_ports : Part.ports ∈ fp) (m_hci : Part.hci ∈ fp) (m_eng : Part.eng ∈ fp) (m_err : Part.err ∈ fp) (m_age : Part.age ∈ fp) (m_trc : Part.trc ∈ fp) (m_counters : Part.counters ∈ fp) (m_out : Part.out ∈ fp) (m_fresh : Part.fresh ∈ fp) (e : execSend f s = .next t) : Same fp s t := by
  have h := Same.refl fp s
  simp only [execSend, Host.Outcome.next.injEq] at e
  subst e
  simp +contextual (maxDischargeDepth := 60) [h, m_glb, m_flash, m_blocks, m_regions, m_queues, m_tensors, m_mem, m_ports, m_hci, m_eng, m_err, m_age, m_trc, m_counters, m_out, m_fresh]

theorem execRecv_same {s t : State} {fp : List Part} (f : Fire) (m_glb : Part.glb ∈ fp) (m_flash : Part.flash ∈ fp) (m_blocks : Part.blocks ∈ fp) (m_regions : Part.regions ∈ fp) (m_queues : Part.queues ∈ fp) (m_tensors : Part.tensors ∈ fp) (m_mem : Part.mem ∈ fp) (m_ports : Part.ports ∈ fp) (m_hci : Part.hci ∈ fp) (m_eng : Part.eng ∈ fp) (m_err : Part.err ∈ fp) (m_age : Part.age ∈ fp) (m_trc : Part.trc ∈ fp) (m_counters : Part.counters ∈ fp) (m_out : Part.out ∈ fp) (m_fresh : Part.fresh ∈ fp) (e : execRecv f s = .next t) : Same fp s t := by
  have h := Same.refl fp s
  simp only [execRecv, Host.Outcome.next.injEq] at e
  subst e
  simp +contextual (maxDischargeDepth := 60) [h, m_glb, m_flash, m_blocks, m_regions, m_queues, m_tensors, m_mem, m_ports, m_hci, m_eng, m_err, m_age, m_trc, m_counters, m_out, m_fresh]

theorem execCellRequest_same {s t : State} {fp : List Part} (queue : Nat) (who : Requester) (amount : Nat) (m_queues : Part.queues ∈ fp) (e : execCellRequest queue who amount s = .next t) : Same fp s t := by
  have h := Same.refl fp s
  simp only [execCellRequest] at e
  (repeat' split at e) <;> (simp only [Host.Outcome.next.injEq] at e; subst e; simp +contextual (maxDischargeDepth := 60) [h, m_queues])

theorem execCellGrant_same {s t : State} {fp : List Part} (queue : Nat) (m_regions : Part.regions ∈ fp) (m_queues : Part.queues ∈ fp) (m_drv : Part.drv ∈ fp) (m_ports : Part.ports ∈ fp) (m_hci : Part.hci ∈ fp) (m_trc : Part.trc ∈ fp) (m_counters : Part.counters ∈ fp) (m_out : Part.out ∈ fp) (m_fresh : Part.fresh ∈ fp) (e : execCellGrant queue s = .next t) : Same fp s t := by
  have h := Same.refl fp s
  simp only [execCellGrant, Host.Outcome.next.injEq] at e
  subst e
  simp +contextual (maxDischargeDepth := 60) [h, m_regions, m_queues, m_drv, m_ports, m_hci, m_trc, m_counters, m_out, m_fresh]

theorem execDataVisible_same {s t : State} {fp : List Part} (queue : Nat) (m_regions : Part.regions ∈ fp) (m_queues : Part.queues ∈ fp) (m_ports : Part.ports ∈ fp) (m_hci : Part.hci ∈ fp) (m_eng : Part.eng ∈ fp) (m_trc : Part.trc ∈ fp) (m_counters : Part.counters ∈ fp) (m_out : Part.out ∈ fp) (e : execDataVisible queue s = .next t) : Same fp s t := by
  have h := Same.refl fp s
  simp only [execDataVisible] at e
  (repeat' split at e) <;> (simp only [Host.Outcome.next.injEq] at e; subst e; simp +contextual (maxDischargeDepth := 60) [h, m_regions, m_queues, m_ports, m_hci, m_eng, m_trc, m_counters, m_out])

theorem execQueueReadTimeout_same {s t : State} {fp : List Part} (queue : Nat) (m_regions : Part.regions ∈ fp) (m_queues : Part.queues ∈ fp) (m_trc : Part.trc ∈ fp) (m_counters : Part.counters ∈ fp) (e : execQueueReadTimeout queue s = .next t) : Same fp s t := by
  have h := Same.refl fp s
  simp only [execQueueReadTimeout] at e
  (repeat' split at e) <;> (simp only [Host.Outcome.next.injEq] at e; subst e; simp +contextual (maxDischargeDepth := 60) [h, m_regions, m_queues, m_trc, m_counters])

theorem execEgressForward_same {s t : State} {fp : List Part} (queue : Nat) (ups : Upsets) (m_flash : Part.flash ∈ fp) (m_regions : Part.regions ∈ fp) (m_queues : Part.queues ∈ fp) (m_ports : Part.ports ∈ fp) (m_err : Part.err ∈ fp) (m_trc : Part.trc ∈ fp) (m_counters : Part.counters ∈ fp) (m_out : Part.out ∈ fp) (m_fresh : Part.fresh ∈ fp) (e : execEgressForward queue ups s = .next t) : Same fp s t := by
  have h := Same.refl fp s
  simp only [execEgressForward] at e
  (repeat' split at e) <;> (simp only [Host.Outcome.next.injEq] at e; subst e; simp +contextual (maxDischargeDepth := 60) [h, m_flash, m_regions, m_queues, m_ports, m_err, m_trc, m_counters, m_out, m_fresh])

theorem execDeadlock_same {s t : State} {fp : List Part} (m_flash : Part.flash ∈ fp) (m_regions : Part.regions ∈ fp) (m_err : Part.err ∈ fp) (m_trc : Part.trc ∈ fp) (m_counters : Part.counters ∈ fp) (m_fresh : Part.fresh ∈ fp) (e : execDeadlock s = .next t) : Same fp s t := by
  have h := Same.refl fp s
  simp only [execDeadlock] at e
  (repeat' split at e) <;> (simp only [Host.Outcome.next.injEq] at e; subst e; simp +contextual (maxDischargeDepth := 60) [h, m_flash, m_regions, m_err, m_trc, m_counters, m_fresh])

theorem execUpdateShard_same {s t : State} {fp : List Part} (region : Nat) (ups : Upsets) (m_flash : Part.flash ∈ fp) (m_blocks : Part.blocks ∈ fp) (m_regions : Part.regions ∈ fp) (m_tensors : Part.tensors ∈ fp) (m_mem : Part.mem ∈ fp) (m_gov : Part.gov ∈ fp) (m_upd : Part.upd ∈ fp) (m_drv : Part.drv ∈ fp) (m_ports : Part.ports ∈ fp) (m_err : Part.err ∈ fp) (m_trc : Part.trc ∈ fp) (m_counters : Part.counters ∈ fp) (m_out : Part.out ∈ fp) (m_fresh : Part.fresh ∈ fp) (e : execUpdateShard region ups s = .next t) : Same fp s t := by
  have h := Same.refl fp s
  simp only [execUpdateShard] at e
  (repeat' split at e) <;> (simp only [Host.Outcome.next.injEq] at e; subst e; simp +contextual (maxDischargeDepth := 60) [h, m_flash, m_blocks, m_regions, m_tensors, m_mem, m_gov, m_upd, m_drv, m_ports, m_err, m_trc, m_counters, m_out, m_fresh])

theorem execStepVote_same {s t : State} {fp : List Part} (m_flash : Part.flash ∈ fp) (m_blocks : Part.blocks ∈ fp) (m_regions : Part.regions ∈ fp) (m_queues : Part.queues ∈ fp) (m_tensors : Part.tensors ∈ fp) (m_gov : Part.gov ∈ fp) (m_upd : Part.upd ∈ fp) (m_drv : Part.drv ∈ fp) (m_ports : Part.ports ∈ fp) (m_eng : Part.eng ∈ fp) (m_err : Part.err ∈ fp) (m_trc : Part.trc ∈ fp) (m_counters : Part.counters ∈ fp) (m_out : Part.out ∈ fp) (m_fresh : Part.fresh ∈ fp) (e : execStepVote s = .next t) : Same fp s t := by
  have h := Same.refl fp s
  simp only [execStepVote] at e
  (repeat' split at e) <;> (simp only [Host.Outcome.next.injEq] at e; subst e; simp +contextual (maxDischargeDepth := 60) [h, m_flash, m_blocks, m_regions, m_queues, m_tensors, m_gov, m_upd, m_drv, m_ports, m_eng, m_err, m_trc, m_counters, m_out, m_fresh])

theorem execVote_same {s t : State} {fp : List Part} (port : Nat) (m : DMsg) (m_flash : Part.flash ∈ fp) (m_blocks : Part.blocks ∈ fp) (m_regions : Part.regions ∈ fp) (m_queues : Part.queues ∈ fp) (m_tensors : Part.tensors ∈ fp) (m_gov : Part.gov ∈ fp) (m_upd : Part.upd ∈ fp) (m_drv : Part.drv ∈ fp) (m_ports : Part.ports ∈ fp) (m_hci : Part.hci ∈ fp) (m_eng : Part.eng ∈ fp) (m_err : Part.err ∈ fp) (m_trc : Part.trc ∈ fp) (m_counters : Part.counters ∈ fp) (m_out : Part.out ∈ fp) (m_fresh : Part.fresh ∈ fp) (e : execVote port m s = .next t) : Same fp s t := by
  have h := Same.refl fp s
  simp only [execVote, Host.Outcome.next.injEq] at e
  subst e
  simp +contextual (maxDischargeDepth := 60) [h, m_flash, m_blocks, m_regions, m_queues, m_tensors, m_gov, m_upd, m_drv, m_ports, m_hci, m_eng, m_err, m_trc, m_counters, m_out, m_fresh]

theorem execVerdict_same {s t : State} {fp : List Part} (port : Nat) (m : DMsg) (m_flash : Part.flash ∈ fp) (m_blocks : Part.blocks ∈ fp) (m_regions : Part.regions ∈ fp) (m_queues : Part.queues ∈ fp) (m_tensors : Part.tensors ∈ fp) (m_gov : Part.gov ∈ fp) (m_upd : Part.upd ∈ fp) (m_drv : Part.drv ∈ fp) (m_ports : Part.ports ∈ fp) (m_hci : Part.hci ∈ fp) (m_eng : Part.eng ∈ fp) (m_err : Part.err ∈ fp) (m_trc : Part.trc ∈ fp) (m_counters : Part.counters ∈ fp) (m_out : Part.out ∈ fp) (m_fresh : Part.fresh ∈ fp) (e : execVerdict port m s = .next t) : Same fp s t := by
  have h := Same.refl fp s
  simp only [execVerdict, Host.Outcome.next.injEq] at e
  subst e
  simp +contextual (maxDischargeDepth := 60) [h, m_flash, m_blocks, m_regions, m_queues, m_tensors, m_gov, m_upd, m_drv, m_ports, m_hci, m_eng, m_err, m_trc, m_counters, m_out, m_fresh]

theorem execSnapshotCopy_same {s t : State} {fp : List Part} (ups : Upsets) (m_flash : Part.flash ∈ fp) (m_regions : Part.regions ∈ fp) (m_mem : Part.mem ∈ fp) (m_upd : Part.upd ∈ fp) (m_ports : Part.ports ∈ fp) (m_hci : Part.hci ∈ fp) (m_eng : Part.eng ∈ fp) (m_err : Part.err ∈ fp) (m_trc : Part.trc ∈ fp) (m_counters : Part.counters ∈ fp) (m_out : Part.out ∈ fp) (m_fresh : Part.fresh ∈ fp) (e : execSnapshotCopy ups s = .next t) : Same fp s t := by
  have h := Same.refl fp s
  simp only [execSnapshotCopy] at e
  (repeat' split at e) <;> (simp only [Host.Outcome.next.injEq] at e; subst e; simp +contextual (maxDischargeDepth := 60) [h, m_flash, m_regions, m_mem, m_upd, m_ports, m_hci, m_eng, m_err, m_trc, m_counters, m_out, m_fresh])

theorem execBucketFill_same {s t : State} {fp : List Part} (layer : Nat) (chunk : Nat) (ups : Upsets) (m_flash : Part.flash ∈ fp) (m_blocks : Part.blocks ∈ fp) (m_regions : Part.regions ∈ fp) (m_gov : Part.gov ∈ fp) (m_drv : Part.drv ∈ fp) (m_ports : Part.ports ∈ fp) (m_err : Part.err ∈ fp) (m_trc : Part.trc ∈ fp) (m_counters : Part.counters ∈ fp) (m_out : Part.out ∈ fp) (m_fresh : Part.fresh ∈ fp) (e : execBucketFill layer chunk ups s = .next t) : Same fp s t := by
  have h := Same.refl fp s
  simp only [execBucketFill] at e
  (repeat' split at e) <;> (simp only [Host.Outcome.next.injEq] at e; subst e; simp +contextual (maxDischargeDepth := 60) [h, m_flash, m_blocks, m_regions, m_gov, m_drv, m_ports, m_err, m_trc, m_counters, m_out, m_fresh])

theorem execHead_same {s t : State} {fp : List Part} (port : Nat) (m : DMsg) (m_flash : Part.flash ∈ fp) (m_regions : Part.regions ∈ fp) (m_drv : Part.drv ∈ fp) (m_ports : Part.ports ∈ fp) (m_hci : Part.hci ∈ fp) (m_err : Part.err ∈ fp) (m_trc : Part.trc ∈ fp) (m_counters : Part.counters ∈ fp) (m_out : Part.out ∈ fp) (m_fresh : Part.fresh ∈ fp) (e : execHead port m s = .next t) : Same fp s t := by
  have h := Same.refl fp s
  simp only [execHead, Host.Outcome.next.injEq] at e
  subst e
  simp +contextual (maxDischargeDepth := 60) [h, m_flash, m_regions, m_drv, m_ports, m_hci, m_err, m_trc, m_counters, m_out, m_fresh]

theorem execGrant_same {s t : State} {fp : List Part} (port : Nat) (m : DMsg) (m_flash : Part.flash ∈ fp) (m_blocks : Part.blocks ∈ fp) (m_regions : Part.regions ∈ fp) (m_tensors : Part.tensors ∈ fp) (m_mem : Part.mem ∈ fp) (m_upd : Part.upd ∈ fp) (m_drv : Part.drv ∈ fp) (m_ports : Part.ports ∈ fp) (m_hci : Part.hci ∈ fp) (m_err : Part.err ∈ fp) (m_trc : Part.trc ∈ fp) (m_counters : Part.counters ∈ fp) (m_out : Part.out ∈ fp) (m_fresh : Part.fresh ∈ fp) (e : execGrant port m s = .next t) : Same fp s t := by
  have h := Same.refl fp s
  simp only [execGrant, Host.Outcome.next.injEq] at e
  subst e
  simp +contextual (maxDischargeDepth := 60) [h, m_flash, m_blocks, m_regions, m_tensors, m_mem, m_upd, m_drv, m_ports, m_hci, m_err, m_trc, m_counters, m_out, m_fresh]

theorem execGrad_same {s t : State} {fp : List Part} (port : Nat) (m : DMsg) (m_flash : Part.flash ∈ fp) (m_blocks : Part.blocks ∈ fp) (m_regions : Part.regions ∈ fp) (m_tensors : Part.tensors ∈ fp) (m_mem : Part.mem ∈ fp) (m_upd : Part.upd ∈ fp) (m_drv : Part.drv ∈ fp) (m_ports : Part.ports ∈ fp) (m_hci : Part.hci ∈ fp) (m_err : Part.err ∈ fp) (m_trc : Part.trc ∈ fp) (m_counters : Part.counters ∈ fp) (m_out : Part.out ∈ fp) (m_fresh : Part.fresh ∈ fp) (e : execGrad port m s = .next t) : Same fp s t := by
  have h := Same.refl fp s
  simp only [execGrad, Host.Outcome.next.injEq] at e
  subst e
  simp +contextual (maxDischargeDepth := 60) [h, m_flash, m_blocks, m_regions, m_tensors, m_mem, m_upd, m_drv, m_ports, m_hci, m_err, m_trc, m_counters, m_out, m_fresh]

theorem execRing_same {s t : State} {fp : List Part} (port : Nat) (m : DMsg) (m_flash : Part.flash ∈ fp) (m_blocks : Part.blocks ∈ fp) (m_regions : Part.regions ∈ fp) (m_tensors : Part.tensors ∈ fp) (m_mem : Part.mem ∈ fp) (m_upd : Part.upd ∈ fp) (m_drv : Part.drv ∈ fp) (m_ports : Part.ports ∈ fp) (m_hci : Part.hci ∈ fp) (m_err : Part.err ∈ fp) (m_trc : Part.trc ∈ fp) (m_counters : Part.counters ∈ fp) (m_out : Part.out ∈ fp) (m_fresh : Part.fresh ∈ fp) (e : execRing port m s = .next t) : Same fp s t := by
  have h := Same.refl fp s
  simp only [execRing, Host.Outcome.next.injEq] at e
  subst e
  simp +contextual (maxDischargeDepth := 60) [h, m_flash, m_blocks, m_regions, m_tensors, m_mem, m_upd, m_drv, m_ports, m_hci, m_err, m_trc, m_counters, m_out, m_fresh]

theorem execRingFinal_same {s t : State} {fp : List Part} (port : Nat) (m : DMsg) (m_flash : Part.flash ∈ fp) (m_blocks : Part.blocks ∈ fp) (m_regions : Part.regions ∈ fp) (m_tensors : Part.tensors ∈ fp) (m_mem : Part.mem ∈ fp) (m_upd : Part.upd ∈ fp) (m_drv : Part.drv ∈ fp) (m_ports : Part.ports ∈ fp) (m_hci : Part.hci ∈ fp) (m_err : Part.err ∈ fp) (m_trc : Part.trc ∈ fp) (m_counters : Part.counters ∈ fp) (m_out : Part.out ∈ fp) (m_fresh : Part.fresh ∈ fp) (e : execRingFinal port m s = .next t) : Same fp s t := by
  have h := Same.refl fp s
  simp only [execRingFinal, Host.Outcome.next.injEq] at e
  subst e
  simp +contextual (maxDischargeDepth := 60) [h, m_flash, m_blocks, m_regions, m_tensors, m_mem, m_upd, m_drv, m_ports, m_hci, m_err, m_trc, m_counters, m_out, m_fresh]

theorem execParam_same {s t : State} {fp : List Part} (port : Nat) (m : Met DMsg) (m_flash : Part.flash ∈ fp) (m_blocks : Part.blocks ∈ fp) (m_regions : Part.regions ∈ fp) (m_tensors : Part.tensors ∈ fp) (m_mem : Part.mem ∈ fp) (m_upd : Part.upd ∈ fp) (m_drv : Part.drv ∈ fp) (m_ports : Part.ports ∈ fp) (m_hci : Part.hci ∈ fp) (m_err : Part.err ∈ fp) (m_trc : Part.trc ∈ fp) (m_counters : Part.counters ∈ fp) (m_out : Part.out ∈ fp) (m_fresh : Part.fresh ∈ fp) (e : execParam port m s = .next t) : Same fp s t := by
  have h := Same.refl fp s
  simp only [execParam, Host.Outcome.next.injEq] at e
  subst e
  simp +contextual (maxDischargeDepth := 60) [h, m_flash, m_blocks, m_regions, m_tensors, m_mem, m_upd, m_drv, m_ports, m_hci, m_err, m_trc, m_counters, m_out, m_fresh]

theorem execBadDroverMessage_same {s t : State} {fp : List Part} (port : Nat) (m : DMsg) (m_flash : Part.flash ∈ fp) (m_regions : Part.regions ∈ fp) (m_drv : Part.drv ∈ fp) (m_ports : Part.ports ∈ fp) (m_hci : Part.hci ∈ fp) (m_err : Part.err ∈ fp) (m_trc : Part.trc ∈ fp) (m_counters : Part.counters ∈ fp) (m_fresh : Part.fresh ∈ fp) (e : execBadDroverMessage port m s = .next t) : Same fp s t := by
  have h := Same.refl fp s
  simp only [execBadDroverMessage] at e
  (repeat' split at e) <;> (simp only [Host.Outcome.next.injEq] at e; subst e; simp +contextual (maxDischargeDepth := 60) [h, m_flash, m_regions, m_drv, m_ports, m_hci, m_err, m_trc, m_counters, m_fresh])

theorem execNakResendTimer_same {s t : State} {fp : List Part} (port : Nat) (m_ports : Part.ports ∈ fp) (m_counters : Part.counters ∈ fp) (m_out : Part.out ∈ fp) (e : execNakResendTimer port s = .next t) : Same fp s t := by
  have h := Same.refl fp s
  simp only [execNakResendTimer, Host.Outcome.next.injEq] at e
  subst e
  simp +contextual (maxDischargeDepth := 60) [h, m_ports, m_counters, m_out]

theorem execAckTimeout_same {s t : State} {fp : List Part} (port : Nat) (m_flash : Part.flash ∈ fp) (m_regions : Part.regions ∈ fp) (m_ports : Part.ports ∈ fp) (m_hci : Part.hci ∈ fp) (m_eng : Part.eng ∈ fp) (m_err : Part.err ∈ fp) (m_trc : Part.trc ∈ fp) (m_counters : Part.counters ∈ fp) (m_out : Part.out ∈ fp) (m_fresh : Part.fresh ∈ fp) (e : execAckTimeout port s = .next t) : Same fp s t := by
  have h := Same.refl fp s
  simp only [execAckTimeout, Host.Outcome.next.injEq] at e
  subst e
  simp +contextual (maxDischargeDepth := 60) [h, m_flash, m_regions, m_ports, m_hci, m_eng, m_err, m_trc, m_counters, m_out, m_fresh]

theorem execSignalDetect_same {s t : State} {fp : List Part} (port : Nat) (m_ports : Part.ports ∈ fp) (e : execSignalDetect port s = .next t) : Same fp s t := by
  have h := Same.refl fp s
  simp only [execSignalDetect, Host.Outcome.next.injEq] at e
  subst e
  simp +contextual (maxDischargeDepth := 60) [h, m_ports]

theorem execFecLock_same {s t : State} {fp : List Part} (port : Nat) (m_ports : Part.ports ∈ fp) (m_counters : Part.counters ∈ fp) (m_out : Part.out ∈ fp) (e : execFecLock port s = .next t) : Same fp s t := by
  have h := Same.refl fp s
  simp only [execFecLock, Host.Outcome.next.injEq] at e
  subst e
  simp +contextual (maxDischargeDepth := 60) [h, m_ports, m_counters, m_out]

theorem execHelloTimer_same {s t : State} {fp : List Part} (port : Nat) (m_ports : Part.ports ∈ fp) (m_counters : Part.counters ∈ fp) (m_out : Part.out ∈ fp) (e : execHelloTimer port s = .next t) : Same fp s t := by
  have h := Same.refl fp s
  simp only [execHelloTimer, Host.Outcome.next.injEq] at e
  subst e
  simp +contextual (maxDischargeDepth := 60) [h, m_ports, m_counters, m_out]

theorem execHello_same {s t : State} {fp : List Part} (port : Nat) (h0 : Hello) (m_flash : Part.flash ∈ fp) (m_regions : Part.regions ∈ fp) (m_ports : Part.ports ∈ fp) (m_hci : Part.hci ∈ fp) (m_eng : Part.eng ∈ fp) (m_err : Part.err ∈ fp) (m_trc : Part.trc ∈ fp) (m_counters : Part.counters ∈ fp) (m_out : Part.out ∈ fp) (m_fresh : Part.fresh ∈ fp) (e : execHello port h0 s = .next t) : Same fp s t := by
  have h := Same.refl fp s
  simp only [execHello, Host.Outcome.next.injEq] at e
  subst e
  simp +contextual (maxDischargeDepth := 60) [h, m_flash, m_regions, m_ports, m_hci, m_eng, m_err, m_trc, m_counters, m_out, m_fresh]

theorem execFlitBlock_same {s t : State} {fp : List Part} (port : Nat) (bytes : List Byte) (fecBad : Bool) (m_flash : Part.flash ∈ fp) (m_regions : Part.regions ∈ fp) (m_ports : Part.ports ∈ fp) (m_hci : Part.hci ∈ fp) (m_eng : Part.eng ∈ fp) (m_err : Part.err ∈ fp) (m_trc : Part.trc ∈ fp) (m_counters : Part.counters ∈ fp) (m_out : Part.out ∈ fp) (m_fresh : Part.fresh ∈ fp) (e : execFlitBlock port bytes fecBad s = .next t) : Same fp s t := by
  have h := Same.refl fp s
  simp only [execFlitBlock] at e
  (repeat' split at e) <;> (simp only [Host.Outcome.next.injEq] at e; subst e; simp +contextual (maxDischargeDepth := 60) [h, m_flash, m_regions, m_ports, m_hci, m_eng, m_err, m_trc, m_counters, m_out, m_fresh])

theorem execLinkTrainingTimeout_same {s t : State} {fp : List Part} (port : Nat) (m_flash : Part.flash ∈ fp) (m_regions : Part.regions ∈ fp) (m_ports : Part.ports ∈ fp) (m_hci : Part.hci ∈ fp) (m_eng : Part.eng ∈ fp) (m_err : Part.err ∈ fp) (m_trc : Part.trc ∈ fp) (m_counters : Part.counters ∈ fp) (m_out : Part.out ∈ fp) (m_fresh : Part.fresh ∈ fp) (e : execLinkTrainingTimeout port s = .next t) : Same fp s t := by
  have h := Same.refl fp s
  simp only [execLinkTrainingTimeout, Host.Outcome.next.injEq] at e
  subst e
  simp +contextual (maxDischargeDepth := 60) [h, m_flash, m_regions, m_ports, m_hci, m_eng, m_err, m_trc, m_counters, m_out, m_fresh]

theorem execLinkRetry_same {s t : State} {fp : List Part} (port : Nat) (m_ports : Part.ports ∈ fp) (e : execLinkRetry port s = .next t) : Same fp s t := by
  have h := Same.refl fp s
  simp only [execLinkRetry, Host.Outcome.next.injEq] at e
  subst e
  simp +contextual (maxDischargeDepth := 60) [h, m_ports]

theorem execFastRetrain_same {s t : State} {fp : List Part} (port : Nat) (m_flash : Part.flash ∈ fp) (m_regions : Part.regions ∈ fp) (m_ports : Part.ports ∈ fp) (m_hci : Part.hci ∈ fp) (m_eng : Part.eng ∈ fp) (m_err : Part.err ∈ fp) (m_trc : Part.trc ∈ fp) (m_counters : Part.counters ∈ fp) (m_out : Part.out ∈ fp) (m_fresh : Part.fresh ∈ fp) (e : execFastRetrain port s = .next t) : Same fp s t := by
  have h := Same.refl fp s
  simp only [execFastRetrain, Host.Outcome.next.injEq] at e
  subst e
  simp +contextual (maxDischargeDepth := 60) [h, m_flash, m_regions, m_ports, m_hci, m_eng, m_err, m_trc, m_counters, m_out, m_fresh]

theorem execLossOfSignal_same {s t : State} {fp : List Part} (port : Nat) (m_ports : Part.ports ∈ fp) (m_counters : Part.counters ∈ fp) (e : execLossOfSignal port s = .next t) : Same fp s t := by
  have h := Same.refl fp s
  simp only [execLossOfSignal, Host.Outcome.next.injEq] at e
  subst e
  simp +contextual (maxDischargeDepth := 60) [h, m_ports, m_counters]

theorem execRetrainAttemptTimeout_same {s t : State} {fp : List Part} (port : Nat) (m_flash : Part.flash ∈ fp) (m_regions : Part.regions ∈ fp) (m_ports : Part.ports ∈ fp) (m_hci : Part.hci ∈ fp) (m_eng : Part.eng ∈ fp) (m_err : Part.err ∈ fp) (m_trc : Part.trc ∈ fp) (m_counters : Part.counters ∈ fp) (m_out : Part.out ∈ fp) (m_fresh : Part.fresh ∈ fp) (e : execRetrainAttemptTimeout port s = .next t) : Same fp s t := by
  have h := Same.refl fp s
  simp only [execRetrainAttemptTimeout, Host.Outcome.next.injEq] at e
  subst e
  simp +contextual (maxDischargeDepth := 60) [h, m_flash, m_regions, m_ports, m_hci, m_eng, m_err, m_trc, m_counters, m_out, m_fresh]

theorem execLinkSleep_same {s t : State} {fp : List Part} (port : Nat) (m_ports : Part.ports ∈ fp) (e : execLinkSleep port s = .next t) : Same fp s t := by
  have h := Same.refl fp s
  simp only [execLinkSleep, Host.Outcome.next.injEq] at e
  subst e
  simp +contextual (maxDischargeDepth := 60) [h, m_ports]

theorem execLinkWake_same {s t : State} {fp : List Part} (port : Nat) (m_ports : Part.ports ∈ fp) (m_counters : Part.counters ∈ fp) (m_out : Part.out ∈ fp) (e : execLinkWake port s = .next t) : Same fp s t := by
  have h := Same.refl fp s
  simp only [execLinkWake, Host.Outcome.next.injEq] at e
  subst e
  simp +contextual (maxDischargeDepth := 60) [h, m_ports, m_counters, m_out]

theorem execFirstFaultWindow_same {s t : State} {fp : List Part} (m_glb : Part.glb ∈ fp) (m_flash : Part.flash ∈ fp) (m_regions : Part.regions ∈ fp) (m_upd : Part.upd ∈ fp) (m_drv : Part.drv ∈ fp) (m_ports : Part.ports ∈ fp) (m_hci : Part.hci ∈ fp) (m_eng : Part.eng ∈ fp) (m_err : Part.err ∈ fp) (m_age : Part.age ∈ fp) (m_trc : Part.trc ∈ fp) (m_stop : Part.stop ∈ fp) (m_counters : Part.counters ∈ fp) (m_out : Part.out ∈ fp) (e : execFirstFaultWindow s = .next t) : Same fp s t := by
  have h := Same.refl fp s
  simp only [execFirstFaultWindow] at e
  (repeat' split at e) <;> (simp only [Host.Outcome.next.injEq] at e; subst e; simp +contextual (maxDischargeDepth := 60) [h, m_glb, m_flash, m_regions, m_upd, m_drv, m_ports, m_hci, m_eng, m_err, m_age, m_trc, m_stop, m_counters, m_out])

theorem execReport_same {s t : State} {fp : List Part} (code : Nat) (source : Nat) (context : Nat) (time : Nat) (m_flash : Part.flash ∈ fp) (m_regions : Part.regions ∈ fp) (m_queues : Part.queues ∈ fp) (m_err : Part.err ∈ fp) (m_trc : Part.trc ∈ fp) (m_counters : Part.counters ∈ fp) (e : execReport code source context time s = .next t) : Same fp s t := by
  have h := Same.refl fp s
  simp only [execReport] at e
  (repeat' split at e) <;> (simp only [Host.Outcome.next.injEq] at e; subst e; simp +contextual (maxDischargeDepth := 60) [h, m_flash, m_regions, m_queues, m_err, m_trc, m_counters])

theorem execThermalTrip_same {s t : State} {fp : List Part} (die : Nat) (temp : Nat) (m_board : Part.board ∈ fp) (m_glb : Part.glb ∈ fp) (m_flash : Part.flash ∈ fp) (m_blocks : Part.blocks ∈ fp) (m_regions : Part.regions ∈ fp) (m_mem : Part.mem ∈ fp) (m_upd : Part.upd ∈ fp) (m_ports : Part.ports ∈ fp) (m_hci : Part.hci ∈ fp) (m_pwr : Part.pwr ∈ fp) (m_eng : Part.eng ∈ fp) (m_err : Part.err ∈ fp) (m_trc : Part.trc ∈ fp) (m_counters : Part.counters ∈ fp) (m_out : Part.out ∈ fp) (m_fresh : Part.fresh ∈ fp) (e : execThermalTrip die temp s = .next t) : Same fp s t := by
  have h := Same.refl fp s
  simp only [execThermalTrip] at e
  (repeat' split at e) <;> (simp only [Host.Outcome.next.injEq] at e; subst e; simp +contextual (maxDischargeDepth := 60) [h, m_board, m_glb, m_flash, m_blocks, m_regions, m_mem, m_upd, m_ports, m_hci, m_pwr, m_eng, m_err, m_trc, m_counters, m_out, m_fresh])

theorem execDieOvertemperature_same {s t : State} {fp : List Part} (die : Nat) (temp : Nat) (m_flash : Part.flash ∈ fp) (m_regions : Part.regions ∈ fp) (m_err : Part.err ∈ fp) (m_trc : Part.trc ∈ fp) (m_counters : Part.counters ∈ fp) (m_fresh : Part.fresh ∈ fp) (e : execDieOvertemperature die temp s = .next t) : Same fp s t := by
  have h := Same.refl fp s
  simp only [execDieOvertemperature] at e
  (repeat' split at e) <;> (simp only [Host.Outcome.next.injEq] at e; subst e; simp +contextual (maxDischargeDepth := 60) [h, m_flash, m_regions, m_err, m_trc, m_counters, m_fresh])

theorem execOpticalEngineOvertemperature_same {s t : State} {fp : List Part} (port : Nat) (temp : Nat) (m_flash : Part.flash ∈ fp) (m_regions : Part.regions ∈ fp) (m_err : Part.err ∈ fp) (m_trc : Part.trc ∈ fp) (m_counters : Part.counters ∈ fp) (m_fresh : Part.fresh ∈ fp) (e : execOpticalEngineOvertemperature port temp s = .next t) : Same fp s t := by
  have h := Same.refl fp s
  simp only [execOpticalEngineOvertemperature] at e
  (repeat' split at e) <;> (simp only [Host.Outcome.next.injEq] at e; subst e; simp +contextual (maxDischargeDepth := 60) [h, m_flash, m_regions, m_err, m_trc, m_counters, m_fresh])

theorem execFirmwareWatchdog_same {s t : State} {fp : List Part} (m_flash : Part.flash ∈ fp) (m_regions : Part.regions ∈ fp) (m_err : Part.err ∈ fp) (m_trc : Part.trc ∈ fp) (m_counters : Part.counters ∈ fp) (m_fresh : Part.fresh ∈ fp) (e : execFirmwareWatchdog s = .next t) : Same fp s t := by
  have h := Same.refl fp s
  simp only [execFirmwareWatchdog, Host.Outcome.next.injEq] at e
  subst e
  simp +contextual (maxDischargeDepth := 60) [h, m_flash, m_regions, m_err, m_trc, m_counters, m_fresh]

theorem execLockstepDivergence_same {s t : State} {fp : List Part} (m_flash : Part.flash ∈ fp) (m_regions : Part.regions ∈ fp) (m_err : Part.err ∈ fp) (m_trc : Part.trc ∈ fp) (m_counters : Part.counters ∈ fp) (m_fresh : Part.fresh ∈ fp) (e : execLockstepDivergence s = .next t) : Same fp s t := by
  have h := Same.refl fp s
  simp only [execLockstepDivergence, Host.Outcome.next.injEq] at e
  subst e
  simp +contextual (maxDischargeDepth := 60) [h, m_flash, m_regions, m_err, m_trc, m_counters, m_fresh]

theorem execIdentityTimeout_same {s t : State} {fp : List Part} (m_flash : Part.flash ∈ fp) (m_regions : Part.regions ∈ fp) (m_err : Part.err ∈ fp) (m_trc : Part.trc ∈ fp) (m_counters : Part.counters ∈ fp) (m_fresh : Part.fresh ∈ fp) (e : execIdentityTimeout s = .next t) : Same fp s t := by
  have h := Same.refl fp s
  simp only [execIdentityTimeout, Host.Outcome.next.injEq] at e
  subst e
  simp +contextual (maxDischargeDepth := 60) [h, m_flash, m_regions, m_err, m_trc, m_counters, m_fresh]

theorem execReferenceClockLoss_same {s t : State} {fp : List Part} (m_board : Part.board ∈ fp) (m_flash : Part.flash ∈ fp) (m_regions : Part.regions ∈ fp) (m_err : Part.err ∈ fp) (m_trc : Part.trc ∈ fp) (m_counters : Part.counters ∈ fp) (m_fresh : Part.fresh ∈ fp) (e : execReferenceClockLoss s = .next t) : Same fp s t := by
  have h := Same.refl fp s
  simp only [execReferenceClockLoss] at e
  (repeat' split at e) <;> (simp only [Host.Outcome.next.injEq] at e; subst e; simp +contextual (maxDischargeDepth := 60) [h, m_board, m_flash, m_regions, m_err, m_trc, m_counters, m_fresh])

theorem execIslandClockGate_same {s t : State} {fp : List Part} (m_board : Part.board ∈ fp) (m_blocks : Part.blocks ∈ fp) (m_mem : Part.mem ∈ fp) (m_counters : Part.counters ∈ fp) (e : execIslandClockGate s = .next t) : Same fp s t := by
  have h := Same.refl fp s
  simp only [execIslandClockGate] at e
  (repeat' split at e) <;> (simp only [Host.Outcome.next.injEq] at e; subst e; simp +contextual (maxDischargeDepth := 60) [h, m_board, m_blocks, m_mem, m_counters])

theorem execReferenceClockReturn_same {s t : State} {fp : List Part} (m_board : Part.board ∈ fp) (m_blocks : Part.blocks ∈ fp) (m_mem : Part.mem ∈ fp) (e : execReferenceClockReturn s = .next t) : Same fp s t := by
  have h := Same.refl fp s
  simp only [execReferenceClockReturn] at e
  (repeat' split at e) <;> (simp only [Host.Outcome.next.injEq] at e; subst e; simp +contextual (maxDischargeDepth := 60) [h, m_board, m_blocks, m_mem])

theorem execSupplyDroop_same {s t : State} {fp : List Part} (blk : Nat) (m_blocks : Part.blocks ∈ fp) (e : execSupplyDroop blk s = .next t) : Same fp s t := by
  have h := Same.refl fp s
  simp only [execSupplyDroop] at e
  (repeat' split at e) <;> (simp only [Host.Outcome.next.injEq] at e; subst e; simp +contextual (maxDischargeDepth := 60) [h, m_blocks])

theorem execEventOverrun_same {s t : State} {fp : List Part} (source : Nat) (line : Nat) (m_cdc : Part.cdc ∈ fp) (m_flash : Part.flash ∈ fp) (m_regions : Part.regions ∈ fp) (m_hci : Part.hci ∈ fp) (m_eng : Part.eng ∈ fp) (m_err : Part.err ∈ fp) (m_trc : Part.trc ∈ fp) (m_counters : Part.counters ∈ fp) (m_fresh : Part.fresh ∈ fp) (e : execEventOverrun source line s = .next t) : Same fp s t := by
  have h := Same.refl fp s
  simp only [execEventOverrun] at e
  (repeat' split at e) <;> (simp only [Host.Outcome.next.injEq] at e; subst e; simp +contextual (maxDischargeDepth := 60) [h, m_cdc, m_flash, m_regions, m_hci, m_eng, m_err, m_trc, m_counters, m_fresh])

theorem execMeshFlitCrcFail_same {s t : State} {fp : List Part} (blk : Nat) (m_flash : Part.flash ∈ fp) (m_regions : Part.regions ∈ fp) (m_err : Part.err ∈ fp) (m_trc : Part.trc ∈ fp) (m_counters : Part.counters ∈ fp) (m_fresh : Part.fresh ∈ fp) (e : execMeshFlitCrcFail blk s = .next t) : Same fp s t := by
  have h := Same.refl fp s
  simp only [execMeshFlitCrcFail] at e
  (repeat' split at e) <;> (simp only [Host.Outcome.next.injEq] at e; subst e; simp +contextual (maxDischargeDepth := 60) [h, m_flash, m_regions, m_err, m_trc, m_counters, m_fresh])

theorem execFlockFormation_same {s t : State} {fp : List Part} (m_glb : Part.glb ∈ fp) (m_flash : Part.flash ∈ fp) (m_regions : Part.regions ∈ fp) (m_drv : Part.drv ∈ fp) (m_ports : Part.ports ∈ fp) (m_eng : Part.eng ∈ fp) (m_err : Part.err ∈ fp) (m_age : Part.age ∈ fp) (m_trc : Part.trc ∈ fp) (m_counters : Part.counters ∈ fp) (m_out : Part.out ∈ fp) (m_fresh : Part.fresh ∈ fp) (e : execFlockFormation s = .next t) : Same fp s t := by
  have h := Same.refl fp s
  simp only [execFlockFormation] at e
  (repeat' split at e) <;> (simp only [Host.Outcome.next.injEq] at e; subst e; simp +contextual (maxDischargeDepth := 60) [h, m_glb, m_flash, m_regions, m_drv, m_ports, m_eng, m_err, m_age, m_trc, m_counters, m_out, m_fresh])

theorem execForm_same {s t : State} {fp : List Part} (port : Nat) (m : DMsg) (m_flash : Part.flash ∈ fp) (m_regions : Part.regions ∈ fp) (m_drv : Part.drv ∈ fp) (m_ports : Part.ports ∈ fp) (m_hci : Part.hci ∈ fp) (m_err : Part.err ∈ fp) (m_trc : Part.trc ∈ fp) (m_counters : Part.counters ∈ fp) (m_out : Part.out ∈ fp) (m_fresh : Part.fresh ∈ fp) (e : execForm port m s = .next t) : Same fp s t := by
  have h := Same.refl fp s
  simp only [execForm, Host.Outcome.next.injEq] at e
  subst e
  simp +contextual (maxDischargeDepth := 60) [h, m_flash, m_regions, m_drv, m_ports, m_hci, m_err, m_trc, m_counters, m_out, m_fresh]

theorem execFormAck_same {s t : State} {fp : List Part} (port : Nat) (m : DMsg) (m_glb : Part.glb ∈ fp) (m_flash : Part.flash ∈ fp) (m_regions : Part.regions ∈ fp) (m_drv : Part.drv ∈ fp) (m_ports : Part.ports ∈ fp) (m_hci : Part.hci ∈ fp) (m_eng : Part.eng ∈ fp) (m_err : Part.err ∈ fp) (m_age : Part.age ∈ fp) (m_trc : Part.trc ∈ fp) (m_counters : Part.counters ∈ fp) (m_out : Part.out ∈ fp) (m_fresh : Part.fresh ∈ fp) (e : execFormAck port m s = .next t) : Same fp s t := by
  have h := Same.refl fp s
  simp only [execFormAck, Host.Outcome.next.injEq] at e
  subst e
  simp +contextual (maxDischargeDepth := 60) [h, m_glb, m_flash, m_regions, m_drv, m_ports, m_hci, m_eng, m_err, m_age, m_trc, m_counters, m_out, m_fresh]

theorem execProbe_same {s t : State} {fp : List Part} (port : Nat) (m : DMsg) (m_flash : Part.flash ∈ fp) (m_regions : Part.regions ∈ fp) (m_drv : Part.drv ∈ fp) (m_ports : Part.ports ∈ fp) (m_hci : Part.hci ∈ fp) (m_err : Part.err ∈ fp) (m_trc : Part.trc ∈ fp) (m_counters : Part.counters ∈ fp) (m_out : Part.out ∈ fp) (m_fresh : Part.fresh ∈ fp) (e : execProbe port m s = .next t) : Same fp s t := by
  have h := Same.refl fp s
  simp only [execProbe, Host.Outcome.next.injEq] at e
  subst e
  simp +contextual (maxDischargeDepth := 60) [h, m_flash, m_regions, m_drv, m_ports, m_hci, m_err, m_trc, m_counters, m_out, m_fresh]

theorem execProbeReply_same {s t : State} {fp : List Part} (port : Nat) (m : DMsg) (m_glb : Part.glb ∈ fp) (m_flash : Part.flash ∈ fp) (m_regions : Part.regions ∈ fp) (m_drv : Part.drv ∈ fp) (m_ports : Part.ports ∈ fp) (m_hci : Part.hci ∈ fp) (m_eng : Part.eng ∈ fp) (m_err : Part.err ∈ fp) (m_age : Part.age ∈ fp) (m_trc : Part.trc ∈ fp) (m_counters : Part.counters ∈ fp) (m_out : Part.out ∈ fp) (m_fresh : Part.fresh ∈ fp) (e : execProbeReply port m s = .next t) : Same fp s t := by
  have h := Same.refl fp s
  simp only [execProbeReply, Host.Outcome.next.injEq] at e
  subst e
  refine State.droverIn_same _ _ _ _ _ h m_flash m_regions m_drv m_ports m_hci m_err m_trc m_counters m_out m_fresh fun s₁ k => ?_
  split
  · exact k
  · split
    · exact k
    · simp (maxDischargeDepth := 60) [k, m_glb, m_flash, m_regions, m_drv, m_ports, m_hci, m_eng, m_err, m_age, m_trc, m_counters, m_out, m_fresh]

theorem execFormed_same {s t : State} {fp : List Part} (port : Nat) (m : DMsg) (m_glb : Part.glb ∈ fp) (m_flash : Part.flash ∈ fp) (m_regions : Part.regions ∈ fp) (m_drv : Part.drv ∈ fp) (m_ports : Part.ports ∈ fp) (m_hci : Part.hci ∈ fp) (m_eng : Part.eng ∈ fp) (m_err : Part.err ∈ fp) (m_age : Part.age ∈ fp) (m_trc : Part.trc ∈ fp) (m_counters : Part.counters ∈ fp) (m_out : Part.out ∈ fp) (m_fresh : Part.fresh ∈ fp) (e : execFormed port m s = .next t) : Same fp s t := by
  have h := Same.refl fp s
  simp only [execFormed, Host.Outcome.next.injEq] at e
  subst e
  simp +contextual (maxDischargeDepth := 60) [h, m_glb, m_flash, m_regions, m_drv, m_ports, m_hci, m_eng, m_err, m_age, m_trc, m_counters, m_out, m_fresh]

theorem execFault_same {s t : State} {fp : List Part} (port : Nat) (m : DMsg) (m_glb : Part.glb ∈ fp) (m_flash : Part.flash ∈ fp) (m_regions : Part.regions ∈ fp) (m_upd : Part.upd ∈ fp) (m_drv : Part.drv ∈ fp) (m_ports : Part.ports ∈ fp) (m_hci : Part.hci ∈ fp) (m_eng : Part.eng ∈ fp) (m_err : Part.err ∈ fp) (m_age : Part.age ∈ fp) (m_trc : Part.trc ∈ fp) (m_stop : Part.stop ∈ fp) (m_counters : Part.counters ∈ fp) (m_out : Part.out ∈ fp) (m_fresh : Part.fresh ∈ fp) (e : execFault port m s = .next t) : Same fp s t := by
  have h := Same.refl fp s
  simp only [execFault, Host.Outcome.next.injEq] at e
  subst e
  simp +contextual (maxDischargeDepth := 60) [h, m_glb, m_flash, m_regions, m_upd, m_drv, m_ports, m_hci, m_eng, m_err, m_age, m_trc, m_stop, m_counters, m_out, m_fresh]

theorem execStop_same {s t : State} {fp : List Part} (port : Nat) (m : DMsg) (m_glb : Part.glb ∈ fp) (m_flash : Part.flash ∈ fp) (m_regions : Part.regions ∈ fp) (m_upd : Part.upd ∈ fp) (m_drv : Part.drv ∈ fp) (m_ports : Part.ports ∈ fp) (m_hci : Part.hci ∈ fp) (m_eng : Part.eng ∈ fp) (m_err : Part.err ∈ fp) (m_age : Part.age ∈ fp) (m_trc : Part.trc ∈ fp) (m_stop : Part.stop ∈ fp) (m_counters : Part.counters ∈ fp) (m_out : Part.out ∈ fp) (m_fresh : Part.fresh ∈ fp) (e : execStop port m s = .next t) : Same fp s t := by
  have h := Same.refl fp s
  simp only [execStop, Host.Outcome.next.injEq] at e
  subst e
  simp +contextual (maxDischargeDepth := 60) [h, m_glb, m_flash, m_regions, m_upd, m_drv, m_ports, m_hci, m_eng, m_err, m_age, m_trc, m_stop, m_counters, m_out, m_fresh]

theorem execAutomaticRestart_same {s t : State} {fp : List Part} (m_glb : Part.glb ∈ fp) (m_cdc : Part.cdc ∈ fp) (m_flash : Part.flash ∈ fp) (m_blocks : Part.blocks ∈ fp) (m_regions : Part.regions ∈ fp) (m_queues : Part.queues ∈ fp) (m_tensors : Part.tensors ∈ fp) (m_mem : Part.mem ∈ fp) (m_gov : Part.gov ∈ fp) (m_upd : Part.upd ∈ fp) (m_drv : Part.drv ∈ fp) (m_ports : Part.ports ∈ fp) (m_hci : Part.hci ∈ fp) (m_eng : Part.eng ∈ fp) (m_err : Part.err ∈ fp) (m_age : Part.age ∈ fp) (m_trc : Part.trc ∈ fp) (m_stop : Part.stop ∈ fp) (m_counters : Part.counters ∈ fp) (m_out : Part.out ∈ fp) (m_fresh : Part.fresh ∈ fp) (e : execAutomaticRestart s = .next t) : Same fp s t := by
  have h := Same.refl fp s
  simp only [execAutomaticRestart] at e
  (repeat' split at e) <;> (simp only [Host.Outcome.next.injEq] at e; subst e; simp +contextual (maxDischargeDepth := 60) [h, m_glb, m_cdc, m_flash, m_blocks, m_regions, m_queues, m_tensors, m_mem, m_gov, m_upd, m_drv, m_ports, m_hci, m_eng, m_err, m_age, m_trc, m_stop, m_counters, m_out, m_fresh])

theorem execRestart_same {s t : State} {fp : List Part} (port : Nat) (m : Met DMsg) (m_glb : Part.glb ∈ fp) (m_cdc : Part.cdc ∈ fp) (m_flash : Part.flash ∈ fp) (m_blocks : Part.blocks ∈ fp) (m_regions : Part.regions ∈ fp) (m_queues : Part.queues ∈ fp) (m_tensors : Part.tensors ∈ fp) (m_mem : Part.mem ∈ fp) (m_gov : Part.gov ∈ fp) (m_upd : Part.upd ∈ fp) (m_drv : Part.drv ∈ fp) (m_ports : Part.ports ∈ fp) (m_hci : Part.hci ∈ fp) (m_eng : Part.eng ∈ fp) (m_err : Part.err ∈ fp) (m_age : Part.age ∈ fp) (m_trc : Part.trc ∈ fp) (m_stop : Part.stop ∈ fp) (m_counters : Part.counters ∈ fp) (m_out : Part.out ∈ fp) (m_fresh : Part.fresh ∈ fp) (e : execRestart port m s = .next t) : Same fp s t := by
  have h := Same.refl fp s
  simp only [execRestart, Host.Outcome.next.injEq] at e
  subst e
  simp +contextual (maxDischargeDepth := 60) [h, m_glb, m_cdc, m_flash, m_blocks, m_regions, m_queues, m_tensors, m_mem, m_gov, m_upd, m_drv, m_ports, m_hci, m_eng, m_err, m_age, m_trc, m_stop, m_counters, m_out, m_fresh]

theorem execRestartAck_same {s t : State} {fp : List Part} (port : Nat) (m : DMsg) (m_glb : Part.glb ∈ fp) (m_flash : Part.flash ∈ fp) (m_regions : Part.regions ∈ fp) (m_upd : Part.upd ∈ fp) (m_drv : Part.drv ∈ fp) (m_ports : Part.ports ∈ fp) (m_hci : Part.hci ∈ fp) (m_eng : Part.eng ∈ fp) (m_err : Part.err ∈ fp) (m_age : Part.age ∈ fp) (m_trc : Part.trc ∈ fp) (m_stop : Part.stop ∈ fp) (m_counters : Part.counters ∈ fp) (m_out : Part.out ∈ fp) (m_fresh : Part.fresh ∈ fp) (e : execRestartAck port m s = .next t) : Same fp s t := by
  have h := Same.refl fp s
  simp only [execRestartAck, Host.Outcome.next.injEq] at e
  subst e
  simp +contextual (maxDischargeDepth := 60) [h, m_glb, m_flash, m_regions, m_upd, m_drv, m_ports, m_hci, m_eng, m_err, m_age, m_trc, m_stop, m_counters, m_out, m_fresh]

theorem execPeerLost_same {s t : State} {fp : List Part} (detail : Nat) (device : Nat) (m_glb : Part.glb ∈ fp) (m_flash : Part.flash ∈ fp) (m_regions : Part.regions ∈ fp) (m_drv : Part.drv ∈ fp) (m_ports : Part.ports ∈ fp) (m_eng : Part.eng ∈ fp) (m_err : Part.err ∈ fp) (m_age : Part.age ∈ fp) (m_trc : Part.trc ∈ fp) (m_counters : Part.counters ∈ fp) (m_out : Part.out ∈ fp) (m_fresh : Part.fresh ∈ fp) (e : execPeerLost detail device s = .next t) : Same fp s t := by
  have h := Same.refl fp s
  simp only [execPeerLost] at e
  (repeat' split at e) <;> (simp only [Host.Outcome.next.injEq] at e; subst e; simp +contextual (maxDischargeDepth := 60) [h, m_glb, m_flash, m_regions, m_drv, m_ports, m_eng, m_err, m_age, m_trc, m_counters, m_out, m_fresh])

theorem execPauseRoundOne_same {s t : State} {fp : List Part} (m_glb : Part.glb ∈ fp) (m_regions : Part.regions ∈ fp) (m_ports : Part.ports ∈ fp) (m_hci : Part.hci ∈ fp) (m_eng : Part.eng ∈ fp) (m_age : Part.age ∈ fp) (m_trc : Part.trc ∈ fp) (m_stop : Part.stop ∈ fp) (m_counters : Part.counters ∈ fp) (m_out : Part.out ∈ fp) (e : execPauseRoundOne s = .next t) : Same fp s t := by
  have h := Same.refl fp s
  simp only [execPauseRoundOne, Host.Outcome.next.injEq] at e
  subst e
  simp +contextual (maxDischargeDepth := 60) [h, m_glb, m_regions, m_ports, m_hci, m_eng, m_age, m_trc, m_stop, m_counters, m_out]

theorem execPauseMarker_same {s t : State} {fp : List Part} (port : Nat) (round : Nat) (device : Nat) (handle : Nat) (m_glb : Part.glb ∈ fp) (m_regions : Part.regions ∈ fp) (m_queues : Part.queues ∈ fp) (m_ports : Part.ports ∈ fp) (m_hci : Part.hci ∈ fp) (m_eng : Part.eng ∈ fp) (m_age : Part.age ∈ fp) (m_trc : Part.trc ∈ fp) (m_stop : Part.stop ∈ fp) (m_counters : Part.counters ∈ fp) (m_out : Part.out ∈ fp) (e : execPauseMarker port round device handle s = .next t) : Same fp s t := by
  have h := Same.refl fp s
  simp only [execPauseMarker] at e
  (repeat' split at e) <;> (simp only [Host.Outcome.next.injEq] at e; subst e; simp +contextual (maxDischargeDepth := 60) [h, m_glb, m_regions, m_queues, m_ports, m_hci, m_eng, m_age, m_trc, m_stop, m_counters, m_out])

theorem execStopRequest_same {s t : State} {fp : List Part} (port : Nat) (action : Nat) (device : Nat) (handle : Nat) (time : Nat) (m_glb : Part.glb ∈ fp) (m_flash : Part.flash ∈ fp) (m_blocks : Part.blocks ∈ fp) (m_regions : Part.regions ∈ fp) (m_queues : Part.queues ∈ fp) (m_tensors : Part.tensors ∈ fp) (m_mem : Part.mem ∈ fp) (m_gov : Part.gov ∈ fp) (m_upd : Part.upd ∈ fp) (m_drv : Part.drv ∈ fp) (m_ports : Part.ports ∈ fp) (m_hci : Part.hci ∈ fp) (m_eng : Part.eng ∈ fp) (m_err : Part.err ∈ fp) (m_age : Part.age ∈ fp) (m_trc : Part.trc ∈ fp) (m_stop : Part.stop ∈ fp) (m_counters : Part.counters ∈ fp) (m_out : Part.out ∈ fp) (m_fresh : Part.fresh ∈ fp) (e : execStopRequest port action device handle time s = .next t) : Same fp s t := by
  have h := Same.refl fp s
  simp only [execStopRequest] at e
  (repeat' split at e) <;> (simp only [Host.Outcome.next.injEq] at e; subst e; simp +contextual (maxDischargeDepth := 60) [h, m_glb, m_flash, m_blocks, m_regions, m_queues, m_tensors, m_mem, m_gov, m_upd, m_drv, m_ports, m_hci, m_eng, m_err, m_age, m_trc, m_stop, m_counters, m_out, m_fresh])

theorem execJobPause_same {s t : State} {fp : List Part} (c : Cmd) (m_glb : Part.glb ∈ fp) (m_flash : Part.flash ∈ fp) (m_blocks : Part.blocks ∈ fp) (m_regions : Part.regions ∈ fp) (m_queues : Part.queues ∈ fp) (m_tensors : Part.tensors ∈ fp) (m_mem : Part.mem ∈ fp) (m_gov : Part.gov ∈ fp) (m_upd : Part.upd ∈ fp) (m_drv : Part.drv ∈ fp) (m_ports : Part.ports ∈ fp) (m_hci : Part.hci ∈ fp) (m_eng : Part.eng ∈ fp) (m_err : Part.err ∈ fp) (m_age : Part.age ∈ fp) (m_trc : Part.trc ∈ fp) (m_stop : Part.stop ∈ fp) (m_counters : Part.counters ∈ fp) (m_out : Part.out ∈ fp) (m_fresh : Part.fresh ∈ fp) (e : execJobPause c s = .next t) : Same fp s t := by
  have h := Same.refl fp s
  simp only [execJobPause, Host.Outcome.next.injEq] at e
  subst e
  simp +contextual (maxDischargeDepth := 60) [h, m_glb, m_flash, m_blocks, m_regions, m_queues, m_tensors, m_mem, m_gov, m_upd, m_drv, m_ports, m_hci, m_eng, m_err, m_age, m_trc, m_stop, m_counters, m_out, m_fresh]

theorem execJobHalt_same {s t : State} {fp : List Part} (c : Cmd) (m_glb : Part.glb ∈ fp) (m_flash : Part.flash ∈ fp) (m_blocks : Part.blocks ∈ fp) (m_regions : Part.regions ∈ fp) (m_queues : Part.queues ∈ fp) (m_tensors : Part.tensors ∈ fp) (m_mem : Part.mem ∈ fp) (m_gov : Part.gov ∈ fp) (m_upd : Part.upd ∈ fp) (m_drv : Part.drv ∈ fp) (m_ports : Part.ports ∈ fp) (m_hci : Part.hci ∈ fp) (m_eng : Part.eng ∈ fp) (m_err : Part.err ∈ fp) (m_age : Part.age ∈ fp) (m_trc : Part.trc ∈ fp) (m_stop : Part.stop ∈ fp) (m_counters : Part.counters ∈ fp) (m_out : Part.out ∈ fp) (m_fresh : Part.fresh ∈ fp) (e : execJobHalt c s = .next t) : Same fp s t := by
  have h := Same.refl fp s
  simp only [execJobHalt, Host.Outcome.next.injEq] at e
  subst e
  simp +contextual (maxDischargeDepth := 60) [h, m_glb, m_flash, m_blocks, m_regions, m_queues, m_tensors, m_mem, m_gov, m_upd, m_drv, m_ports, m_hci, m_eng, m_err, m_age, m_trc, m_stop, m_counters, m_out, m_fresh]

theorem execJobResume_same {s t : State} {fp : List Part} (c : Cmd) (m_glb : Part.glb ∈ fp) (m_flash : Part.flash ∈ fp) (m_blocks : Part.blocks ∈ fp) (m_regions : Part.regions ∈ fp) (m_queues : Part.queues ∈ fp) (m_tensors : Part.tensors ∈ fp) (m_mem : Part.mem ∈ fp) (m_gov : Part.gov ∈ fp) (m_upd : Part.upd ∈ fp) (m_drv : Part.drv ∈ fp) (m_ports : Part.ports ∈ fp) (m_hci : Part.hci ∈ fp) (m_eng : Part.eng ∈ fp) (m_err : Part.err ∈ fp) (m_age : Part.age ∈ fp) (m_trc : Part.trc ∈ fp) (m_stop : Part.stop ∈ fp) (m_counters : Part.counters ∈ fp) (m_out : Part.out ∈ fp) (m_fresh : Part.fresh ∈ fp) (e : execJobResume c s = .next t) : Same fp s t := by
  have h := Same.refl fp s
  simp only [execJobResume, Host.Outcome.next.injEq] at e
  subst e
  simp +contextual (maxDischargeDepth := 60) [h, m_glb, m_flash, m_blocks, m_regions, m_queues, m_tensors, m_mem, m_gov, m_upd, m_drv, m_ports, m_hci, m_eng, m_err, m_age, m_trc, m_stop, m_counters, m_out, m_fresh]

theorem execJobAbort_same {s t : State} {fp : List Part} (c : Cmd) (m_glb : Part.glb ∈ fp) (m_regions : Part.regions ∈ fp) (m_queues : Part.queues ∈ fp) (m_gov : Part.gov ∈ fp) (m_upd : Part.upd ∈ fp) (m_drv : Part.drv ∈ fp) (m_ports : Part.ports ∈ fp) (m_hci : Part.hci ∈ fp) (m_eng : Part.eng ∈ fp) (m_err : Part.err ∈ fp) (m_age : Part.age ∈ fp) (m_stop : Part.stop ∈ fp) (m_counters : Part.counters ∈ fp) (m_out : Part.out ∈ fp) (e : execJobAbort c s = .next t) : Same fp s t := by
  have h := Same.refl fp s
  simp only [execJobAbort, Host.Outcome.next.injEq] at e
  subst e
  simp +contextual (maxDischargeDepth := 60) [h, m_glb, m_regions, m_queues, m_gov, m_upd, m_drv, m_ports, m_hci, m_eng, m_err, m_age, m_stop, m_counters, m_out]

theorem execCountersRead_same {s t : State} {fp : List Part} (c : Cmd) (m_cdc : Part.cdc ∈ fp) (m_blocks : Part.blocks ∈ fp) (m_mem : Part.mem ∈ fp) (m_ports : Part.ports ∈ fp) (m_hci : Part.hci ∈ fp) (m_eng : Part.eng ∈ fp) (m_counters : Part.counters ∈ fp) (m_out : Part.out ∈ fp) (e : execCountersRead c s = .next t) : Same fp s t := by
  have h := Same.refl fp s
  simp only [execCountersRead, Host.Outcome.next.injEq] at e
  subst e
  simp +contextual (maxDischargeDepth := 60) [h, m_cdc, m_blocks, m_mem, m_ports, m_hci, m_eng, m_counters, m_out]

theorem execPeriodicCapture_same {s t : State} {fp : List Part} (m_cdc : Part.cdc ∈ fp) (m_blocks : Part.blocks ∈ fp) (m_regions : Part.regions ∈ fp) (m_mem : Part.mem ∈ fp) (m_trc : Part.trc ∈ fp) (m_counters : Part.counters ∈ fp) (e : execPeriodicCapture s = .next t) : Same fp s t := by
  have h := Same.refl fp s
  simp only [execPeriodicCapture] at e
  (repeat' split at e) <;> (simp only [Host.Outcome.next.injEq] at e; subst e; simp +contextual (maxDischargeDepth := 60) [h, m_cdc, m_blocks, m_regions, m_mem, m_trc, m_counters])

theorem execTraceRead_same {s t : State} {fp : List Part} (c : Cmd) (m_ports : Part.ports ∈ fp) (m_hci : Part.hci ∈ fp) (m_eng : Part.eng ∈ fp) (m_counters : Part.counters ∈ fp) (m_out : Part.out ∈ fp) (e : execTraceRead c s = .next t) : Same fp s t := by
  have h := Same.refl fp s
  simp only [execTraceRead, Host.Outcome.next.injEq] at e
  subst e
  simp +contextual (maxDischargeDepth := 60) [h, m_ports, m_hci, m_eng, m_counters, m_out]

theorem execTraceArm_same {s t : State} {fp : List Part} (c : Cmd) (m_regions : Part.regions ∈ fp) (m_ports : Part.ports ∈ fp) (m_hci : Part.hci ∈ fp) (m_eng : Part.eng ∈ fp) (m_trc : Part.trc ∈ fp) (m_counters : Part.counters ∈ fp) (m_out : Part.out ∈ fp) (e : execTraceArm c s = .next t) : Same fp s t := by
  have h := Same.refl fp s
  simp only [execTraceArm, Host.Outcome.next.injEq] at e
  subst e
  simp +contextual (maxDischargeDepth := 60) [h, m_regions, m_ports, m_hci, m_eng, m_trc, m_counters, m_out]

theorem execTraceRecord_same {s t : State} {fp : List Part} (region : Nat) (r : TraceEvent) (m_regions : Part.regions ∈ fp) (m_trc : Part.trc ∈ fp) (m_counters : Part.counters ∈ fp) (e : execTraceRecord region r s = .next t) : Same fp s t := by
  have h := Same.refl fp s
  simp only [execTraceRecord] at e
  (repeat' split at e) <;> (simp only [Host.Outcome.next.injEq] at e; subst e; simp +contextual (maxDischargeDepth := 60) [h, m_regions, m_trc, m_counters])

theorem execTraceFreeze_same {s t : State} {fp : List Part} (region : Nat) (m_regions : Part.regions ∈ fp) (e : execTraceFreeze region s = .next t) : Same fp s t := by
  have h := Same.refl fp s
  simp only [execTraceFreeze] at e
  (repeat' split at e) <;> (simp only [Host.Outcome.next.injEq] at e; subst e; simp +contextual (maxDischargeDepth := 60) [h, m_regions])

theorem execTraceTimeTrigger_same {s t : State} {fp : List Part} (m_regions : Part.regions ∈ fp) (m_trc : Part.trc ∈ fp) (m_counters : Part.counters ∈ fp) (e : execTraceTimeTrigger s = .next t) : Same fp s t := by
  have h := Same.refl fp s
  simp only [execTraceTimeTrigger] at e
  (repeat' split at e) <;> (simp only [Host.Outcome.next.injEq] at e; subst e; simp +contextual (maxDischargeDepth := 60) [h, m_regions, m_trc, m_counters])

theorem execForce_same {s t : State} {fp : List Part} (m_sb : Part.sb ∈ fp) (m_regions : Part.regions ∈ fp) (m_trc : Part.trc ∈ fp) (m_counters : Part.counters ∈ fp) (e : execForce s = .next t) : Same fp s t := by
  have h := Same.refl fp s
  simp only [execForce, Host.Outcome.next.injEq] at e
  subst e
  simp +contextual (maxDischargeDepth := 60) [h, m_sb, m_regions, m_trc, m_counters]

theorem execDisarm_same {s t : State} {fp : List Part} (m_sb : Part.sb ∈ fp) (m_regions : Part.regions ∈ fp) (e : execDisarm s = .next t) : Same fp s t := by
  have h := Same.refl fp s
  simp only [execDisarm, Host.Outcome.next.injEq] at e
  subst e
  simp +contextual (maxDischargeDepth := 60) [h, m_sb, m_regions]

theorem execOpenSession_same {s t : State} {fp : List Part} (sess : Nat) (msg : List Byte) (m_ports : Part.ports ∈ fp) (m_hci : Part.hci ∈ fp) (m_counters : Part.counters ∈ fp) (m_out : Part.out ∈ fp) (e : execOpenSession sess msg s = .next t) : Same fp s t := by
  have h := Same.refl fp s
  simp only [execOpenSession] at e
  (repeat' split at e) <;> (simp only [Host.Outcome.next.injEq] at e; subst e; simp +contextual (maxDischargeDepth := 60) [h, m_ports, m_hci, m_counters, m_out])

theorem execCloseSession_same {s t : State} {fp : List Part} (sess : Nat) (m_ports : Part.ports ∈ fp) (m_hci : Part.hci ∈ fp) (m_eng : Part.eng ∈ fp) (m_counters : Part.counters ∈ fp) (m_out : Part.out ∈ fp) (e : execCloseSession sess s = .next t) : Same fp s t := by
  have h := Same.refl fp s
  simp only [execCloseSession] at e
  (repeat' split at e) <;> (simp only [Host.Outcome.next.injEq] at e; subst e; simp +contextual (maxDischargeDepth := 60) [h, m_ports, m_hci, m_eng, m_counters, m_out])

theorem execHciBadMessage_same {s t : State} {fp : List Part} (sess : Nat) (msg : List Byte) (m_ports : Part.ports ∈ fp) (m_hci : Part.hci ∈ fp) (e : execHciBadMessage sess msg s = .next t) : Same fp s t := by
  have h := Same.refl fp s
  simp only [execHciBadMessage] at e
  (repeat' split at e) <;> (simp only [Host.Outcome.next.injEq] at e; subst e; simp +contextual (maxDischargeDepth := 60) [h, m_ports, m_hci])

theorem execUnlistedOpcode_same {s t : State} {fp : List Part} (opcode : Nat) (c : Cmd) (m_ports : Part.ports ∈ fp) (m_hci : Part.hci ∈ fp) (m_counters : Part.counters ∈ fp) (m_out : Part.out ∈ fp) (e : execUnlistedOpcode opcode c s = .next t) : Same fp s t := by
  have h := Same.refl fp s
  simp only [execUnlistedOpcode] at e
  (repeat' split at e) <;> (simp only [Host.Outcome.next.injEq] at e; subst e; simp +contextual (maxDischargeDepth := 60) [h, m_ports, m_hci, m_counters, m_out])

theorem execIdentify_same {s t : State} {fp : List Part} (c : Cmd) (m_ports : Part.ports ∈ fp) (m_hci : Part.hci ∈ fp) (m_eng : Part.eng ∈ fp) (m_counters : Part.counters ∈ fp) (m_out : Part.out ∈ fp) (e : execIdentify c s = .next t) : Same fp s t := by
  have h := Same.refl fp s
  simp only [execIdentify, Host.Outcome.next.injEq] at e
  subst e
  simp +contextual (maxDischargeDepth := 60) [h, m_ports, m_hci, m_eng, m_counters, m_out]

theorem execAttest_same {s t : State} {fp : List Part} (c : Cmd) (m_ports : Part.ports ∈ fp) (m_hci : Part.hci ∈ fp) (m_eng : Part.eng ∈ fp) (m_counters : Part.counters ∈ fp) (m_out : Part.out ∈ fp) (e : execAttest c s = .next t) : Same fp s t := by
  have h := Same.refl fp s
  simp only [execAttest, Host.Outcome.next.injEq] at e
  subst e
  simp +contextual (maxDischargeDepth := 60) [h, m_ports, m_hci, m_eng, m_counters, m_out]

theorem execJobStart_same {s t : State} {fp : List Part} (c : Met Cmd) (m_glb : Part.glb ∈ fp) (m_flash : Part.flash ∈ fp) (m_blocks : Part.blocks ∈ fp) (m_regions : Part.regions ∈ fp) (m_queues : Part.queues ∈ fp) (m_tensors : Part.tensors ∈ fp) (m_mem : Part.mem ∈ fp) (m_gov : Part.gov ∈ fp) (m_upd : Part.upd ∈ fp) (m_drv : Part.drv ∈ fp) (m_ports : Part.ports ∈ fp) (m_hci : Part.hci ∈ fp) (m_eng : Part.eng ∈ fp) (m_err : Part.err ∈ fp) (m_trc : Part.trc ∈ fp) (m_counters : Part.counters ∈ fp) (m_out : Part.out ∈ fp) (m_fresh : Part.fresh ∈ fp) (e : execJobStart c s = .next t) : Same fp s t := by
  have h := Same.refl fp s
  simp only [execJobStart, Host.Outcome.next.injEq] at e
  subst e
  refine State.command_same _ _ _ _ h m_ports m_hci m_eng m_counters m_out fun s₁ x k => ?_
  (repeat' split) <;> simp (maxDischargeDepth := 60) [k, m_glb, m_flash, m_blocks, m_regions, m_queues, m_tensors, m_mem, m_gov, m_upd, m_drv, m_ports, m_hci, m_eng, m_err, m_trc, m_counters, m_out, m_fresh]

theorem execSnapshotTake_same {s t : State} {fp : List Part} (c : Cmd) (m_upd : Part.upd ∈ fp) (m_ports : Part.ports ∈ fp) (m_hci : Part.hci ∈ fp) (m_eng : Part.eng ∈ fp) (m_counters : Part.counters ∈ fp) (m_out : Part.out ∈ fp) (e : execSnapshotTake c s = .next t) : Same fp s t := by
  have h := Same.refl fp s
  simp only [execSnapshotTake] at e
  (repeat' split at e) <;> (simp only [Host.Outcome.next.injEq] at e; subst e; simp +contextual (maxDischargeDepth := 60) [h, m_upd, m_ports, m_hci, m_eng, m_counters, m_out])

theorem execSnapshotWrite_same {s t : State} {fp : List Part} (c : Cmd) (m_upd : Part.upd ∈ fp) (m_ports : Part.ports ∈ fp) (m_hci : Part.hci ∈ fp) (m_eng : Part.eng ∈ fp) (m_counters : Part.counters ∈ fp) (m_out : Part.out ∈ fp) (e : execSnapshotWrite c s = .next t) : Same fp s t := by
  have h := Same.refl fp s
  simp only [execSnapshotWrite] at e
  (repeat' split at e) <;> (simp only [Host.Outcome.next.injEq] at e; subst e; simp +contextual (maxDischargeDepth := 60) [h, m_upd, m_ports, m_hci, m_eng, m_counters, m_out])

theorem execBulkArgument_same {s t : State} {fp : List Part} (sess : Nat) (tag : Nat) (rsv : Nat) (data : Met (List Byte)) (m_glb : Part.glb ∈ fp) (m_flash : Part.flash ∈ fp) (m_regions : Part.regions ∈ fp) (m_mem : Part.mem ∈ fp) (m_upd : Part.upd ∈ fp) (m_ports : Part.ports ∈ fp) (m_hci : Part.hci ∈ fp) (m_eng : Part.eng ∈ fp) (m_err : Part.err ∈ fp) (m_trc : Part.trc ∈ fp) (m_counters : Part.counters ∈ fp) (m_out : Part.out ∈ fp) (m_fresh : Part.fresh ∈ fp) (e : execBulkArgument sess tag rsv data s = .next t) : Same fp s t := by
  have h := Same.refl fp s
  simp only [execBulkArgument] at e
  (repeat' split at e) <;> (simp only [Host.Outcome.next.injEq] at e; subst e; simp +contextual (maxDischargeDepth := 60) [h, m_glb, m_flash, m_regions, m_mem, m_upd, m_ports, m_hci, m_eng, m_err, m_trc, m_counters, m_out, m_fresh])

theorem execSnapshotShip_same {s t : State} {fp : List Part} (c : Met Cmd) (m_flash : Part.flash ∈ fp) (m_regions : Part.regions ∈ fp) (m_mem : Part.mem ∈ fp) (m_upd : Part.upd ∈ fp) (m_ports : Part.ports ∈ fp) (m_hci : Part.hci ∈ fp) (m_eng : Part.eng ∈ fp) (m_err : Part.err ∈ fp) (m_trc : Part.trc ∈ fp) (m_counters : Part.counters ∈ fp) (m_out : Part.out ∈ fp) (m_fresh : Part.fresh ∈ fp) (e : execSnapshotShip c s = .next t) : Same fp s t := by
  have h := Same.refl fp s
  simp only [execSnapshotShip, Host.Outcome.next.injEq] at e
  subst e
  refine State.command_same _ _ _ _ h m_ports m_hci m_eng m_counters m_out fun s₁ x k => ?_
  (repeat' split) <;> simp (maxDischargeDepth := 60) [k, m_flash, m_regions, m_mem, m_upd, m_ports, m_hci, m_eng, m_err, m_trc, m_counters, m_out, m_fresh]

theorem execSnapshotChunk_same {s t : State} {fp : List Part} (port : Nat) (src : Nat) (index : Nat) (count : Nat) (len : Nat) (crc : Nat) (data : Met Chunk) (m_flash : Part.flash ∈ fp) (m_regions : Part.regions ∈ fp) (m_mem : Part.mem ∈ fp) (m_upd : Part.upd ∈ fp) (m_ports : Part.ports ∈ fp) (m_hci : Part.hci ∈ fp) (m_err : Part.err ∈ fp) (m_trc : Part.trc ∈ fp) (m_counters : Part.counters ∈ fp) (m_out : Part.out ∈ fp) (m_fresh : Part.fresh ∈ fp) (e : execSnapshotChunk port src index count len crc data s = .next t) : Same fp s t := by
  have h := Same.refl fp s
  simp only [execSnapshotChunk] at e
  (repeat' split at e) <;> (simp only [Host.Outcome.next.injEq] at e; subst e; simp +contextual (maxDischargeDepth := 60) [h, m_flash, m_regions, m_mem, m_upd, m_ports, m_hci, m_err, m_trc, m_counters, m_out, m_fresh])

theorem execStreamOpen_same {s t : State} {fp : List Part} (c : Cmd) (m_ports : Part.ports ∈ fp) (m_hci : Part.hci ∈ fp) (m_eng : Part.eng ∈ fp) (m_counters : Part.counters ∈ fp) (m_out : Part.out ∈ fp) (e : execStreamOpen c s = .next t) : Same fp s t := by
  have h := Same.refl fp s
  simp only [execStreamOpen, Host.Outcome.next.injEq] at e
  subst e
  refine State.command_same _ _ _ _ h m_ports m_hci m_eng m_counters m_out fun s₁ x k => ?_
  (repeat' split) <;> simp (maxDischargeDepth := 60) [k, m_ports, m_hci, m_eng, m_counters, m_out]

theorem execStreamClose_same {s t : State} {fp : List Part} (c : Cmd) (m_ports : Part.ports ∈ fp) (m_hci : Part.hci ∈ fp) (m_eng : Part.eng ∈ fp) (m_counters : Part.counters ∈ fp) (m_out : Part.out ∈ fp) (e : execStreamClose c s = .next t) : Same fp s t := by
  have h := Same.refl fp s
  simp only [execStreamClose, Host.Outcome.next.injEq] at e
  subst e
  refine State.command_same _ _ _ _ h m_ports m_hci m_eng m_counters m_out fun s₁ x k => ?_
  (repeat' split) <;> simp (maxDischargeDepth := 60) [k, m_ports, m_hci, m_eng, m_counters, m_out]

theorem execStreamMessage_same {s t : State} {fp : List Part} (sess : Nat) (stream : Nat) (data : List Byte) (m_ports : Part.ports ∈ fp) (m_hci : Part.hci ∈ fp) (m_counters : Part.counters ∈ fp) (e : execStreamMessage sess stream data s = .next t) : Same fp s t := by
  have h := Same.refl fp s
  simp only [execStreamMessage] at e
  (repeat' split at e) <;> (simp only [Host.Outcome.next.injEq] at e; subst e; simp +contextual (maxDischargeDepth := 60) [h, m_ports, m_hci, m_counters])

theorem execAbortHandle_same {s t : State} {fp : List Part} (c : Cmd) (m_glb : Part.glb ∈ fp) (m_flash : Part.flash ∈ fp) (m_blocks : Part.blocks ∈ fp) (m_regions : Part.regions ∈ fp) (m_queues : Part.queues ∈ fp) (m_tensors : Part.tensors ∈ fp) (m_mem : Part.mem ∈ fp) (m_gov : Part.gov ∈ fp) (m_upd : Part.upd ∈ fp) (m_drv : Part.drv ∈ fp) (m_ports : Part.ports ∈ fp) (m_hci : Part.hci ∈ fp) (m_pwr : Part.pwr ∈ fp) (m_eng : Part.eng ∈ fp) (m_err : Part.err ∈ fp) (m_age : Part.age ∈ fp) (m_trc : Part.trc ∈ fp) (m_stop : Part.stop ∈ fp) (m_counters : Part.counters ∈ fp) (m_out : Part.out ∈ fp) (m_fresh : Part.fresh ∈ fp) (e : execAbortHandle c s = .next t) : Same fp s t := by
  have h := Same.refl fp s
  simp only [execAbortHandle, Host.Outcome.next.injEq] at e
  subst e
  refine State.command_same _ _ _ _ h m_ports m_hci m_eng m_counters m_out fun s₁ x k => ?_
  (repeat' split) <;> first
    | simp (maxDischargeDepth := 60) [k, m_glb, m_flash, m_blocks, m_regions, m_queues, m_tensors, m_mem, m_gov, m_upd, m_drv, m_ports, m_hci, m_pwr, m_eng, m_err, m_age, m_trc, m_stop, m_counters, m_out, m_fresh]; done
    | (rename_i q; have kq := State.abortNow_same (s₀ := s) _ (by simp (maxDischargeDepth := 60) [k, m_glb, m_flash, m_blocks, m_regions, m_queues, m_tensors, m_mem, m_gov, m_upd, m_drv, m_ports, m_hci, m_pwr, m_eng, m_err, m_age, m_trc, m_stop, m_counters, m_out, m_fresh]) m_glb m_flash m_blocks m_regions m_queues m_tensors m_mem m_gov m_upd m_drv m_ports m_hci m_pwr m_eng m_err m_age m_trc m_stop m_counters m_out m_fresh q; simp (maxDischargeDepth := 60) [kq, m_glb, m_flash, m_blocks, m_regions, m_queues, m_tensors, m_mem, m_gov, m_upd, m_drv, m_ports, m_hci, m_pwr, m_eng, m_err, m_age, m_trc, m_stop, m_counters, m_out, m_fresh])

theorem execRailSample_same {s t : State} {fp : List Part} (nj : RailRead) (m_hci : Part.hci ∈ fp) (m_eng : Part.eng ∈ fp) (m_age : Part.age ∈ fp) (e : execRailSample nj s = .next t) : Same fp s t := by
  have h := Same.refl fp s
  simp only [execRailSample] at e
  (repeat' split at e) <;> (simp only [Host.Outcome.next.injEq] at e; subst e; simp +contextual (maxDischargeDepth := 60) [h, m_hci, m_eng, m_age])

theorem execIntervalRecordTimer_same {s t : State} {fp : List Part} (m_eng : Part.eng ∈ fp) (e : execIntervalRecordTimer s = .next t) : Same fp s t := by
  have h := Same.refl fp s
  simp only [execIntervalRecordTimer] at e
  (repeat' split at e) <;> (simp only [Host.Outcome.next.injEq] at e; subst e; simp +contextual (maxDischargeDepth := 60) [h, m_eng])

theorem execRecordSigned_same {s t : State} {fp : List Part} (m_eng : Part.eng ∈ fp) (e : execRecordSigned s = .next t) : Same fp s t := by
  have h := Same.refl fp s
  simp only [execRecordSigned] at e
  (repeat' split at e) <;> (simp only [Host.Outcome.next.injEq] at e; subst e; simp +contextual (maxDischargeDepth := 60) [h, m_eng])

theorem execChainHeadSave_same {s t : State} {fp : List Part} (m_flash : Part.flash ∈ fp) (m_eng : Part.eng ∈ fp) (e : execChainHeadSave s = .next t) : Same fp s t := by
  have h := Same.refl fp s
  simp only [execChainHeadSave] at e
  (repeat' split at e) <;> (simp only [Host.Outcome.next.injEq] at e; subst e; simp +contextual (maxDischargeDepth := 60) [h, m_flash, m_eng])

theorem execSign_same {s t : State} {fp : List Part} (m_sb : Part.sb ∈ fp) (m_eng : Part.eng ∈ fp) (e : execSign s = .next t) : Same fp s t := by
  have h := Same.refl fp s
  simp only [execSign, Host.Outcome.next.injEq] at e
  subst e
  simp +contextual (maxDischargeDepth := 60) [h, m_sb, m_eng]

theorem execClear_same {s t : State} {fp : List Part} (m_sb : Part.sb ∈ fp) (m_eng : Part.eng ∈ fp) (e : execClear s = .next t) : Same fp s t := by
  have h := Same.refl fp s
  simp only [execClear, Host.Outcome.next.injEq] at e
  subst e
  simp +contextual (maxDischargeDepth := 60) [h, m_sb, m_eng]

theorem execEngFlkStageAppend_same {s t : State} {fp : List Part} (value : Reg) (m_sb : Part.sb ∈ fp) (m_eng : Part.eng ∈ fp) (e : execEngFlkStageAppend value s = .next t) : Same fp s t := by
  have h := Same.refl fp s
  simp only [execEngFlkStageAppend, Host.Outcome.next.injEq] at e
  subst e
  simp +contextual (maxDischargeDepth := 60) [h, m_sb, m_eng]

theorem execEnergyReport_same {s t : State} {fp : List Part} (c : Cmd) (m_ports : Part.ports ∈ fp) (m_hci : Part.hci ∈ fp) (m_eng : Part.eng ∈ fp) (m_counters : Part.counters ∈ fp) (m_out : Part.out ∈ fp) (e : execEnergyReport c s = .next t) : Same fp s t := by
  have h := Same.refl fp s
  simp only [execEnergyReport, Host.Outcome.next.injEq] at e
  subst e
  simp +contextual (maxDischargeDepth := 60) [h, m_ports, m_hci, m_eng, m_counters, m_out]

theorem execAgeingDue_same {s t : State} {fp : List Part} (m_age : Part.age ∈ fp) (e : execAgeingDue s = .next t) : Same fp s t := by
  have h := Same.refl fp s
  simp only [execAgeingDue] at e
  (repeat' split at e) <;> (simp only [Host.Outcome.next.injEq] at e; subst e; simp +contextual (maxDischargeDepth := 60) [h, m_age])

theorem execNow_same {s t : State} {fp : List Part} (m_sb : Part.sb ∈ fp) (m_age : Part.age ∈ fp) (e : execNow s = .next t) : Same fp s t := by
  have h := Same.refl fp s
  simp only [execNow, Host.Outcome.next.injEq] at e
  subst e
  simp +contextual (maxDischargeDepth := 60) [h, m_sb, m_age]

theorem execAgeingMeasurementEnd_same {s t : State} {fp : List Part} (reads : List AgeRead) (m_flash : Part.flash ∈ fp) (m_blocks : Part.blocks ∈ fp) (m_regions : Part.regions ∈ fp) (m_mem : Part.mem ∈ fp) (m_err : Part.err ∈ fp) (m_age : Part.age ∈ fp) (m_trc : Part.trc ∈ fp) (m_counters : Part.counters ∈ fp) (m_fresh : Part.fresh ∈ fp) (e : execAgeingMeasurementEnd reads s = .next t) : Same fp s t := by
  have h := Same.refl fp s
  simp only [execAgeingMeasurementEnd] at e
  (repeat' split at e) <;> (simp only [Host.Outcome.next.injEq] at e; subst e; simp +contextual (maxDischargeDepth := 60) [h, m_flash, m_blocks, m_regions, m_mem, m_err, m_age, m_trc, m_counters, m_fresh])

theorem execSummaryTimer_same {s t : State} {fp : List Part} (m_flash : Part.flash ∈ fp) (m_age : Part.age ∈ fp) (e : execSummaryTimer s = .next t) : Same fp s t := by
  have h := Same.refl fp s
  simp only [execSummaryTimer] at e
  (repeat' split at e) <;> (simp only [Host.Outcome.next.injEq] at e; subst e; simp +contextual (maxDischargeDepth := 60) [h, m_flash, m_age])

theorem execMma_same {s t : State} {fp : List Part} (f : Fire) (m_glb : Part.glb ∈ fp) (m_flash : Part.flash ∈ fp) (m_blocks : Part.blocks ∈ fp) (m_regions : Part.regions ∈ fp) (m_queues : Part.queues ∈ fp) (m_tensors : Part.tensors ∈ fp) (m_mem : Part.mem ∈ fp) (m_ports : Part.ports ∈ fp) (m_hci : Part.hci ∈ fp) (m_eng : Part.eng ∈ fp) (m_err : Part.err ∈ fp) (m_age : Part.age ∈ fp) (m_trc : Part.trc ∈ fp) (m_counters : Part.counters ∈ fp) (m_out : Part.out ∈ fp) (m_fresh : Part.fresh ∈ fp) (e : execMma f s = .next t) : Same fp s t := by
  have h := Same.refl fp s
  simp only [execMma, Host.Outcome.next.injEq] at e
  subst e
  simp +contextual (maxDischargeDepth := 60) [h, m_glb, m_flash, m_blocks, m_regions, m_queues, m_tensors, m_mem, m_ports, m_hci, m_eng, m_err, m_age, m_trc, m_counters, m_out, m_fresh]

theorem execConv_same {s t : State} {fp : List Part} (f : Fire) (m_glb : Part.glb ∈ fp) (m_flash : Part.flash ∈ fp) (m_blocks : Part.blocks ∈ fp) (m_regions : Part.regions ∈ fp) (m_queues : Part.queues ∈ fp) (m_tensors : Part.tensors ∈ fp) (m_mem : Part.mem ∈ fp) (m_ports : Part.ports ∈ fp) (m_hci : Part.hci ∈ fp) (m_eng : Part.eng ∈ fp) (m_err : Part.err ∈ fp) (m_age : Part.age ∈ fp) (m_trc : Part.trc ∈ fp) (m_counters : Part.counters ∈ fp) (m_out : Part.out ∈ fp) (m_fresh : Part.fresh ∈ fp) (e : execConv f s = .next t) : Same fp s t := by
  have h := Same.refl fp s
  simp only [execConv, Host.Outcome.next.injEq] at e
  subst e
  simp +contextual (maxDischargeDepth := 60) [h, m_glb, m_flash, m_blocks, m_regions, m_queues, m_tensors, m_mem, m_ports, m_hci, m_eng, m_err, m_age, m_trc, m_counters, m_out, m_fresh]

theorem execResetNRise_same {s t : State} {fp : List Part} (env : StartEnv) (m_board : Part.board ∈ fp) (m_glb : Part.glb ∈ fp) (m_cdc : Part.cdc ∈ fp) (m_flash : Part.flash ∈ fp) (m_job : Part.job ∈ fp) (m_blocks : Part.blocks ∈ fp) (m_regions : Part.regions ∈ fp) (m_queues : Part.queues ∈ fp) (m_tensors : Part.tensors ∈ fp) (m_mem : Part.mem ∈ fp) (m_gov : Part.gov ∈ fp) (m_drv : Part.drv ∈ fp) (m_ports : Part.ports ∈ fp) (m_lnkPorts : Part.lnkPorts ∈ fp) (m_hci : Part.hci ∈ fp) (m_eng : Part.eng ∈ fp) (m_err : Part.err ∈ fp) (m_age : Part.age ∈ fp) (m_trc : Part.trc ∈ fp) (m_counters : Part.counters ∈ fp) (m_out : Part.out ∈ fp) (m_fresh : Part.fresh ∈ fp) (e : execResetNRise env s = .next t) : Same fp s t := by
  have h := Same.refl fp s
  simp only [execResetNRise] at e
  (repeat' split at e) <;> (simp only [Host.Outcome.next.injEq] at e; subst e; simp +contextual (maxDischargeDepth := 60) [h, m_board, m_glb, m_cdc, m_flash, m_job, m_blocks, m_regions, m_queues, m_tensors, m_mem, m_gov, m_drv, m_ports, m_lnkPorts, m_hci, m_eng, m_err, m_age, m_trc, m_counters, m_out, m_fresh])

theorem execLinkWaitExpiry_same {s t : State} {fp : List Part} (m_glb : Part.glb ∈ fp) (m_flash : Part.flash ∈ fp) (m_regions : Part.regions ∈ fp) (m_ports : Part.ports ∈ fp) (m_eng : Part.eng ∈ fp) (m_err : Part.err ∈ fp) (m_age : Part.age ∈ fp) (m_counters : Part.counters ∈ fp) (m_out : Part.out ∈ fp) (m_fresh : Part.fresh ∈ fp) (e : execLinkWaitExpiry s = .next t) : Same fp s t := by
  have h := Same.refl fp s
  simp only [execLinkWaitExpiry] at e
  (repeat' split at e) <;> (simp only [Host.Outcome.next.injEq] at e; subst e; simp +contextual (maxDischargeDepth := 60) [h, m_glb, m_flash, m_regions, m_ports, m_eng, m_err, m_age, m_counters, m_out, m_fresh])

theorem execPowerState_same {s t : State} {fp : List Part} (c : Cmd) (m_cdc : Part.cdc ∈ fp) (m_flash : Part.flash ∈ fp) (m_job : Part.job ∈ fp) (m_blocks : Part.blocks ∈ fp) (m_regions : Part.regions ∈ fp) (m_queues : Part.queues ∈ fp) (m_tensors : Part.tensors ∈ fp) (m_mem : Part.mem ∈ fp) (m_gov : Part.gov ∈ fp) (m_upd : Part.upd ∈ fp) (m_drv : Part.drv ∈ fp) (m_ports : Part.ports ∈ fp) (m_hci : Part.hci ∈ fp) (m_pwr : Part.pwr ∈ fp) (m_eng : Part.eng ∈ fp) (m_age : Part.age ∈ fp) (m_trc : Part.trc ∈ fp) (m_stop : Part.stop ∈ fp) (m_counters : Part.counters ∈ fp) (m_out : Part.out ∈ fp) (m_fresh : Part.fresh ∈ fp) (e : execPowerState c s = .next t) : Same fp s t := by
  have h := Same.refl fp s
  simp only [execPowerState, Host.Outcome.next.injEq] at e
  subst e
  refine State.command_same _ _ _ _ h m_ports m_hci m_eng m_counters m_out fun s₁ x k => ?_
  (repeat' split) <;> first | simp (maxDischargeDepth := 60) [k, m_cdc, m_flash, m_job, m_blocks, m_regions, m_queues, m_tensors, m_mem, m_gov, m_upd, m_drv, m_ports, m_hci, m_pwr, m_eng, m_age, m_trc, m_stop, m_counters, m_out, m_fresh]; done | exact k

theorem execReadRegs_same {s t : State} {fp : List Part} (c : Cmd) (m_sb : Part.sb ∈ fp) (m_cdc : Part.cdc ∈ fp) (m_blocks : Part.blocks ∈ fp) (m_regions : Part.regions ∈ fp) (m_drv : Part.drv ∈ fp) (m_ports : Part.ports ∈ fp) (m_hci : Part.hci ∈ fp) (m_pwr : Part.pwr ∈ fp) (m_eng : Part.eng ∈ fp) (m_err : Part.err ∈ fp) (m_counters : Part.counters ∈ fp) (m_out : Part.out ∈ fp) (m_fresh : Part.fresh ∈ fp) (e : execReadRegs c s = .next t) : Same fp s t := by
  have h := Same.refl fp s
  simp only [execReadRegs, Host.Outcome.next.injEq] at e
  subst e
  simp +contextual (maxDischargeDepth := 60) [h, m_sb, m_cdc, m_blocks, m_regions, m_drv, m_ports, m_hci, m_pwr, m_eng, m_err, m_counters, m_out, m_fresh]

theorem execWriteRegs_same {s t : State} {fp : List Part} (c : Cmd) (m_glb : Part.glb ∈ fp) (m_cdc : Part.cdc ∈ fp) (m_flash : Part.flash ∈ fp) (m_job : Part.job ∈ fp) (m_blocks : Part.blocks ∈ fp) (m_regions : Part.regions ∈ fp) (m_queues : Part.queues ∈ fp) (m_tensors : Part.tensors ∈ fp) (m_mem : Part.mem ∈ fp) (m_gov : Part.gov ∈ fp) (m_drv : Part.drv ∈ fp) (m_ports : Part.ports ∈ fp) (m_hci : Part.hci ∈ fp) (m_pwr : Part.pwr ∈ fp) (m_eng : Part.eng ∈ fp) (m_err : Part.err ∈ fp) (m_age : Part.age ∈ fp) (m_trc : Part.trc ∈ fp) (m_counters : Part.counters ∈ fp) (m_clearTime : Part.clearTime ∈ fp) (m_out : Part.out ∈ fp) (m_fresh : Part.fresh ∈ fp) (e : execWriteRegs c s = .next t) : Same fp s t := by
  have h := Same.refl fp s
  simp only [execWriteRegs, Host.Outcome.next.injEq] at e
  subst e
  simp +contextual (maxDischargeDepth := 60) [h, m_glb, m_cdc, m_flash, m_job, m_blocks, m_regions, m_queues, m_tensors, m_mem, m_gov, m_drv, m_ports, m_hci, m_pwr, m_eng, m_err, m_age, m_trc, m_counters, m_clearTime, m_out, m_fresh]

theorem execQueDescSel_same {s t : State} {fp : List Part} (region : Nat) (value : Reg) (m_sb : Part.sb ∈ fp) (m_regions : Part.regions ∈ fp) (e : execQueDescSel region value s = .next t) : Same fp s t := by
  have h := Same.refl fp s
  simp only [execQueDescSel, Host.Outcome.next.injEq] at e
  subst e
  simp +contextual (maxDischargeDepth := 60) [h, m_sb, m_regions]

theorem execErrLogPtrRd_same {s t : State} {fp : List Part} (value : Reg) (m_err : Part.err ∈ fp) (e : execErrLogPtrRd value s = .next t) : Same fp s t := by
  have h := Same.refl fp s
  simp only [execErrLogPtrRd, Host.Outcome.next.injEq] at e
  subst e
  simp +contextual (maxDischargeDepth := 60) [h, m_err]

theorem execErrFirstValidClear_same {s t : State} {fp : List Part} (m_sb : Part.sb ∈ fp) (m_err : Part.err ∈ fp) (e : execErrFirstValidClear s = .next t) : Same fp s t := by
  have h := Same.refl fp s
  simp only [execErrFirstValidClear, Host.Outcome.next.injEq] at e
  subst e
  simp +contextual (maxDischargeDepth := 60) [h, m_sb, m_err]

theorem execErrLog0Read_same {s t : State} {fp : List Part} (path : Path) (m_sb : Part.sb ∈ fp) (m_cdc : Part.cdc ∈ fp) (m_blocks : Part.blocks ∈ fp) (m_regions : Part.regions ∈ fp) (m_drv : Part.drv ∈ fp) (m_hci : Part.hci ∈ fp) (m_pwr : Part.pwr ∈ fp) (m_eng : Part.eng ∈ fp) (m_err : Part.err ∈ fp) (m_fresh : Part.fresh ∈ fp) (e : execErrLog0Read path s = .next t) : Same fp s t := by
  have h := Same.refl fp s
  simp only [execErrLog0Read, Host.Outcome.next.injEq] at e
  subst e
  simp +contextual (maxDischargeDepth := 60) [h, m_sb, m_cdc, m_blocks, m_regions, m_drv, m_hci, m_pwr, m_eng, m_err, m_fresh]

theorem execLoRegisterRead_same {s t : State} {fp : List Part} (path : Path) (offset : Nat) (m_sb : Part.sb ∈ fp) (m_cdc : Part.cdc ∈ fp) (m_blocks : Part.blocks ∈ fp) (m_regions : Part.regions ∈ fp) (m_drv : Part.drv ∈ fp) (m_hci : Part.hci ∈ fp) (m_pwr : Part.pwr ∈ fp) (m_eng : Part.eng ∈ fp) (m_err : Part.err ∈ fp) (m_fresh : Part.fresh ∈ fp) (e : execLoRegisterRead path offset s = .next t) : Same fp s t := by
  have h := Same.refl fp s
  simp only [execLoRegisterRead, Host.Outcome.next.injEq] at e
  subst e
  simp +contextual (maxDischargeDepth := 60) [h, m_sb, m_cdc, m_blocks, m_regions, m_drv, m_hci, m_pwr, m_eng, m_err, m_fresh]

theorem execRcFieldRead_same {s t : State} {fp : List Part} (path : Path) (offset : Nat) (m_sb : Part.sb ∈ fp) (m_cdc : Part.cdc ∈ fp) (m_blocks : Part.blocks ∈ fp) (m_regions : Part.regions ∈ fp) (m_drv : Part.drv ∈ fp) (m_hci : Part.hci ∈ fp) (m_pwr : Part.pwr ∈ fp) (m_eng : Part.eng ∈ fp) (m_err : Part.err ∈ fp) (m_fresh : Part.fresh ∈ fp) (e : execRcFieldRead path offset s = .next t) : Same fp s t := by
  have h := Same.refl fp s
  simp only [execRcFieldRead, Host.Outcome.next.injEq] at e
  subst e
  simp +contextual (maxDischargeDepth := 60) [h, m_sb, m_cdc, m_blocks, m_regions, m_drv, m_hci, m_pwr, m_eng, m_err, m_fresh]

theorem execGlbCdcFlagsClear_same {s t : State} {fp : List Part} (blk : Option Nat) (mask : Nat) (m_sb : Part.sb ∈ fp) (m_cdc : Part.cdc ∈ fp) (e : execGlbCdcFlagsClear blk mask s = .next t) : Same fp s t := by
  have h := Same.refl fp s
  simp only [execGlbCdcFlagsClear, Host.Outcome.next.injEq] at e
  subst e
  (repeat' split) <;> simp +contextual (maxDischargeDepth := 60) [h, m_sb, m_cdc]

theorem runHeld_same {s t : State} {fp : List Part} (i : Instr) (m_glb : Part.glb ∈ fp) (m_sb : Part.sb ∈ fp) (m_cdc : Part.cdc ∈ fp) (m_flash : Part.flash ∈ fp) (m_job : Part.job ∈ fp) (m_blocks : Part.blocks ∈ fp) (m_regions : Part.regions ∈ fp) (m_queues : Part.queues ∈ fp) (m_tensors : Part.tensors ∈ fp) (m_mem : Part.mem ∈ fp) (m_gov : Part.gov ∈ fp) (m_upd : Part.upd ∈ fp) (m_drv : Part.drv ∈ fp) (m_ports : Part.ports ∈ fp) (m_hci : Part.hci ∈ fp) (m_pwr : Part.pwr ∈ fp) (m_eng : Part.eng ∈ fp) (m_err : Part.err ∈ fp) (m_age : Part.age ∈ fp) (m_trc : Part.trc ∈ fp) (m_stop : Part.stop ∈ fp) (m_counters : Part.counters ∈ fp) (m_clearTime : Part.clearTime ∈ fp) (m_out : Part.out ∈ fp) (m_fresh : Part.fresh ∈ fp) (e : runHeld i s = .next t) : Same fp s t := by
  unfold runHeld at e
  split at e
  · apply execIdentify_same (e := e) <;> assumption
  · apply execAttest_same (e := e) <;> assumption
  · apply execJobStart_same (e := e) <;> assumption
  · apply execJobPause_same (e := e) <;> assumption
  · apply execJobHalt_same (e := e) <;> assumption
  · apply execJobResume_same (e := e) <;> assumption
  · apply execJobAbort_same (e := e) <;> assumption
  · apply execSnapshotTake_same (e := e) <;> assumption
  · apply execSnapshotWrite_same (e := e) <;> assumption
  · apply execSnapshotShip_same (e := e) <;> assumption
  · apply execPowerState_same (e := e) <;> assumption
  · apply execReadRegs_same (e := e) <;> assumption
  · apply execWriteRegs_same (e := e) <;> assumption
  · apply execCountersRead_same (e := e) <;> assumption
  · apply execTraceArm_same (e := e) <;> assumption
  · apply execTraceRead_same (e := e) <;> assumption
  · apply execEnergyReport_same (e := e) <;> assumption
  · apply execStreamOpen_same (e := e) <;> assumption
  · apply execStreamClose_same (e := e) <;> assumption
  · apply execAbortHandle_same (e := e) <;> assumption
  · apply execUnlistedOpcode_same (e := e) <;> assumption
  · apply execOpenSession_same (e := e) <;> assumption
  · apply execCloseSession_same (e := e) <;> assumption
  · apply execHciBadMessage_same (e := e) <;> assumption
  · apply execBulkArgument_same (e := e) <;> assumption
  · apply execStreamMessage_same (e := e) <;> assumption
  · apply execSnapshotChunk_same (e := e) <;> assumption
  · apply execHead_same (e := e) <;> assumption
  · apply execGrant_same (e := e) <;> assumption
  · apply execGrad_same (e := e) <;> assumption
  · apply execParam_same (e := e) <;> assumption
  · apply execRing_same (e := e) <;> assumption
  · apply execRingFinal_same (e := e) <;> assumption
  · apply execVote_same (e := e) <;> assumption
  · apply execVerdict_same (e := e) <;> assumption
  · apply execFault_same (e := e) <;> assumption
  · apply execStop_same (e := e) <;> assumption
  · apply execRestart_same (e := e) <;> assumption
  · apply execRestartAck_same (e := e) <;> assumption
  · apply execForm_same (e := e) <;> assumption
  · apply execFormAck_same (e := e) <;> assumption
  · apply execProbe_same (e := e) <;> assumption
  · apply execProbeReply_same (e := e) <;> assumption
  · apply execFormed_same (e := e) <;> assumption
  · apply execBadDroverMessage_same (e := e) <;> assumption
  · apply execStopRequest_same (e := e) <;> assumption
  · apply execPauseMarker_same (e := e) <;> assumption
  · simp only [Host.Outcome.next.injEq] at e
    subst e
    exact Same.refl _ _

theorem runAll_same {s t : State} {fp : List Part} (l : List Instr) (m_glb : Part.glb ∈ fp) (m_sb : Part.sb ∈ fp) (m_cdc : Part.cdc ∈ fp) (m_flash : Part.flash ∈ fp) (m_job : Part.job ∈ fp) (m_blocks : Part.blocks ∈ fp) (m_regions : Part.regions ∈ fp) (m_queues : Part.queues ∈ fp) (m_tensors : Part.tensors ∈ fp) (m_mem : Part.mem ∈ fp) (m_gov : Part.gov ∈ fp) (m_upd : Part.upd ∈ fp) (m_drv : Part.drv ∈ fp) (m_ports : Part.ports ∈ fp) (m_hci : Part.hci ∈ fp) (m_pwr : Part.pwr ∈ fp) (m_eng : Part.eng ∈ fp) (m_err : Part.err ∈ fp) (m_age : Part.age ∈ fp) (m_trc : Part.trc ∈ fp) (m_stop : Part.stop ∈ fp) (m_counters : Part.counters ∈ fp) (m_clearTime : Part.clearTime ∈ fp) (m_out : Part.out ∈ fp) (m_fresh : Part.fresh ∈ fp) (e : runAll l s = .next t) : Same fp s t := by
  induction l generalizing s with
  | nil =>
    simp only [runAll, Host.Outcome.next.injEq] at e
    subst e
    exact Same.refl _ _
  | cons x l ih =>
    simp only [runAll] at e
    split at e
    · rename_i s₁ k
      exact (runHeld_same x m_glb m_sb m_cdc m_flash m_job m_blocks m_regions m_queues m_tensors m_mem m_gov m_upd m_drv m_ports m_hci m_pwr m_eng m_err m_age m_trc m_stop m_counters m_clearTime m_out m_fresh k).trans (ih e)
    · rename_i k
      exact (k _ e).elim

theorem State.release_same {s₀ s t : State} {fp : List Part} (h : Same fp s₀ s) (old : State) (m_glb : Part.glb ∈ fp) (m_sb : Part.sb ∈ fp) (m_cdc : Part.cdc ∈ fp) (m_flash : Part.flash ∈ fp) (m_job : Part.job ∈ fp) (m_blocks : Part.blocks ∈ fp) (m_regions : Part.regions ∈ fp) (m_queues : Part.queues ∈ fp) (m_tensors : Part.tensors ∈ fp) (m_mem : Part.mem ∈ fp) (m_gov : Part.gov ∈ fp) (m_upd : Part.upd ∈ fp) (m_drv : Part.drv ∈ fp) (m_ports : Part.ports ∈ fp) (m_hci : Part.hci ∈ fp) (m_pwr : Part.pwr ∈ fp) (m_eng : Part.eng ∈ fp) (m_err : Part.err ∈ fp) (m_age : Part.age ∈ fp) (m_trc : Part.trc ∈ fp) (m_stop : Part.stop ∈ fp) (m_counters : Part.counters ∈ fp) (m_clearTime : Part.clearTime ∈ fp) (m_out : Part.out ∈ fp) (m_fresh : Part.fresh ∈ fp) (e : s.release old = .next t) : Same fp s₀ t := by
  unfold State.release at e
  split at e
  · simp only [Host.Outcome.next.injEq] at e
    subst e
    exact h
  · exact (show Same fp s₀ { s with hci := { s.hci with held := [] } } by simp (maxDischargeDepth := 60) [h, m_glb, m_sb, m_cdc, m_flash, m_job, m_blocks, m_regions, m_queues, m_tensors, m_mem, m_gov, m_upd, m_drv, m_ports, m_hci, m_pwr, m_eng, m_err, m_age, m_trc, m_stop, m_counters, m_clearTime, m_out, m_fresh]).trans (runAll_same _ m_glb m_sb m_cdc m_flash m_job m_blocks m_regions m_queues m_tensors m_mem m_gov m_upd m_drv m_ports m_hci m_pwr m_eng m_err m_age m_trc m_stop m_counters m_clearTime m_out m_fresh e)

theorem execWake_same {s t : State} {fp : List Part}  (m_glb : Part.glb ∈ fp) (m_sb : Part.sb ∈ fp) (m_cdc : Part.cdc ∈ fp) (m_flash : Part.flash ∈ fp) (m_job : Part.job ∈ fp) (m_blocks : Part.blocks ∈ fp) (m_regions : Part.regions ∈ fp) (m_queues : Part.queues ∈ fp) (m_tensors : Part.tensors ∈ fp) (m_mem : Part.mem ∈ fp) (m_gov : Part.gov ∈ fp) (m_upd : Part.upd ∈ fp) (m_drv : Part.drv ∈ fp) (m_ports : Part.ports ∈ fp) (m_hci : Part.hci ∈ fp) (m_pwr : Part.pwr ∈ fp) (m_eng : Part.eng ∈ fp) (m_err : Part.err ∈ fp) (m_age : Part.age ∈ fp) (m_trc : Part.trc ∈ fp) (m_stop : Part.stop ∈ fp) (m_counters : Part.counters ∈ fp) (m_clearTime : Part.clearTime ∈ fp) (m_out : Part.out ∈ fp) (m_fresh : Part.fresh ∈ fp) (e : execWake s = .next t) : Same fp s t := by
  have h := Same.refl fp s
  simp only [execWake] at e
  exact State.release_same (by simp (maxDischargeDepth := 60) +contextual [h, m_glb, m_sb, m_cdc, m_flash, m_job, m_blocks, m_regions, m_queues, m_tensors, m_mem, m_gov, m_upd, m_drv, m_ports, m_hci, m_pwr, m_eng, m_err, m_age, m_trc, m_stop, m_counters, m_clearTime, m_out, m_fresh]) _ m_glb m_sb m_cdc m_flash m_job m_blocks m_regions m_queues m_tensors m_mem m_gov m_upd m_drv m_ports m_hci m_pwr m_eng m_err m_age m_trc m_stop m_counters m_clearTime m_out m_fresh e

theorem execRegisterWrite_same {s t : State} {fp : List Part} (path : Path) (offset : Nat) (value : Reg)  (m_glb : Part.glb ∈ fp) (m_sb : Part.sb ∈ fp) (m_cdc : Part.cdc ∈ fp) (m_flash : Part.flash ∈ fp) (m_job : Part.job ∈ fp) (m_blocks : Part.blocks ∈ fp) (m_regions : Part.regions ∈ fp) (m_queues : Part.queues ∈ fp) (m_tensors : Part.tensors ∈ fp) (m_mem : Part.mem ∈ fp) (m_gov : Part.gov ∈ fp) (m_upd : Part.upd ∈ fp) (m_drv : Part.drv ∈ fp) (m_ports : Part.ports ∈ fp) (m_hci : Part.hci ∈ fp) (m_pwr : Part.pwr ∈ fp) (m_eng : Part.eng ∈ fp) (m_err : Part.err ∈ fp) (m_age : Part.age ∈ fp) (m_trc : Part.trc ∈ fp) (m_stop : Part.stop ∈ fp) (m_counters : Part.counters ∈ fp) (m_clearTime : Part.clearTime ∈ fp) (m_out : Part.out ∈ fp) (m_fresh : Part.fresh ∈ fp) (e : execRegisterWrite path offset value s = .next t) : Same fp s t := by
  have h := Same.refl fp s
  simp only [execRegisterWrite] at e
  exact State.release_same (by simp (maxDischargeDepth := 60) +contextual [h, m_glb, m_sb, m_cdc, m_flash, m_job, m_blocks, m_regions, m_queues, m_tensors, m_mem, m_gov, m_upd, m_drv, m_ports, m_hci, m_pwr, m_eng, m_err, m_age, m_trc, m_stop, m_counters, m_clearTime, m_out, m_fresh]) _ m_glb m_sb m_cdc m_flash m_job m_blocks m_regions m_queues m_tensors m_mem m_gov m_upd m_drv m_ports m_hci m_pwr m_eng m_err m_age m_trc m_stop m_counters m_clearTime m_out m_fresh e

theorem execSidebandWrite_same {s t : State} {fp : List Part} (count : Nat) (bytes : List Byte) (pecOk : Bool) (m_glb : Part.glb ∈ fp) (m_sb : Part.sb ∈ fp) (m_cdc : Part.cdc ∈ fp) (m_flash : Part.flash ∈ fp) (m_job : Part.job ∈ fp) (m_blocks : Part.blocks ∈ fp) (m_regions : Part.regions ∈ fp) (m_queues : Part.queues ∈ fp) (m_tensors : Part.tensors ∈ fp) (m_mem : Part.mem ∈ fp) (m_gov : Part.gov ∈ fp) (m_upd : Part.upd ∈ fp) (m_drv : Part.drv ∈ fp) (m_ports : Part.ports ∈ fp) (m_hci : Part.hci ∈ fp) (m_pwr : Part.pwr ∈ fp) (m_eng : Part.eng ∈ fp) (m_err : Part.err ∈ fp) (m_age : Part.age ∈ fp) (m_trc : Part.trc ∈ fp) (m_stop : Part.stop ∈ fp) (m_counters : Part.counters ∈ fp) (m_clearTime : Part.clearTime ∈ fp) (m_out : Part.out ∈ fp) (m_fresh : Part.fresh ∈ fp) (e : execSidebandWrite count bytes pecOk s = .next t) : Same fp s t := by
  have h := Same.refl fp s
  simp only [execSidebandWrite] at e
  (repeat' split at e) <;> first
    | (simp only [Host.Outcome.next.injEq] at e; subst e; simp (maxDischargeDepth := 60) [h, m_glb, m_sb, m_cdc, m_flash, m_job, m_blocks, m_regions, m_queues, m_tensors, m_mem, m_gov, m_upd, m_drv, m_ports, m_hci, m_pwr, m_eng, m_err, m_age, m_trc, m_stop, m_counters, m_clearTime, m_out, m_fresh]; done)
    | exact State.release_same (by simp (maxDischargeDepth := 60) [h, m_glb, m_sb, m_cdc, m_flash, m_job, m_blocks, m_regions, m_queues, m_tensors, m_mem, m_gov, m_upd, m_drv, m_ports, m_hci, m_pwr, m_eng, m_err, m_age, m_trc, m_stop, m_counters, m_clearTime, m_out, m_fresh]) _ m_glb m_sb m_cdc m_flash m_job m_blocks m_regions m_queues m_tensors m_mem m_gov m_upd m_drv m_ports m_hci m_pwr m_eng m_err m_age m_trc m_stop m_counters m_clearTime m_out m_fresh e

theorem execSidebandRead_same {s t : State} {fp : List Part} (count : SbHead) (bytes : List Byte) (m_sb : Part.sb ∈ fp) (m_cdc : Part.cdc ∈ fp) (m_blocks : Part.blocks ∈ fp) (m_regions : Part.regions ∈ fp) (m_drv : Part.drv ∈ fp) (m_ports : Part.ports ∈ fp) (m_hci : Part.hci ∈ fp) (m_pwr : Part.pwr ∈ fp) (m_eng : Part.eng ∈ fp) (m_err : Part.err ∈ fp) (m_counters : Part.counters ∈ fp) (m_out : Part.out ∈ fp) (m_fresh : Part.fresh ∈ fp) (e : execSidebandRead count bytes s = .next t) : Same fp s t := by
  have h := Same.refl fp s
  simp only [execSidebandRead, Host.Outcome.next.injEq] at e
  subst e
  simp +contextual (maxDischargeDepth := 60) [h, m_sb, m_cdc, m_blocks, m_regions, m_drv, m_ports, m_hci, m_pwr, m_eng, m_err, m_counters, m_out, m_fresh]

theorem execSidebandBlockRead_same {s t : State} {fp : List Part} (count : SbHead) (bytes : List Byte) (m_sb : Part.sb ∈ fp) (m_cdc : Part.cdc ∈ fp) (m_blocks : Part.blocks ∈ fp) (m_regions : Part.regions ∈ fp) (m_drv : Part.drv ∈ fp) (m_ports : Part.ports ∈ fp) (m_hci : Part.hci ∈ fp) (m_pwr : Part.pwr ∈ fp) (m_eng : Part.eng ∈ fp) (m_err : Part.err ∈ fp) (m_counters : Part.counters ∈ fp) (m_out : Part.out ∈ fp) (m_fresh : Part.fresh ∈ fp) (e : execSidebandBlockRead count bytes s = .next t) : Same fp s t := by
  have h := Same.refl fp s
  simp only [execSidebandBlockRead, Host.Outcome.next.injEq] at e
  subst e
  simp +contextual (maxDischargeDepth := 60) [h, m_sb, m_cdc, m_blocks, m_regions, m_drv, m_ports, m_hci, m_pwr, m_eng, m_err, m_counters, m_out, m_fresh]

theorem execSidebandRepeatRead_same {s t : State} {fp : List Part} (count : SbHead) (m_sb : Part.sb ∈ fp) (m_ports : Part.ports ∈ fp) (m_counters : Part.counters ∈ fp) (m_out : Part.out ∈ fp) (e : execSidebandRepeatRead count s = .next t) : Same fp s t := by
  have h := Same.refl fp s
  simp only [execSidebandRepeatRead, Host.Outcome.next.injEq] at e
  subst e
  simp +contextual (maxDischargeDepth := 60) [h, m_sb, m_ports, m_counters, m_out]

theorem execSidebandUnlistedCommand_same {s t : State} {fp : List Part} (code : Nat) (m_sb : Part.sb ∈ fp) (m_ports : Part.ports ∈ fp) (m_counters : Part.counters ∈ fp) (m_out : Part.out ∈ fp) (e : execSidebandUnlistedCommand code s = .next t) : Same fp s t := by
  have h := Same.refl fp s
  simp only [execSidebandUnlistedCommand, Host.Outcome.next.injEq] at e
  subst e
  simp +contextual (maxDischargeDepth := 60) [h, m_sb, m_ports, m_counters, m_out]

theorem execAlertResponse_same {s t : State} {fp : List Part} (m_ports : Part.ports ∈ fp) (m_counters : Part.counters ∈ fp) (m_out : Part.out ∈ fp) (e : execAlertResponse s = .next t) : Same fp s t := by
  have h := Same.refl fp s
  simp only [execAlertResponse, Host.Outcome.next.injEq] at e
  subst e
  simp +contextual (maxDischargeDepth := 60) [h, m_ports, m_counters, m_out]

theorem execPowerGoodRise_same {s t : State} {fp : List Part} (straps : Nat) (resetHigh : Bool) (m_board : Part.board ∈ fp) (m_glb : Part.glb ∈ fp) (m_sb : Part.sb ∈ fp) (m_cdc : Part.cdc ∈ fp) (m_flash : Part.flash ∈ fp) (m_job : Part.job ∈ fp) (m_blocks : Part.blocks ∈ fp) (m_regions : Part.regions ∈ fp) (m_queues : Part.queues ∈ fp) (m_tensors : Part.tensors ∈ fp) (m_mem : Part.mem ∈ fp) (m_gov : Part.gov ∈ fp) (m_upd : Part.upd ∈ fp) (m_drv : Part.drv ∈ fp) (m_ports : Part.ports ∈ fp) (m_lnkPorts : Part.lnkPorts ∈ fp) (m_hci : Part.hci ∈ fp) (m_pwr : Part.pwr ∈ fp) (m_eng : Part.eng ∈ fp) (m_err : Part.err ∈ fp) (m_age : Part.age ∈ fp) (m_trc : Part.trc ∈ fp) (m_stop : Part.stop ∈ fp) (m_counters : Part.counters ∈ fp) (m_clearTime : Part.clearTime ∈ fp) (e : execPowerGoodRise straps resetHigh s = .next t) : Same fp s t := by
  have h := Same.refl fp s
  simp only [execPowerGoodRise] at e
  (repeat' split at e) <;> (simp only [Host.Outcome.next.injEq] at e; subst e; simp +contextual (maxDischargeDepth := 60) [h, m_board, m_glb, m_sb, m_cdc, m_flash, m_job, m_blocks, m_regions, m_queues, m_tensors, m_mem, m_gov, m_upd, m_drv, m_ports, m_lnkPorts, m_hci, m_pwr, m_eng, m_err, m_age, m_trc, m_stop, m_counters, m_clearTime])

theorem execPowerGoodFall_same {s t : State} {fp : List Part} (m_board : Part.board ∈ fp) (m_glb : Part.glb ∈ fp) (m_sb : Part.sb ∈ fp) (m_cdc : Part.cdc ∈ fp) (m_job : Part.job ∈ fp) (m_blocks : Part.blocks ∈ fp) (m_regions : Part.regions ∈ fp) (m_queues : Part.queues ∈ fp) (m_tensors : Part.tensors ∈ fp) (m_mem : Part.mem ∈ fp) (m_gov : Part.gov ∈ fp) (m_upd : Part.upd ∈ fp) (m_drv : Part.drv ∈ fp) (m_ports : Part.ports ∈ fp) (m_lnkPorts : Part.lnkPorts ∈ fp) (m_hci : Part.hci ∈ fp) (m_pwr : Part.pwr ∈ fp) (m_eng : Part.eng ∈ fp) (m_err : Part.err ∈ fp) (m_age : Part.age ∈ fp) (m_trc : Part.trc ∈ fp) (m_stop : Part.stop ∈ fp) (m_counters : Part.counters ∈ fp) (m_clearTime : Part.clearTime ∈ fp) (e : execPowerGoodFall s = .next t) : Same fp s t := by
  have h := Same.refl fp s
  simp only [execPowerGoodFall] at e
  (repeat' split at e) <;> (simp only [Host.Outcome.next.injEq] at e; subst e; simp +contextual (maxDischargeDepth := 60) [h, m_board, m_glb, m_sb, m_cdc, m_job, m_blocks, m_regions, m_queues, m_tensors, m_mem, m_gov, m_upd, m_drv, m_ports, m_lnkPorts, m_hci, m_pwr, m_eng, m_err, m_age, m_trc, m_stop, m_counters, m_clearTime])

theorem execResetNFall_same {s t : State} {fp : List Part} (lowNs : Nat) (m_board : Part.board ∈ fp) (m_glb : Part.glb ∈ fp) (m_cdc : Part.cdc ∈ fp) (m_job : Part.job ∈ fp) (m_blocks : Part.blocks ∈ fp) (m_regions : Part.regions ∈ fp) (m_queues : Part.queues ∈ fp) (m_tensors : Part.tensors ∈ fp) (m_mem : Part.mem ∈ fp) (m_gov : Part.gov ∈ fp) (m_upd : Part.upd ∈ fp) (m_drv : Part.drv ∈ fp) (m_ports : Part.ports ∈ fp) (m_lnkPorts : Part.lnkPorts ∈ fp) (m_hci : Part.hci ∈ fp) (m_pwr : Part.pwr ∈ fp) (m_eng : Part.eng ∈ fp) (m_err : Part.err ∈ fp) (m_age : Part.age ∈ fp) (m_trc : Part.trc ∈ fp) (m_stop : Part.stop ∈ fp) (m_counters : Part.counters ∈ fp) (m_out : Part.out ∈ fp) (m_fresh : Part.fresh ∈ fp) (e : execResetNFall lowNs s = .next t) : Same fp s t := by
  have h := Same.refl fp s
  simp only [execResetNFall] at e
  (repeat' split at e) <;> (simp only [Host.Outcome.next.injEq] at e; subst e; simp +contextual (maxDischargeDepth := 60) [h, m_board, m_glb, m_cdc, m_job, m_blocks, m_regions, m_queues, m_tensors, m_mem, m_gov, m_upd, m_drv, m_ports, m_lnkPorts, m_hci, m_pwr, m_eng, m_err, m_age, m_trc, m_stop, m_counters, m_out, m_fresh])

theorem execFlashPassThrough_same {s t : State} {fp : List Part} (image : Option (List Byte)) (recovery : Option (List Byte)) (eraseJournal : JournalUse) (m_board : Part.board ∈ fp) (m_flash : Part.flash ∈ fp) (m_ports : Part.ports ∈ fp) (m_counters : Part.counters ∈ fp) (m_out : Part.out ∈ fp) (e : execFlashPassThrough image recovery eraseJournal s = .next t) : Same fp s t := by
  have h := Same.refl fp s
  simp only [execFlashPassThrough] at e
  (repeat' split at e) <;> (simp only [Host.Outcome.next.injEq] at e; subst e; simp +contextual (maxDischargeDepth := 60) [h, m_board, m_flash, m_ports, m_counters, m_out])

theorem execPageMigration_same {s t : State} {fp : List Part} (region : Nat) (page : Nat) (m_mem : Part.mem ∈ fp) (m_counters : Part.counters ∈ fp) (e : execPageMigration region page s = .next t) : Same fp s t := by
  have h := Same.refl fp s
  simp only [execPageMigration] at e
  (repeat' split at e) <;> (simp only [Host.Outcome.next.injEq] at e; subst e; simp +contextual (maxDischargeDepth := 60) [h, m_mem, m_counters])

theorem execEviction_same {s t : State} {fp : List Part} (m_mem : Part.mem ∈ fp) (e : execEviction s = .next t) : Same fp s t := by
  have h := Same.refl fp s
  simp only [execEviction] at e
  (repeat' split at e) <;> (simp only [Host.Outcome.next.injEq] at e; subst e; simp +contextual (maxDischargeDepth := 60) [h, m_mem])

theorem execMigrationComplete_same {s t : State} {fp : List Part} (page : Nat) (ups : Upsets) (m_glb : Part.glb ∈ fp) (m_flash : Part.flash ∈ fp) (m_blocks : Part.blocks ∈ fp) (m_regions : Part.regions ∈ fp) (m_queues : Part.queues ∈ fp) (m_tensors : Part.tensors ∈ fp) (m_mem : Part.mem ∈ fp) (m_gov : Part.gov ∈ fp) (m_upd : Part.upd ∈ fp) (m_drv : Part.drv ∈ fp) (m_ports : Part.ports ∈ fp) (m_hci : Part.hci ∈ fp) (m_eng : Part.eng ∈ fp) (m_err : Part.err ∈ fp) (m_age : Part.age ∈ fp) (m_trc : Part.trc ∈ fp) (m_counters : Part.counters ∈ fp) (m_out : Part.out ∈ fp) (m_fresh : Part.fresh ∈ fp) (e : execMigrationComplete page ups s = .next t) : Same fp s t := by
  have h := Same.refl fp s
  unfold execMigrationComplete at e
  split at e <;> injection e with e <;> subst e
  · exact h
  · exact State.moveEnds_same page _ ups _ (by simp (maxDischargeDepth := 60) [h, m_glb, m_flash, m_blocks, m_regions, m_queues, m_tensors, m_mem, m_gov, m_upd, m_drv, m_ports, m_hci, m_eng, m_err, m_age, m_trc, m_counters, m_out, m_fresh]) m_glb m_flash m_blocks m_regions m_queues m_tensors m_mem m_gov m_upd m_drv m_ports m_hci m_eng m_err m_age m_trc m_counters m_out m_fresh

theorem execMigrationWatchdog_same {s t : State} {fp : List Part} (page : Nat) (m_flash : Part.flash ∈ fp) (m_regions : Part.regions ∈ fp) (m_mem : Part.mem ∈ fp) (m_err : Part.err ∈ fp) (m_trc : Part.trc ∈ fp) (m_counters : Part.counters ∈ fp) (m_fresh : Part.fresh ∈ fp) (e : execMigrationWatchdog page s = .next t) : Same fp s t := by
  have h := Same.refl fp s
  simp only [execMigrationWatchdog] at e
  (repeat' split at e) <;> (simp only [Host.Outcome.next.injEq] at e; subst e; simp +contextual (maxDischargeDepth := 60) [h, m_flash, m_regions, m_mem, m_err, m_trc, m_counters, m_fresh])

theorem execMemTemperatureRead_same {s t : State} {fp : List Part} (ctl : Nat) (temp : Nat) (m_flash : Part.flash ∈ fp) (m_regions : Part.regions ∈ fp) (m_mem : Part.mem ∈ fp) (m_err : Part.err ∈ fp) (m_trc : Part.trc ∈ fp) (m_counters : Part.counters ∈ fp) (m_fresh : Part.fresh ∈ fp) (e : execMemTemperatureRead ctl temp s = .next t) : Same fp s t := by
  have h := Same.refl fp s
  simp only [execMemTemperatureRead] at e
  (repeat' split at e) <;> (simp only [Host.Outcome.next.injEq] at e; subst e; simp +contextual (maxDischargeDepth := 60) [h, m_flash, m_regions, m_mem, m_err, m_trc, m_counters, m_fresh])

theorem execMemRefresh_same {s t : State} {fp : List Part} (ctl : Nat) (bank : Nat) (m_mem : Part.mem ∈ fp) (e : execMemRefresh ctl bank s = .next t) : Same fp s t := by
  have h := Same.refl fp s
  simp only [execMemRefresh] at e
  (repeat' split at e) <;> (simp only [Host.Outcome.next.injEq] at e; subst e; simp +contextual (maxDischargeDepth := 60) [h, m_mem])

theorem execVec_same {s t : State} {fp : List Part} (f : Fire) (m_glb : Part.glb ∈ fp) (m_flash : Part.flash ∈ fp) (m_blocks : Part.blocks ∈ fp) (m_regions : Part.regions ∈ fp) (m_queues : Part.queues ∈ fp) (m_tensors : Part.tensors ∈ fp) (m_mem : Part.mem ∈ fp) (m_ports : Part.ports ∈ fp) (m_hci : Part.hci ∈ fp) (m_eng : Part.eng ∈ fp) (m_err : Part.err ∈ fp) (m_age : Part.age ∈ fp) (m_trc : Part.trc ∈ fp) (m_counters : Part.counters ∈ fp) (m_out : Part.out ∈ fp) (m_fresh : Part.fresh ∈ fp) (e : execVec f s = .next t) : Same fp s t := by
  have h := Same.refl fp s
  simp only [execVec, Host.Outcome.next.injEq] at e
  subst e
  simp +contextual (maxDischargeDepth := 60) [h, m_glb, m_flash, m_blocks, m_regions, m_queues, m_tensors, m_mem, m_ports, m_hci, m_eng, m_err, m_age, m_trc, m_counters, m_out, m_fresh]

theorem execNorm_same {s t : State} {fp : List Part} (f : Fire) (m_glb : Part.glb ∈ fp) (m_flash : Part.flash ∈ fp) (m_blocks : Part.blocks ∈ fp) (m_regions : Part.regions ∈ fp) (m_queues : Part.queues ∈ fp) (m_tensors : Part.tensors ∈ fp) (m_mem : Part.mem ∈ fp) (m_ports : Part.ports ∈ fp) (m_hci : Part.hci ∈ fp) (m_eng : Part.eng ∈ fp) (m_err : Part.err ∈ fp) (m_age : Part.age ∈ fp) (m_trc : Part.trc ∈ fp) (m_counters : Part.counters ∈ fp) (m_out : Part.out ∈ fp) (m_fresh : Part.fresh ∈ fp) (e : execNorm f s = .next t) : Same fp s t := by
  have h := Same.refl fp s
  simp only [execNorm, Host.Outcome.next.injEq] at e
  subst e
  simp +contextual (maxDischargeDepth := 60) [h, m_glb, m_flash, m_blocks, m_regions, m_queues, m_tensors, m_mem, m_ports, m_hci, m_eng, m_err, m_age, m_trc, m_counters, m_out, m_fresh]

theorem execSoftmax_same {s t : State} {fp : List Part} (f : Fire) (m_glb : Part.glb ∈ fp) (m_flash : Part.flash ∈ fp) (m_blocks : Part.blocks ∈ fp) (m_regions : Part.regions ∈ fp) (m_queues : Part.queues ∈ fp) (m_tensors : Part.tensors ∈ fp) (m_mem : Part.mem ∈ fp) (m_ports : Part.ports ∈ fp) (m_hci : Part.hci ∈ fp) (m_eng : Part.eng ∈ fp) (m_err : Part.err ∈ fp) (m_age : Part.age ∈ fp) (m_trc : Part.trc ∈ fp) (m_counters : Part.counters ∈ fp) (m_out : Part.out ∈ fp) (m_fresh : Part.fresh ∈ fp) (e : execSoftmax f s = .next t) : Same fp s t := by
  have h := Same.refl fp s
  simp only [execSoftmax, Host.Outcome.next.injEq] at e
  subst e
  simp +contextual (maxDischargeDepth := 60) [h, m_glb, m_flash, m_blocks, m_regions, m_queues, m_tensors, m_mem, m_ports, m_hci, m_eng, m_err, m_age, m_trc, m_counters, m_out, m_fresh]

theorem execReduce_same {s t : State} {fp : List Part} (f : Fire) (m_glb : Part.glb ∈ fp) (m_flash : Part.flash ∈ fp) (m_blocks : Part.blocks ∈ fp) (m_regions : Part.regions ∈ fp) (m_queues : Part.queues ∈ fp) (m_tensors : Part.tensors ∈ fp) (m_mem : Part.mem ∈ fp) (m_ports : Part.ports ∈ fp) (m_hci : Part.hci ∈ fp) (m_eng : Part.eng ∈ fp) (m_err : Part.err ∈ fp) (m_age : Part.age ∈ fp) (m_trc : Part.trc ∈ fp) (m_counters : Part.counters ∈ fp) (m_out : Part.out ∈ fp) (m_fresh : Part.fresh ∈ fp) (e : execReduce f s = .next t) : Same fp s t := by
  have h := Same.refl fp s
  simp only [execReduce, Host.Outcome.next.injEq] at e
  subst e
  simp +contextual (maxDischargeDepth := 60) [h, m_glb, m_flash, m_blocks, m_regions, m_queues, m_tensors, m_mem, m_ports, m_hci, m_eng, m_err, m_age, m_trc, m_counters, m_out, m_fresh]

theorem execRouteTopk_same {s t : State} {fp : List Part} (f : Fire) (m_glb : Part.glb ∈ fp) (m_flash : Part.flash ∈ fp) (m_blocks : Part.blocks ∈ fp) (m_regions : Part.regions ∈ fp) (m_queues : Part.queues ∈ fp) (m_tensors : Part.tensors ∈ fp) (m_mem : Part.mem ∈ fp) (m_ports : Part.ports ∈ fp) (m_hci : Part.hci ∈ fp) (m_eng : Part.eng ∈ fp) (m_err : Part.err ∈ fp) (m_age : Part.age ∈ fp) (m_trc : Part.trc ∈ fp) (m_counters : Part.counters ∈ fp) (m_out : Part.out ∈ fp) (m_fresh : Part.fresh ∈ fp) (e : execRouteTopk f s = .next t) : Same fp s t := by
  have h := Same.refl fp s
  simp only [execRouteTopk, Host.Outcome.next.injEq] at e
  subst e
  simp +contextual (maxDischargeDepth := 60) [h, m_glb, m_flash, m_blocks, m_regions, m_queues, m_tensors, m_mem, m_ports, m_hci, m_eng, m_err, m_age, m_trc, m_counters, m_out, m_fresh]

theorem execRouteCount_same {s t : State} {fp : List Part} (f : Fire) (m_glb : Part.glb ∈ fp) (m_flash : Part.flash ∈ fp) (m_blocks : Part.blocks ∈ fp) (m_regions : Part.regions ∈ fp) (m_queues : Part.queues ∈ fp) (m_tensors : Part.tensors ∈ fp) (m_mem : Part.mem ∈ fp) (m_ports : Part.ports ∈ fp) (m_hci : Part.hci ∈ fp) (m_eng : Part.eng ∈ fp) (m_err : Part.err ∈ fp) (m_age : Part.age ∈ fp) (m_trc : Part.trc ∈ fp) (m_counters : Part.counters ∈ fp) (m_out : Part.out ∈ fp) (m_fresh : Part.fresh ∈ fp) (e : execRouteCount f s = .next t) : Same fp s t := by
  have h := Same.refl fp s
  simp only [execRouteCount, Host.Outcome.next.injEq] at e
  subst e
  simp +contextual (maxDischargeDepth := 60) [h, m_glb, m_flash, m_blocks, m_regions, m_queues, m_tensors, m_mem, m_ports, m_hci, m_eng, m_err, m_age, m_trc, m_counters, m_out, m_fresh]

theorem execQuant_same {s t : State} {fp : List Part} (f : Fire) (m_glb : Part.glb ∈ fp) (m_flash : Part.flash ∈ fp) (m_blocks : Part.blocks ∈ fp) (m_regions : Part.regions ∈ fp) (m_queues : Part.queues ∈ fp) (m_tensors : Part.tensors ∈ fp) (m_mem : Part.mem ∈ fp) (m_ports : Part.ports ∈ fp) (m_hci : Part.hci ∈ fp) (m_eng : Part.eng ∈ fp) (m_err : Part.err ∈ fp) (m_age : Part.age ∈ fp) (m_trc : Part.trc ∈ fp) (m_counters : Part.counters ∈ fp) (m_out : Part.out ∈ fp) (m_fresh : Part.fresh ∈ fp) (e : execQuant f s = .next t) : Same fp s t := by
  have h := Same.refl fp s
  simp only [execQuant, Host.Outcome.next.injEq] at e
  subst e
  simp +contextual (maxDischargeDepth := 60) [h, m_glb, m_flash, m_blocks, m_regions, m_queues, m_tensors, m_mem, m_ports, m_hci, m_eng, m_err, m_age, m_trc, m_counters, m_out, m_fresh]

theorem execDequant_same {s t : State} {fp : List Part} (f : Fire) (m_glb : Part.glb ∈ fp) (m_flash : Part.flash ∈ fp) (m_blocks : Part.blocks ∈ fp) (m_regions : Part.regions ∈ fp) (m_queues : Part.queues ∈ fp) (m_tensors : Part.tensors ∈ fp) (m_mem : Part.mem ∈ fp) (m_ports : Part.ports ∈ fp) (m_hci : Part.hci ∈ fp) (m_eng : Part.eng ∈ fp) (m_err : Part.err ∈ fp) (m_age : Part.age ∈ fp) (m_trc : Part.trc ∈ fp) (m_counters : Part.counters ∈ fp) (m_out : Part.out ∈ fp) (m_fresh : Part.fresh ∈ fp) (e : execDequant f s = .next t) : Same fp s t := by
  have h := Same.refl fp s
  simp only [execDequant, Host.Outcome.next.injEq] at e
  subst e
  simp +contextual (maxDischargeDepth := 60) [h, m_glb, m_flash, m_blocks, m_regions, m_queues, m_tensors, m_mem, m_ports, m_hci, m_eng, m_err, m_age, m_trc, m_counters, m_out, m_fresh]

theorem execRng_same {s t : State} {fp : List Part} (f : Fire) (m_glb : Part.glb ∈ fp) (m_flash : Part.flash ∈ fp) (m_blocks : Part.blocks ∈ fp) (m_regions : Part.regions ∈ fp) (m_queues : Part.queues ∈ fp) (m_tensors : Part.tensors ∈ fp) (m_mem : Part.mem ∈ fp) (m_ports : Part.ports ∈ fp) (m_hci : Part.hci ∈ fp) (m_eng : Part.eng ∈ fp) (m_err : Part.err ∈ fp) (m_age : Part.age ∈ fp) (m_trc : Part.trc ∈ fp) (m_counters : Part.counters ∈ fp) (m_out : Part.out ∈ fp) (m_fresh : Part.fresh ∈ fp) (e : execRng f s = .next t) : Same fp s t := by
  have h := Same.refl fp s
  simp only [execRng, Host.Outcome.next.injEq] at e
  subst e
  simp +contextual (maxDischargeDepth := 60) [h, m_glb, m_flash, m_blocks, m_regions, m_queues, m_tensors, m_mem, m_ports, m_hci, m_eng, m_err, m_age, m_trc, m_counters, m_out, m_fresh]

theorem execLoss_same {s t : State} {fp : List Part} (f : Fire) (m_glb : Part.glb ∈ fp) (m_flash : Part.flash ∈ fp) (m_blocks : Part.blocks ∈ fp) (m_regions : Part.regions ∈ fp) (m_queues : Part.queues ∈ fp) (m_tensors : Part.tensors ∈ fp) (m_mem : Part.mem ∈ fp) (m_ports : Part.ports ∈ fp) (m_hci : Part.hci ∈ fp) (m_eng : Part.eng ∈ fp) (m_err : Part.err ∈ fp) (m_age : Part.age ∈ fp) (m_trc : Part.trc ∈ fp) (m_counters : Part.counters ∈ fp) (m_out : Part.out ∈ fp) (m_fresh : Part.fresh ∈ fp) (e : execLoss f s = .next t) : Same fp s t := by
  have h := Same.refl fp s
  simp only [execLoss, Host.Outcome.next.injEq] at e
  subst e
  simp +contextual (maxDischargeDepth := 60) [h, m_glb, m_flash, m_blocks, m_regions, m_queues, m_tensors, m_mem, m_ports, m_hci, m_eng, m_err, m_age, m_trc, m_counters, m_out, m_fresh]

end Sys2Proof.Machine
end

