-- ==== Sys2Proof/Laws/KeepsBase.lean ====
section
/-! SUPPORT. What every command keeps (Safety.Keeps), for the shared operations: the relation itself, the plain updates, sending, counting, tracing, reporting, tensors and stage programs. -/

namespace Sys2Proof.Machine

set_option linter.unusedSimpArgs false
set_option linter.unusedVariables false

/-! ## Mv -/

theorem rising_iff_pairwise (l : List Nat) : rising l = true ↔ l.Pairwise (· < ·) := by
  induction l with
  | nil => simp [rising]
  | cons a r ih => rw [rising_cons, List.pairwise_cons, ih]

theorem wf_moveRange (src dst n : Nat) {m : Bytes} (h : Memory.wf m = true) :
    Memory.wf (moveRange src dst n (·.1) (fun x k => (k, x.2)) m) = true := by
  rw [Memory.wf_iff, rising_iff_pairwise, List.pairwise_map] at h ⊢
  obtain ⟨hp, hz⟩ := h
  unfold moveRange
  refine ⟨?_, ?_⟩
  · simp only [List.pairwise_append, List.pairwise_map, List.mem_append, List.mem_filter, List.mem_map, Bool.and_eq_true,
      Bool.not_eq_true', decide_eq_true_eq]
    refine ⟨⟨(hp.filter _).filter _, ?_, ?_⟩, (hp.filter _).filter _, ?_⟩
    · refine (List.Pairwise.imp_of_mem ?_ (hp.filter _))
      intro a b ha hb hab
      simp only [List.mem_filter, Bool.and_eq_true, decide_eq_true_eq] at ha hb
      omega
    · rintro a ⟨_, ha⟩ b ⟨c, ⟨_, hc⟩, rfl⟩
      simp only
      omega
    · rintro a (⟨_, ha⟩ | ⟨c, ⟨_, hc⟩, rfl⟩) b ⟨_, hb⟩
      · omega
      · simp only
        omega
  · intro c hc
    simp only [List.mem_append, List.mem_filter, List.mem_map] at hc
    rcases hc with (⟨⟨hc, _⟩, _⟩ | ⟨x, ⟨hx, _⟩, rfl⟩) | ⟨⟨hc, _⟩, _⟩
    · exact hz c hc
    · exact hz x hx
    · exact hz c hc

@[simp] theorem Flash.writeTrims_image (f : Flash) (l : List Trim) : (f.writeTrims l).image = f.image := by cases f; rfl
@[simp] theorem Flash.writeTrims_recovery (f : Flash) (l : List Trim) : (f.writeTrims l).recovery = f.recovery := by cases f; rfl
@[simp] theorem Flash.writeRepair_image (f : Flash) (l : List BadBlk) : (f.writeRepair l).image = f.image := by cases f; rfl
@[simp] theorem Flash.writeRepair_recovery (f : Flash) (l : List BadBlk) : (f.writeRepair l).recovery = f.recovery := by cases f; rfl
@[simp] theorem Flash.writePlan_image (f : Flash) (l : List PlanBlk) : (f.writePlan l).image = f.image := by cases f; rfl
@[simp] theorem Flash.writePlan_recovery (f : Flash) (l : List PlanBlk) : (f.writePlan l).recovery = f.recovery := by cases f; rfl

theorem storesWf_filter {m : Map Block} (p : Nat × Block → Bool) (h : storesWf m = true) : storesWf (m.filter p) = true := by
  simp only [storesWf, List.all_eq_true, List.mem_filter] at h ⊢
  exact fun e he => h e he.1

/-! ## Base -/

theorem Keeps.refl (s : State) : Keeps s s := ⟨rfl, rfl, rfl, rfl, rfl, List.suffix_refl _, id⟩

theorem Keeps.trans {a b c : State} (h : Keeps a b) (k : Keeps b c) : Keeps a c :=
  ⟨k.pending.trans h.pending, k.image.trans h.image, k.recovery.trans h.recovery, k.address.trans h.address, k.time.trans h.time,
   h.out.trans k.out, fun x => k.stores (h.stores x)⟩

theorem storesOk_iff (s : State) : s.storesOk = true ↔ Memory.wf s.mem.data = true ∧ storesWf s.blocks = true := by
  simp [State.storesOk]

/-- A state built from `s` keeps what `s` keeps where each part does. -/
@[simp] theorem keeps_mk {s₀ s : State} (h : Keeps s₀ s) {board glb sb cdc flash job blocks regions queues tensors mem gov upd drv ports lnkPorts hci
    pwr eng err age trc stop counters clearTime out fresh}
    (hb : board.addr = s.board.addr) (ht : board.time = s.board.time) (hi : flash.image = s.flash.image) (hr : flash.recovery = s.flash.recovery)
    (ho : s.out <:+ out) (hm : Memory.wf s.mem.data = true → Memory.wf mem.data = true) (hk : storesWf s.blocks = true → storesWf blocks = true) :
    Keeps s₀ ⟨board, glb, sb, cdc, flash, job, blocks, regions, queues, tensors, mem, gov, upd, drv, ports, lnkPorts, hci, pwr, eng, err,
      age, trc, stop, counters, clearTime, out, s.pending, fresh⟩ := by
  refine h.trans ⟨rfl, hi, hr, hb, ht, ho, ?_⟩
  simp only [storesOk_iff]
  exact fun x => ⟨hm x.1, hk x.2⟩

@[simp] theorem keeps_ite {s₀ a b : State} {c : Prop} [Decidable c] : Keeps s₀ (if c then a else b) ↔ if c then Keeps s₀ a else Keeps s₀ b := by
  split <;> rfl

@[simp] theorem keeps_foldl {α : Type} {s₀ : State} (f : State → α → State) (hf : ∀ s a, Keeps s₀ s → Keeps s₀ (f s a)) (l : List α) (s : State)
    (h : Keeps s₀ s) : Keeps s₀ (l.foldl f s) := by
  induction l generalizing s with
  | nil => exact h
  | cons a r ih => exact ih _ (hf s a h)

theorem keeps_foldl_fst {α β : Type} {s₀ : State} (f : State × β → α → State × β) (hf : ∀ p a, Keeps s₀ p.1 → Keeps s₀ (f p a).1) (l : List α)
    (p : State × β) (h : Keeps s₀ p.1) : Keeps s₀ (l.foldl f p).1 := by
  induction l generalizing p with
  | nil => exact h
  | cons a r ih => exact ih _ (hf p a h)

theorem storesWf_put {m : Map Block} {b : Nat} {x : Block} (h : storesWf m = true) (hx : Memory.wf x.store = true) :
    storesWf (put b x m) = true := by
  induction m with
  | nil => simp [storesWf, put, hx]
  | cons e r ih =>
    obtain ⟨a, y⟩ := e
    simp only [storesWf, List.all_cons, Bool.and_eq_true] at h ih
    simp only [put]
    split
    · simp [storesWf, hx, h.1, h.2]
    · split
      · simp [storesWf, hx, h.2]
      · simp [storesWf, h.1, ih h.2]

theorem storesWf_look {m : Map Block} (b : Nat) (h : storesWf m = true) : Memory.wf (look {} b m).store = true := by
  induction m with
  | nil => rfl
  | cons e r ih =>
    obtain ⟨a, y⟩ := e
    simp only [storesWf, List.all_cons, Bool.and_eq_true] at h ih
    simp only [look]
    split
    · exact h.1
    · exact ih h.2

theorem Keeps.blk {s₀ s : State} (h : Keeps s₀ s) (b : Nat) (hs : s₀.storesOk = true) : Memory.wf (s.blk b).store = true :=
  storesWf_look b ((storesOk_iff s).1 (h.stores hs)).2

theorem storesWf_map {m : Map Block} (f : Nat × Block → Nat × Block) (h : storesWf m = true) (hf : ∀ e, Memory.wf e.2.store = true → Memory.wf (f e).2.store = true) :
    storesWf (m.map f) = true := by
  simp only [storesWf, List.all_eq_true, List.mem_map] at h ⊢
  rintro _ ⟨e, he, rfl⟩
  exact hf e (h e he)

/-! ## Ops -/

@[simp] theorem takeFree_keeps {s₀ s : State} (h : Keeps s₀ s) : Keeps s₀ (takeFree s).2 := by
  unfold takeFree
  simp [h]

@[simp] theorem State.stamped_keeps {s₀ s : State} (h : Keeps s₀ s) : Keeps s₀ (State.stamped s) := by unfold State.stamped; simp (maxDischargeDepth := 40) [h]

@[simp] theorem State.count_keeps {s₀ s : State} (group : Nat) (inst : Nat) (idx : Nat) (n : Nat) (h : Keeps s₀ s) : Keeps s₀ (State.count s group inst idx n) := by unfold State.count; simp (maxDischargeDepth := 40) [h]

@[simp] theorem State.setBlk_keeps {s₀ s : State} (b : Nat) (x : Block) (h : Keeps s₀ s)
    (hx : Memory.wf (s.blk b).store = true → Memory.wf x.store = true) : Keeps s₀ (s.setBlk b x) := by
  unfold State.setBlk
  exact keeps_mk h rfl rfl rfl rfl List.suffix_rfl id fun k => storesWf_put k (hx (storesWf_look b k))
theorem State.setBlk_keeps_of {s₀ s : State} (b : Nat) (x : Block) (h : Keeps s₀ s) (hx : s₀.storesOk = true → Memory.wf x.store = true) :
    Keeps s₀ (s.setBlk b x) := by
  refine ⟨h.pending, h.image, h.recovery, h.address, h.time, h.out, fun k => ?_⟩
  have ok := (storesOk_iff s).1 (h.stores k)
  exact (storesOk_iff _).2 ⟨ok.1, storesWf_put ok.2 (hx k)⟩

@[simp] theorem State.modBlk_keeps {s₀ s : State} (b : Nat) (f : Block → Block) (h : Keeps s₀ s)
    (hf : ∀ y, Memory.wf y.store = true → Memory.wf (f y).store = true) : Keeps s₀ (s.modBlk b f) :=
  State.setBlk_keeps b _ h (hf _)

@[simp] theorem State.setRgn_keeps {s₀ s : State} (r : Nat) (x : Region) (h : Keeps s₀ s) : Keeps s₀ (State.setRgn s r x) := by unfold State.setRgn; simp (maxDischargeDepth := 40) [h]

@[simp] theorem State.modRgn_keeps {s₀ s : State} (r : Nat) (f : Region → Region) (h : Keeps s₀ s) : Keeps s₀ (State.modRgn s r f) := by unfold State.modRgn; simp (maxDischargeDepth := 40) [h]

@[simp] theorem State.setPort_keeps {s₀ s : State} (p : Nat) (x : Port) (h : Keeps s₀ s) : Keeps s₀ (State.setPort s p x) := by unfold State.setPort; simp (maxDischargeDepth := 40) [h]

@[simp] theorem State.modPort_keeps {s₀ s : State} (p : Nat) (f : Port → Port) (h : Keeps s₀ s) : Keeps s₀ (State.modPort s p f) := by unfold State.modPort; simp (maxDischargeDepth := 40) [h]

@[simp] theorem State.setTen_keeps {s₀ s : State} (t : Nat) (x : TensorRt) (h : Keeps s₀ s) : Keeps s₀ (State.setTen s t x) := by unfold State.setTen; simp (maxDischargeDepth := 40) [h]

@[simp] theorem State.modTen_keeps {s₀ s : State} (t : Nat) (f : TensorRt → TensorRt) (h : Keeps s₀ s) : Keeps s₀ (State.modTen s t f) := by unfold State.modTen; simp (maxDischargeDepth := 40) [h]

@[simp] theorem State.setQueue_keeps {s₀ s : State} (q : Nat) (x : Queue) (h : Keeps s₀ s) : Keeps s₀ (State.setQueue s q x) := by unfold State.setQueue; simp (maxDischargeDepth := 40) [h]

@[simp] theorem State.setSess_keeps {s₀ s : State} (n : Nat) (x : Session) (h : Keeps s₀ s) : Keeps s₀ (State.setSess s n x) := by unfold State.setSess; simp (maxDischargeDepth := 40) [h]

@[simp] theorem State.sendBlock_keeps {s₀ s : State} (p : Nat) (f : Flit) (h : Keeps s₀ s) : Keeps s₀ (s.sendBlock p f) := by
  unfold State.sendBlock
  exact keeps_mk (State.count_keeps _ _ _ _ (State.setPort_keeps _ _ h)) rfl rfl rfl rfl (List.suffix_cons _ _) id id

@[simp] theorem State.sendIdle_keeps {s₀ s : State} (p : Nat) (h : Keeps s₀ s) : Keeps s₀ (State.sendIdle s p) := by unfold State.sendIdle; simp (maxDischargeDepth := 40) [h]

@[simp] theorem State.sendReturns_keeps {s₀ s : State} (p n : Nat) (h : Keeps s₀ s) : Keeps s₀ (s.sendReturns p n) := by
  induction n generalizing s with
  | zero => exact h
  | succ n ih =>
    simp only [State.sendReturns]
    split
    · exact h
    · exact ih (State.sendBlock_keeps _ _ h)

@[simp] theorem State.repay_keeps {s₀ s : State} (p : Nat) (k : Nat) (n : Nat) (h : Keeps s₀ s) : Keeps s₀ (State.repay s p k n) := by unfold State.repay; simp (maxDischargeDepth := 40) [h]

@[simp] theorem State.leave_keeps {s₀ s : State} (f : Flit) (h : Keeps s₀ s) : Keeps s₀ (State.leave s f) := by unfold State.leave; simp (maxDischargeDepth := 40) [h]

@[simp] theorem State.pump_keeps {s₀ s : State} (p n : Nat) (h : Keeps s₀ s) : Keeps s₀ (s.pump p n) := by
  induction n generalizing s with
  | zero => exact h
  | succ n ih =>
    simp only [State.pump]
    (repeat' split) <;> simp (maxDischargeDepth := 40) [h, ih]

@[simp] theorem State.flush_keeps {s₀ s : State} (p : Nat) (h : Keeps s₀ s) : Keeps s₀ (State.flush s p) := by unfold State.flush; simp (maxDischargeDepth := 40) [h]

@[simp] theorem State.catchUp_keeps {s₀ s : State} (p : Nat) (h : Keeps s₀ s) : Keeps s₀ (State.catchUp s p) := by unfold State.catchUp; simp (maxDischargeDepth := 40) [h]

@[simp] theorem State.atPort_keeps {s₀ s : State} (p : Nat) (l : List Flit) (h : Keeps s₀ s) : Keeps s₀ (State.atPort s p l) := by unfold State.atPort; simp (maxDischargeDepth := 40) [h]

@[simp] theorem State.enqueue_keeps {s₀ s : State} (p : Nat) (l : List Flit) (h : Keeps s₀ s) : Keeps s₀ (State.enqueue s p l) := by unfold State.enqueue; simp (maxDischargeDepth := 40) [h]

@[simp] theorem State.spread_keeps {s₀ s : State} (ports : List Nat) (f : Flit) (h : Keeps s₀ s) : Keeps s₀ (State.spread s ports f) := by unfold State.spread; simp +contextual (maxDischargeDepth := 40) [h]

@[simp] theorem State.send_keeps {s₀ s : State} (o : Out) (h : Keeps s₀ s) : Keeps s₀ (State.send s o) := by
  simp only [State.send]
  (repeat' split) <;> simp +contextual (maxDischargeDepth := 40) [h]

@[simp] theorem State.sendAll_keeps {s₀ s : State} (l : List Out) (h : Keeps s₀ s) : Keeps s₀ (State.sendAll s l) := by unfold State.sendAll; simp +contextual (maxDischargeDepth := 40) [h]

@[simp] theorem State.taken_keeps {s₀ s : State} (p : Nat) (bytes : List Byte) (h : Keeps s₀ s) : Keeps s₀ (State.taken s p bytes) := by
  simp only [State.taken]
  (repeat' split) <;> simp +contextual (maxDischargeDepth := 40) [h]

@[simp] theorem State.hold_keeps {s₀ s : State} (i : Instr) (h : Keeps s₀ s) : Keeps s₀ (State.hold s i) := by unfold State.hold; simp (maxDischargeDepth := 40) [h]

/-! ## TraceOps -/

@[simp] theorem State.dropTrace_keeps {s₀ s : State} (region : Nat) (n : Nat) (h : Keeps s₀ s) : Keeps s₀ (State.dropTrace s region n) := by unfold State.dropTrace; simp (maxDischargeDepth := 40) [h]

@[simp] theorem State.fireTrigger_keeps {s₀ s : State} (h : Keeps s₀ s) : Keeps s₀ (State.fireTrigger s) := by unfold State.fireTrigger; simp (maxDischargeDepth := 40) [h]

@[simp] theorem State.writeTrace_keeps {s₀ s : State} (region : Nat) (l : List TRec) (h : Keeps s₀ s) : Keeps s₀ (State.writeTrace s region l) := by unfold State.writeTrace; simp (maxDischargeDepth := 40) [h]

@[simp] theorem State.drainFifo_keeps {s₀ s : State} (r n : Nat) (h : Keeps s₀ s) : Keeps s₀ (s.drainFifo r n) := by
  induction n generalizing s with
  | zero => exact h
  | succ n ih =>
    simp only [State.drainFifo]
    (repeat' split) <;> simp (maxDischargeDepth := 40) [h, ih]

@[simp] theorem State.offer_keeps {s₀ s : State} (region : Nat) (l : List TRec) (h : Keeps s₀ s) : Keeps s₀ (State.offer s region l) := by unfold State.offer; simp (maxDischargeDepth := 40) [h]

@[simp] theorem State.trace_keeps {s₀ s : State} (region : Nat) (r : TRec) (h : Keeps s₀ s) : Keeps s₀ (State.trace s region r) := by unfold State.trace; simp (maxDischargeDepth := 40) [h]

@[simp] theorem State.stopRecords_keeps {s₀ s : State} (region : Nat) (l : List TRec) (h : Keeps s₀ s) : Keeps s₀ (State.stopRecords s region l) := by unfold State.stopRecords; simp (maxDischargeDepth := 40) [h]

/-! ## Faults -/

@[simp] theorem State.alert_keeps {s₀ s : State} (b : Nat) (h : Keeps s₀ s) : Keeps s₀ (State.alert s b) := by unfold State.alert; simp (maxDischargeDepth := 40) [h]

@[simp] theorem logReport_keeps {s₀ s : State} (code : Nat) (src : Nat) (ctx : Nat) (time : Nat) (h : Keeps s₀ s) : Keeps s₀ (logReport s code src ctx time) := by
  simp only [logReport]
  (repeat' split) <;> simp +contextual (maxDischargeDepth := 40) [h]

@[simp] theorem addLife_keeps {s₀ s : State} (kind : Nat) (body : List Byte) (h : Keeps s₀ s) : Keeps s₀ (addLife s kind body) := by unfold addLife; simp (maxDischargeDepth := 40) [h]

@[simp] theorem State.lifeReport_keeps {s₀ s : State} (code : Nat) (src : Nat) (ctx : Nat) (time : Nat) (h : Keeps s₀ s) : Keeps s₀ (State.lifeReport s code src ctx time) := by
  simp only [State.lifeReport]
  (repeat' split) <;> simp +contextual (maxDischargeDepth := 40) [h]

@[simp] theorem toWindow_keeps {s₀ s : State} (code : Nat) (src : Nat) (ctx : Nat) (time : Nat) (dev : Option Nat) (h : Keeps s₀ s) : Keeps s₀ (toWindow s code src ctx time dev) := by unfold toWindow; simp (maxDischargeDepth := 40) [h]

@[simp] theorem quietStop_keeps {s₀ s : State} (code : Nat) (src : Nat) (ctx : Nat) (time : Nat) (dev : Option Nat) (h : Keeps s₀ s) : Keeps s₀ (quietStop s code src ctx time dev) := by unfold quietStop; simp (maxDischargeDepth := 40) [h]

@[simp] theorem stopFor_keeps {s₀ s : State} (code : Nat) (src : Nat) (ctx : Nat) (time : Nat) (h : Keeps s₀ s) : Keeps s₀ (stopFor s code src ctx time) := by unfold stopFor; simp (maxDischargeDepth := 40) [h]

@[simp] theorem reportAt_keeps {s₀ s : State} (code : Nat) (src : Nat) (ctx : Nat) (time : Nat) (h : Keeps s₀ s) : Keeps s₀ (reportAt s code src ctx time) := by
  simp only [reportAt]
  (repeat' split) <;> simp +contextual (maxDischargeDepth := 40) [h]

@[simp] theorem State.dropReport_keeps {s₀ s : State} (h : Keeps s₀ s) : Keeps s₀ (State.dropReport s) := by unfold State.dropReport; simp (maxDischargeDepth := 40) [h]

@[simp] theorem State.passReport_keeps {s₀ s : State} (code : Nat) (src : Nat) (ctx : Nat) (time : Nat) (h : Keeps s₀ s) : Keeps s₀ (State.passReport s code src ctx time) := by unfold State.passReport; simp (maxDischargeDepth := 40) [h]

@[simp] theorem raise_keeps {s₀ s : State} (code : Nat) (src : Nat) (ctx : Nat) (h : Keeps s₀ s) : Keeps s₀ (raise s code src ctx) := by unfold raise; simp (maxDischargeDepth := 40) [h]

@[simp] theorem State.blkSticky_keeps {s₀ s : State} (b : Nat) (bit : Nat) (h : Keeps s₀ s) : Keeps s₀ (State.blkSticky s b bit) := by unfold State.blkSticky; simp (maxDischargeDepth := 40) [h]

@[simp] theorem State.rgnSticky_keeps {s₀ s : State} (r : Nat) (bit : Nat) (h : Keeps s₀ s) : Keeps s₀ (State.rgnSticky s r bit) := by unfold State.rgnSticky; simp (maxDischargeDepth := 40) [h]

@[simp] theorem State.discard_keeps {s₀ s : State} (b : Nat) (n : Nat) (h : Keeps s₀ s) : Keeps s₀ (State.discard s b n) := by unfold State.discard; simp (maxDischargeDepth := 40) [h]

/-! ## Tensor -/

@[simp] theorem State.tStore_keeps {s₀ s : State} (d : Desc) (a : Nat) (v : Byte) (h : Keeps s₀ s) : Keeps s₀ (s.tStore d a v) := by
  unfold State.tStore
  split
  · exact State.modBlk_keeps _ _ h fun y hy => wf_writeByte a v hy
  · exact keeps_mk h rfl rfl rfl rfl List.suffix_rfl (wf_writeByte _ v) id

@[simp] theorem State.tStoreBits_keeps {s₀ s : State} (d : Desc) (byte : Nat) (bit : Nat) (w : Nat) (v : Nat) (h : Keeps s₀ s) : Keeps s₀ (State.tStoreBits s d byte bit w v) := by unfold State.tStoreBits; simp +contextual (maxDischargeDepth := 40) [h]

@[simp] theorem State.setUnit_keeps {s₀ s : State} (d : Desc) (u : Nat) (covered : Nat) (pois : Bool) (h : Keeps s₀ s) : Keeps s₀ (State.setUnit s d u covered pois) := by unfold State.setUnit; simp (maxDischargeDepth := 40) [h]

@[simp] theorem State.countMemWrites_keeps {s₀ s : State} (m : Map (Nat × Bool)) (adds : Bool) (h : Keeps s₀ s) : Keeps s₀ (State.countMemWrites s m adds) := by unfold State.countMemWrites; simp +contextual (maxDischargeDepth := 40) [h]

@[simp] theorem State.writePieces_keeps {s₀ s : State} (d : Desc) (ps : List Piece) (adds : Bool) (h : Keeps s₀ s) : Keeps s₀ (State.writePieces s d ps adds) := by unfold State.writePieces; simp +contextual (maxDischargeDepth := 40) [h]

@[simp] theorem State.setPlan_keeps {s₀ s : State} (d : Desc) (off : Nat) (blk : Nat) (e : Nat × Nat) (h : Keeps s₀ s) : Keeps s₀ (State.setPlan s d off blk e) := by unfold State.setPlan; simp (maxDischargeDepth := 40) [h]

@[simp] theorem State.setPlans_keeps {s₀ s : State} (d : Desc) (off : Nat) (l : List (Nat × Nat)) (h : Keeps s₀ s) : Keeps s₀ (State.setPlans s d off l) := by unfold State.setPlans; simp (maxDischargeDepth := 40) [h]

@[simp] theorem State.planDone_keeps {s₀ s : State} (v : View) (x : Done) (h : Keeps s₀ s) : Keeps s₀ (State.planDone s v x) := by
  simp only [State.planDone]
  (repeat' split) <;> simp +contextual (maxDischargeDepth := 40) [h]

@[simp] theorem State.markWritten_keeps {s₀ s : State} (t : Nat) (blk : Nat) (h : Keeps s₀ s) : Keeps s₀ (State.markWritten s t blk) := by unfold State.markWritten; simp (maxDischargeDepth := 40) [h]

@[simp] theorem State.writeRun_keeps {s₀ s : State} (v : View) (c : WCtx) (off : Nat) (vals : List Val) (h : Keeps s₀ s) : Keeps s₀ ((State.writeRun s v c off vals).1) := by unfold State.writeRun; simp +contextual (maxDischargeDepth := 40) [h]

@[simp] theorem State.writeView_keeps {s₀ s : State} (v : View) (c : WCtx) (vals : List Val) (h : Keeps s₀ s) : Keeps s₀ ((State.writeView s v c vals).1) := by unfold State.writeView; simp (maxDischargeDepth := 40) [h]

@[simp] theorem State.writeRaw_keeps {s₀ s : State} (v : View) (off : Nat) (elems : List RawEl) (h : Keeps s₀ s) : Keeps s₀ (State.writeRaw s v off elems) := by unfold State.writeRaw; simp +contextual (maxDischargeDepth := 40) [h]

@[simp] theorem State.settle_keeps {s₀ s : State} (t : Nat) (n : Nat) (h : Keeps s₀ s) : Keeps s₀ (State.settle s t n) := by
  simp only [State.settle]
  (repeat' split) <;> simp +contextual (maxDischargeDepth := 40) [h]

@[simp] theorem State.clearView_keeps {s₀ s : State} (v : View) (h : Keeps s₀ s) : Keeps s₀ (State.clearView s v) := by unfold State.clearView; simp (maxDischargeDepth := 40) [h]

/-! ## Program -/

@[simp] theorem State.setRun_keeps {s₀ s : State} (b : Nat) (i : Nat) (r : StageRun) (h : Keeps s₀ s) : Keeps s₀ (State.setRun s b i r) := by unfold State.setRun; simp (maxDischargeDepth := 40) [h]

@[simp] theorem State.modRun_keeps {s₀ s : State} (b : Nat) (i : Nat) (f : StageRun → StageRun) (h : Keeps s₀ s) : Keeps s₀ (State.modRun s b i f) := by unfold State.modRun; simp (maxDischargeDepth := 40) [h]

end Sys2Proof.Machine
end

