-- ==== Sys2Proof/Laws/KeepsQueue.lean ====
section
/-! SUPPORT. What every command keeps, for queues, memory operations, energy records, sessions and completions, firing, Drover sending and the seals. -/

namespace Sys2Proof.Machine

set_option linter.unusedSimpArgs false
set_option linter.unusedVariables false

/-! ## Queue -/

@[simp] theorem State.setCtl_keeps {s₀ s : State} (r : Nat) (c : Nat) (x : CellCtl) (h : Keeps s₀ s) : Keeps s₀ (State.setCtl s r c x) := by unfold State.setCtl; simp (maxDischargeDepth := 40) [h]

@[simp] theorem State.closeCell_keeps {s₀ s : State} (r : Nat) (c : Nat) (h : Keeps s₀ s) : Keeps s₀ (State.closeCell s r c) := by unfold State.closeCell; simp (maxDischargeDepth := 40) [h]

@[simp] theorem State.closeTail_keeps {s₀ s : State} (qid : Nat) (h : Keeps s₀ s) : Keeps s₀ (State.closeTail s qid) := by
  simp only [State.closeTail]
  (repeat' split) <;> simp +contextual (maxDischargeDepth := 40) [h]

@[simp] theorem State.progress_keeps {s₀ s : State} (h : Keeps s₀ s) : Keeps s₀ (State.progress s) := by unfold State.progress; simp (maxDischargeDepth := 40) [h]

@[simp] theorem State.freeBefore_keeps {s₀ s : State} (qid : Nat) (p : Pos) (h : Keeps s₀ s) : Keeps s₀ (State.freeBefore s qid p) := by
  simp only [State.freeBefore]
  (repeat' split) <;> simp +contextual (maxDischargeDepth := 40) [h]

@[simp] theorem State.freePassed_keeps {s₀ s : State} (qid : Nat) (h : Keeps s₀ s) : Keeps s₀ (State.freePassed s qid) := by
  simp only [State.freePassed]
  (repeat' split) <;> simp +contextual (maxDischargeDepth := 40) [h]

@[simp] theorem State.gateOpens_keeps {s₀ s : State} (qid : Nat) (h : Keeps s₀ s) : Keeps s₀ (State.gateOpens s qid) := by
  simp only [State.gateOpens]
  (repeat' split) <;> simp +contextual (maxDischargeDepth := 40) [h]

@[simp] theorem State.grantFirst_keeps {s₀ s : State} (qid : Nat) (h : Keeps s₀ s) : Keeps s₀ (State.grantFirst s qid) := by
  simp only [State.grantFirst]
  (repeat' split) <;> simp +contextual (maxDischargeDepth := 40) [h]

@[simp] theorem State.writeWord_keeps {s₀ s : State} (qid : Nat) (p : Pos) (w : PWord) (h : Keeps s₀ s) : Keeps s₀ (State.writeWord s qid p w) := by unfold State.writeWord; simp (maxDischargeDepth := 40) [h]

@[simp] theorem State.closeFull_keeps {s₀ s : State} (qid : Nat) (e : QEntry) (cells : List Nat) (h : Keeps s₀ s) : Keeps s₀ (State.closeFull s qid e cells) := by unfold State.closeFull; simp +contextual (maxDischargeDepth := 40) [h]

@[simp] theorem State.writeTransfer_keeps {s₀ s : State} (qid : Nat) (who : Requester) (step : Nat) (bytes : List Byte) (pois : List Bool) (h : Keeps s₀ s) : Keeps s₀ (State.writeTransfer s qid who step bytes pois) := by
  simp only [State.writeTransfer]
  (repeat' split) <;> simp +contextual (maxDischargeDepth := 40) [h]

@[simp] theorem State.takeUnits_keeps {s₀ s : State} (qid : Nat) (n : Nat) (step : Nat) (h : Keeps s₀ s) : Keeps s₀ (State.takeUnits s qid n step) := by
  simp only [State.takeUnits]
  (repeat' split) <;> simp +contextual (maxDischargeDepth := 40) [h]

@[simp] theorem State.markBroken_keeps {s₀ s : State} (qid : Nat) (h : Keeps s₀ s) : Keeps s₀ (State.markBroken s qid) := by
  simp only [State.markBroken]
  (repeat' split) <;> simp +contextual (maxDischargeDepth := 40) [h]

@[simp] theorem State.breakQueue_keeps {s₀ s : State} (qid : Nat) (detail : Nat) (h : Keeps s₀ s) : Keeps s₀ (State.breakQueue s qid detail) := by unfold State.breakQueue; simp (maxDischargeDepth := 40) [h]

@[simp] theorem State.payloadParity_keeps {s₀ s : State} (qid : Nat) (h : Keeps s₀ s) : Keeps s₀ (State.payloadParity s qid) := by
  simp only [State.payloadParity]
  (repeat' split) <;> simp +contextual (maxDischargeDepth := 40) [h]

@[simp] theorem State.consumerStarts_keeps {s₀ s : State} (qid : Nat) (h : Keeps s₀ s) : Keeps s₀ (State.consumerStarts s qid) := by
  simp only [State.consumerStarts]
  (repeat' split) <;> simp +contextual (maxDischargeDepth := 40) [h]

@[simp] theorem State.commitQueue_keeps {s₀ s : State} (qid : Nat) (n : Nat) (h : Keeps s₀ s) : Keeps s₀ (State.commitQueue s qid n) := by
  simp only [State.commitQueue]
  (repeat' split) <;> simp +contextual (maxDischargeDepth := 40) [h]

@[simp] theorem State.rewindRetained_keeps {s₀ s : State} (qid : Nat) (n : Nat) (q : Queue) (skip : Bool) (h : Keeps s₀ s) : Keeps s₀ (State.rewindRetained s qid n q skip) := by unfold State.rewindRetained; simp (maxDischargeDepth := 40) [h]

@[simp] theorem State.rewindEgress_keeps {s₀ s : State} (qid : Nat) (n : Nat) (q : Queue) (h : Keeps s₀ s) : Keeps s₀ (State.rewindEgress s qid n q) := by unfold State.rewindEgress; simp (maxDischargeDepth := 40) [h]

@[simp] theorem State.clearQueue_keeps {s₀ s : State} (qid : Nat) (n : Nat) (q : Queue) (h : Keeps s₀ s) : Keeps s₀ (State.clearQueue s qid n q) := by unfold State.clearQueue; simp (maxDischargeDepth := 40) [h]

@[simp] theorem State.squashQueue_keeps {s₀ s : State} (qid : Nat) (n : Nat) (next : Nat) (skip : Bool) (h : Keeps s₀ s) : Keeps s₀ (State.squashQueue s qid n next skip) := by
  simp only [State.squashQueue]
  (repeat' split) <;> simp +contextual (maxDischargeDepth := 40) [h]

/-! ## MemOps -/

@[simp] theorem State.crcShown_keeps {s₀ s : State} (b : Nat) (result : Nat) (h : Keeps s₀ s) : Keeps s₀ (State.crcShown s b result) := by unfold State.crcShown; simp (maxDischargeDepth := 40) [h]

@[simp] theorem State.writeExhaust_keeps {s₀ s : State} (b : Nat) (h : Keeps s₀ s) : Keeps s₀ (State.writeExhaust s b) := by unfold State.writeExhaust; simp (maxDischargeDepth := 40) [h]

@[simp] theorem State.fetch_keeps {s₀ s : State} (ups : Upsets) (b : Nat) (h : Keeps s₀ s) : Keeps s₀ ((State.fetch s ups b).1) := by
  simp only [State.fetch]
  (repeat' split) <;> simp +contextual (maxDischargeDepth := 40) [h]

@[simp] theorem State.cacheMeta_keeps {s₀ s : State} (b : Nat) (h : Keeps s₀ s) : Keeps s₀ (State.cacheMeta s b) := by unfold State.cacheMeta; simp (maxDischargeDepth := 40) [h]

@[simp] theorem State.touchMeta_keeps {s₀ s : State} (ups : Upsets) (b : Nat) (h : Keeps s₀ s) : Keeps s₀ ((State.touchMeta s ups b).1) := by
  simp only [State.touchMeta]
  (repeat' split) <;> simp +contextual (maxDischargeDepth := 40) [h]

@[simp] theorem State.readBlock_keeps {s₀ s : State} (ups : Upsets) (b : Nat) (h : Keeps s₀ s) : Keeps s₀ ((State.readBlock s ups b).1) := by
  simp only [State.readBlock]
  (repeat' split) <;> simp +contextual (maxDischargeDepth := 40) [h]

@[simp] theorem State.readBlocks_keeps {s₀ s : State} (ups : Upsets) (l : List Nat) (h : Keeps s₀ s) : Keeps s₀ (s.readBlocks ups l).1 := by
  induction l generalizing s with
  | nil => exact h
  | cons b r ih =>
    have k : Keeps s₀ (s.readBlock ups b).1 := by simp (maxDischargeDepth := 60) +contextual [h]
    simp only [State.readBlocks]
    split
    · exact k
    · exact ih k

@[simp] theorem State.writeBlocks_keeps {s₀ s : State} (ups : Upsets) (l : List Nat) (h : Keeps s₀ s) : Keeps s₀ (s.writeBlocks ups l).1 := by
  induction l generalizing s with
  | nil => exact h
  | cons b r ih =>
    have k : Keeps s₀ (s.touchMeta ups b).1 := by simp (maxDischargeDepth := 60) +contextual [h]
    simp only [State.writeBlocks]
    split
    · exact k
    · split
      · simp (maxDischargeDepth := 60) +contextual [k]
      · exact ih (by simp (maxDischargeDepth := 60) +contextual [k])

@[simp] theorem State.setPage_keeps {s₀ s : State} (p : Nat) (x : Page) (h : Keeps s₀ s) : Keeps s₀ (State.setPage s p x) := by unfold State.setPage; simp (maxDischargeDepth := 40) [h]

@[simp] theorem State.usePage_keeps {s₀ s : State} (p : Nat) (h : Keeps s₀ s) : Keeps s₀ (State.usePage s p) := by unfold State.usePage; simp (maxDischargeDepth := 40) [h]

@[simp] theorem State.abortEviction_keeps {s₀ s : State} (p : Nat) (h : Keeps s₀ s) : Keeps s₀ (State.abortEviction s p) := by
  simp only [State.abortEviction]
  (repeat' split) <;> simp +contextual (maxDischargeDepth := 40) [h]

@[simp] theorem State.requestPage_keeps {s₀ s : State} (p : Nat) (region : Nat) (h : Keeps s₀ s) : Keeps s₀ (State.requestPage s p region) := by unfold State.requestPage; simp (maxDischargeDepth := 40) [h]

@[simp] theorem State.barFault_keeps {s₀ s : State} (ups : Upsets) (level : Nat) (src : Nat) (a4 : Bar) (h : Keeps s₀ s) : Keeps s₀ (State.barFault s ups level src a4) := by
  simp only [State.barFault]
  (repeat' split) <;> simp +contextual (maxDischargeDepth := 40) [h]

@[simp] theorem State.useMemory_keeps {s₀ s : State} (ups : Upsets) (reads : List Nat) (writes : List Nat) (adds : Bool) (h : Keeps s₀ s) : Keeps s₀ (State.useMemory s ups reads writes adds) := by unfold State.useMemory; simp +contextual (maxDischargeDepth := 40) [h]

@[simp] theorem State.useUnit_keeps {s₀ s : State} (ups : Upsets) (u : XUnit) (h : Keeps s₀ s) : Keeps s₀ (State.useUnit s ups u) := by unfold State.useUnit; simp (maxDischargeDepth := 40) [h]

@[simp] theorem State.settleNow_keeps {s₀ s : State} (ups : Upsets) (t : Nat) (n : Nat) (h : Keeps s₀ s) : Keeps s₀ (State.settleNow s ups t n) := by unfold State.settleNow; simp (maxDischargeDepth := 40) [h]

/-! ## Records -/

@[simp] theorem State.admitRecs_keeps {s₀ s : State} (h : Keeps s₀ s) : Keeps s₀ (State.admitRecs s) := by unfold State.admitRecs; simp (maxDischargeDepth := 40) [h]

@[simp] theorem writeRec_keeps {s₀ s : State} (r : ERec) (h : Keeps s₀ s) : Keeps s₀ (writeRec s r) := by unfold writeRec; simp (maxDischargeDepth := 40) [h]

@[simp] theorem closeBaseAt_keeps {s₀ s : State} (flags : Nat) (steps : Nat) (time : Nat) (gaps : Nat) (acc : List Nat) (h : Keeps s₀ s) : Keeps s₀ (closeBaseAt s flags steps time gaps acc) := by unfold closeBaseAt; simp (maxDischargeDepth := 40) [h]

@[simp] theorem closeBase_keeps {s₀ s : State} (h : Keeps s₀ s) : Keeps s₀ (closeBase s) := by unfold closeBase; simp (maxDischargeDepth := 40) [h]

@[simp] theorem State.baseIs_keeps {s₀ s : State} (range : Bool) (first : Nat) (h : Keeps s₀ s) : Keeps s₀ (State.baseIs s range first) := by unfold State.baseIs; simp (maxDischargeDepth := 40) [h]

@[simp] theorem handleRecord_keeps {s₀ s : State} (h0 : Hnd) (h : Keeps s₀ s) : Keeps s₀ (handleRecord s h0) := by unfold handleRecord; simp (maxDischargeDepth := 40) [h]

/-! ## HostOps -/

@[simp] theorem State.notify_keeps {s₀ s : State} (code : Nat) (old : Nat) (new : Nat) (fault : Nat) (device : Nat) (step : Nat) (slot : Nat) (epoch : Nat) (h : Keeps s₀ s) : Keeps s₀ (State.notify s code old new fault device step slot epoch) := by unfold State.notify; simp (maxDischargeDepth := 40) [h]

@[simp] theorem State.ageBegins_keeps {s₀ s : State} (h : Keeps s₀ s) : Keeps s₀ (State.ageBegins s) := by unfold State.ageBegins; simp (maxDischargeDepth := 40) [h]

@[simp] theorem State.setMode_keeps {s₀ s : State} (m : ModState) (h : Keeps s₀ s) : Keeps s₀ (State.setMode s m) := by unfold State.setMode; simp (maxDischargeDepth := 40) [h]

@[simp] theorem State.completeOne_keeps {s₀ s : State} (h0 : Hnd) (status : Nat) (result : List Byte) (refuser : Nat) (fault : Nat) (h : Keeps s₀ s) : Keeps s₀ (State.completeOne s h0 status result refuser fault) := by unfold State.completeOne; simp (maxDischargeDepth := 40) [h]

@[simp] theorem State.finishN_keeps {s₀ s : State} (n : Nat) (x : Hnd) (st : Nat) (r : List Byte) (a b : Nat) (h : Keeps s₀ s) :
    Keeps s₀ (State.finishN n s x st r a b) := by
  induction n generalizing s x st r a b with
  | zero => simp [State.finishN, h]
  | succ n ih =>
    simp only [State.finishN]
    apply keeps_foldl
    · intro s y hy
      apply ih
      simp [hy]
    · simp [h]

@[simp] theorem State.finish_keeps {s₀ s : State} (h0 : Hnd) (status : Nat) (result : List Byte) (refuser : Nat) (fault : Nat) (h : Keeps s₀ s) : Keeps s₀ (State.finish s h0 status result refuser fault) := by unfold State.finish; simp (maxDischargeDepth := 40) [h]

@[simp] theorem State.finishAll_keeps {s₀ s : State} (opcode : Nat) (status : Nat) (fault : Nat) (result : List Byte) (h : Keeps s₀ s) : Keeps s₀ (State.finishAll s opcode status fault result) := by unfold State.finishAll; simp +contextual (maxDischargeDepth := 40) [h]

@[simp] theorem State.countRefusal_keeps {s₀ s : State} (code : Nat) (h : Keeps s₀ s) : Keeps s₀ (State.countRefusal s code) := by unfold State.countRefusal; simp (maxDischargeDepth := 40) [h]

@[simp] theorem State.entryUndone_keeps {s₀ s : State} (h : Keeps s₀ s) : Keeps s₀ (State.entryUndone s) := by unfold State.entryUndone; simp (maxDischargeDepth := 40) [h]

@[simp] theorem State.sendOwned_keeps {s₀ s : State} (handle : Nat) (p : Nat) (k : Nat) (l : List Out) (h : Keeps s₀ s) : Keeps s₀ (State.sendOwned s handle p k l) := by unfold State.sendOwned; simp +contextual (maxDischargeDepth := 40) [h]

@[simp] theorem State.settleSends_keeps {s₀ s : State} (h : Keeps s₀ s) : Keeps s₀ s.settleSends := by
  unfold State.settleSends
  apply keeps_foldl _ _ _ _ h
  intro s y hy
  (repeat' split) <;> simp [hy]

@[simp] theorem State.accept_keeps {s₀ s : State} (c : Cmd) (opcode : Nat) (h : Keeps s₀ s) : Keeps s₀ ((State.accept s c opcode).1) := by
  simp only [State.accept]
  (repeat' split) <;> simp +contextual (maxDischargeDepth := 40) [h]

@[simp] theorem State.command_keeps {s₀ s : State} (c : Cmd) (op : Nat) (run : State → Hnd → State) (i : Instr) (h : Keeps s₀ s)
    (hr : ∀ t x, Keeps s₀ t → Keeps s₀ (run t x)) : Keeps s₀ (s.command c op run i) := by
  unfold State.command
  split
  · simp [h]
  have k := State.accept_keeps (s₀ := s₀) c op (s := if s.hostUp then s.taken 32 (cmdBytes op c) else s) (by split <;> simp [h])
  split
  · rename_i e
    rwa [e] at k
  · rename_i e
    rw [e] at k
    (repeat' split) <;> simp [k, hr]

@[simp] theorem State.setHnd_keeps {s₀ s : State} (h0 : Hnd) (h : Keeps s₀ s) : Keeps s₀ (State.setHnd s h0) := by unfold State.setHnd; simp (maxDischargeDepth := 40) [h]

/-! ## Issue -/

@[simp] theorem State.eccUpsets_keeps {s₀ s : State} (b : Nat) (ups : Upsets) (h : Keeps s₀ s) : Keeps s₀ (State.eccUpsets s b ups) := by unfold State.eccUpsets; simp +contextual (maxDischargeDepth := 40) [h]

@[simp] theorem State.armTrace_keeps {s₀ s : State} (b : TraceBody) (h : Keeps s₀ s) : Keeps s₀ (State.armTrace s b) := by unfold State.armTrace; simp (maxDischargeDepth := 40) [h]

@[simp] theorem State.jobRuns_keeps {s₀ s : State} (h : Keeps s₀ s) : Keeps s₀ (State.jobRuns s) := by
  simp only [State.jobRuns]
  (repeat' split) <;> simp +contextual (maxDischargeDepth := 40) [h]

@[simp] theorem State.startFire_keeps {s₀ s : State} (c : Ctx) (h : Keeps s₀ s) : Keeps s₀ (State.startFire s c) := by unfold State.startFire; simp (maxDischargeDepth := 40) [h]

@[simp] theorem State.watchPair_keeps {s₀ s : State} (c : Ctx) (stat : TallyRec) (h : Keeps s₀ s) : Keeps s₀ (State.watchPair s c stat) := by unfold State.watchPair; simp (maxDischargeDepth := 40) [h]

@[simp] theorem State.stageStops_keeps {s₀ s : State} (g : Stage) (h : Keeps s₀ s) : Keeps s₀ (State.stageStops s g) := by unfold State.stageStops; simp +contextual (maxDischargeDepth := 40) [h]

@[simp] theorem State.noteDest_keeps {s₀ s : State} (c : Ctx) (h : Keeps s₀ s) : Keeps s₀ (State.noteDest s c) := by unfold State.noteDest; simp (maxDischargeDepth := 40) [h]

@[simp] theorem State.layerDrains_keeps {s₀ s : State} (b : Nat) (layer : Nat) (h : Keeps s₀ s) : Keeps s₀ (State.layerDrains s b layer) := by unfold State.layerDrains; simp +contextual (maxDischargeDepth := 40) [h]

@[simp] theorem State.restStops_keeps {s₀ s : State} (b : Nat) (g : Stage) (h : Keeps s₀ s) : Keeps s₀ (State.restStops s b g) := by unfold State.restStops; simp (maxDischargeDepth := 40) [h]

@[simp] theorem State.completeFire_keeps {s₀ s : State} (c : Ctx) (stat : TallyRec) (h : Keeps s₀ s) : Keeps s₀ (State.completeFire s c stat) := by unfold State.completeFire; simp (maxDischargeDepth := 40) [h]

@[simp] theorem State.fire_keeps {s₀ s : State} (f : Fire) (isOp : IWord → Bool) (run : Ctx → State → Effect) (h : Keeps s₀ s)
    (hr : ∀ c t, Keeps s₀ t → Keeps s₀ (run c t).s) : Keeps s₀ (s.fire f isOp run) := by
  simp only [State.fire]
  (repeat' split) <;> simp (maxDischargeDepth := 40) [h, hr]

@[simp] theorem State.countDraws_keeps {s₀ s : State} (b : Nat) (draws : List Nat) (h : Keeps s₀ s) : Keeps s₀ (State.countDraws s b draws) := by unfold State.countDraws; simp (maxDischargeDepth := 40) [h]

@[simp] theorem State.fileTally_keeps {s₀ s : State} (c : Ctx) (d : Desc) (r : TallyRec) (h : Keeps s₀ s) : Keeps s₀ (State.fileTally s c d r) := by unfold State.fileTally; simp (maxDischargeDepth := 40) [h]

@[simp] theorem State.writeDst_keeps {s₀ s : State} (c : Ctx) (vals : List Val) (big : List Bool) (h : Keeps s₀ s) : Keeps s₀ ((State.writeDst s c vals big).s) := by unfold State.writeDst; simp (maxDischargeDepth := 40) [h]

@[simp] theorem State.accBase_keeps {s₀ s : State} (c : Ctx) (h : Keeps s₀ s) : Keeps s₀ (State.accBase s c) := by unfold State.accBase; simp (maxDischargeDepth := 40) [h]

@[simp] theorem State.countAdds_keeps {s₀ s : State} (c : Ctx) (k : Nat) (per : Nat) (n : Nat) (h : Keeps s₀ s) : Keeps s₀ (State.countAdds s c k per n) := by unfold State.countAdds; simp (maxDischargeDepth := 40) [h]

@[simp] theorem State.setSlot_keeps {s₀ s : State} (c : Ctx) (n : Nat) (v : Val) (h : Keeps s₀ s) : Keeps s₀ (State.setSlot s c n v) := by unfold State.setSlot; simp (maxDischargeDepth := 40) [h]

@[simp] theorem State.restorePlan_keeps {s₀ s : State} (p : PlanSave) (h : Keeps s₀ s) : Keeps s₀ (State.restorePlan s p) := by unfold State.restorePlan; simp (maxDischargeDepth := 40) [h]

@[simp] theorem State.beginStep_keeps {s₀ s : State} (b : Nat) (n : Nat) (h : Keeps s₀ s) : Keeps s₀ (State.beginStep s b n) := by unfold State.beginStep; simp +contextual (maxDischargeDepth := 40) [h]

/-! ## DroverOps -/

@[simp] theorem State.post_keeps {s₀ s : State} (m : DMsg) (h : Keeps s₀ s) : Keeps s₀ (State.post s m) := by unfold State.post; simp (maxDischargeDepth := 40) [h]

@[simp] theorem State.flood_keeps {s₀ s : State} (ports : List Nat) (from' : Option Nat) (m : DMsg) (h : Keeps s₀ s) : Keeps s₀ (State.flood s ports from' m) := by unfold State.flood; simp (maxDischargeDepth := 40) [h]

@[simp] theorem State.dropBad_keeps {s₀ s : State} (port : Nat) (m : DMsg) (h : Keeps s₀ s) : Keeps s₀ (State.dropBad s port m) := by unfold State.dropBad; simp (maxDischargeDepth := 40) [h]

@[simp] theorem State.passOn_keeps {s₀ s : State} (from' : Option Nat) (m : DMsg) (h : Keeps s₀ s) : Keeps s₀ (State.passOn s from' m) := by unfold State.passOn; simp (maxDischargeDepth := 40) [h]

@[simp] theorem State.floodOn_keeps {s₀ s : State} (port : Nat) (m : DMsg) (h : Keeps s₀ s) : Keeps s₀ (State.floodOn s port m) := by unfold State.floodOn; simp (maxDischargeDepth := 40) [h]

@[simp] theorem State.sendDown_keeps {s₀ s : State} (port : Nat) (m : DMsg) (gone : Bool) (h : Keeps s₀ s) : Keeps s₀ (State.sendDown s port m gone) := by unfold State.sendDown; simp (maxDischargeDepth := 40) [h]

@[simp] theorem State.droverIn_keeps {s₀ s : State} (port : Nat) (m : DMsg) (type : Nat) (run : State → State) (i : Instr) (h : Keeps s₀ s)
    (hr : ∀ t, Keeps s₀ t → Keeps s₀ (run t)) : Keeps s₀ (s.droverIn port m type run i) := by
  simp only [State.droverIn]
  (repeat' split) <;> simp (maxDischargeDepth := 40) [h, hr]

@[simp] theorem State.waitRec_keeps {s₀ s : State} (region : Nat) (r : TRec) (h : Keeps s₀ s) : Keeps s₀ (State.waitRec s region r) := by unfold State.waitRec; simp (maxDischargeDepth := 40) [h]

@[simp] theorem State.endWaits_keeps {s₀ s : State} (ended : List (Nat × Nat × Nat × Nat)) (rec : Nat × Nat × Nat × Nat → TRec)
    (h : Keeps s₀ s) : Keeps s₀ (State.endWaits s ended rec) := by
  unfold State.endWaits
  apply keeps_foldl _ _ _ _ h
  intro s y hy
  split <;> simp [hy]

@[simp] theorem State.countCopyWaits_keeps {s₀ s : State} (l : List (Nat × Nat × Nat × Nat)) (h : Keeps s₀ s) : Keeps s₀ (s.countCopyWaits l) := by
  unfold State.countCopyWaits
  apply keeps_foldl _ _ _ _ h
  intro t a ht
  split <;> simp (maxDischargeDepth := 60) +contextual [ht]

@[simp] theorem State.stopWaits_keeps {s₀ s : State} (h : Keeps s₀ s) : Keeps s₀ (State.stopWaits s) := by unfold State.stopWaits; simp +contextual (maxDischargeDepth := 40) [h]

@[simp] theorem State.endCopyWaits_keeps {s₀ s : State} (old : State) (from' : Option (Nat × Nat)) (h : Keeps s₀ s) : Keeps s₀ (State.endCopyWaits s old from') := by unfold State.endCopyWaits; simp (maxDischargeDepth := 40) [h]

@[simp] theorem State.endPrefetchWaits_keeps {s₀ s : State} (old : State) (h : Keeps s₀ s) : Keeps s₀ (State.endPrefetchWaits s old) := by unfold State.endPrefetchWaits; simp (maxDischargeDepth := 40) [h]

/-! ## Seals -/

@[simp] theorem sealLayerFire_keeps {s₀ s : State} (c : Ctx) (h : Keeps s₀ s) : Keeps s₀ (sealLayerFire c s) := by unfold sealLayerFire; simp (maxDischargeDepth := 40) [h]

@[simp] theorem State.commitTensor_keeps {s₀ s : State} (t : Nat) (staged : Bool) (h : Keeps s₀ s) : Keeps s₀ (State.commitTensor s t staged) := by unfold State.commitTensor; simp +contextual (maxDischargeDepth := 40) [h]

@[simp] theorem State.replayTensor_keeps {s₀ s : State} (t : Nat) (staged : Bool) (h : Keeps s₀ s) : Keeps s₀ (State.replayTensor s t staged) := by unfold State.replayTensor; simp (maxDischargeDepth := 40) [h]

@[simp] theorem State.replayStage_keeps {s₀ s : State} (b : Nat) (g : Stage) (h : Keeps s₀ s) : Keeps s₀ (State.replayStage s b g) := by unfold State.replayStage; simp +contextual (maxDischargeDepth := 40) [h]

@[simp] theorem State.commitStage_keeps {s₀ s : State} (b : Nat) (g : Stage) (h : Keeps s₀ s) : Keeps s₀ (State.commitStage s b g) := by unfold State.commitStage; simp +contextual (maxDischargeDepth := 40) [h]

@[simp] theorem State.sealWaited_keeps {s₀ s : State} (b : Nat) (g : Stage) (n : Nat) (detail : Nat) (last : Nat) (h : Keeps s₀ s) : Keeps s₀ (State.sealWaited s b g n detail last) := by unfold State.sealWaited; simp (maxDischargeDepth := 40) [h]

@[simp] theorem State.layerVerdictFor_keeps {s₀ s : State} (layer : Nat) (back : Bool) (h : Keeps s₀ s) : Keeps s₀ (State.layerVerdictFor s layer back) := by unfold State.layerVerdictFor; simp +contextual (maxDischargeDepth := 40) [h]

@[simp] theorem State.sealStepDone_keeps {s₀ s : State} (b : Nat) (h : Keeps s₀ s) : Keeps s₀ (s.sealStepDone b) := by
  simp only [State.sealStepDone]
  have k : ∀ x : Block, x.store = (s.blk b).store → Keeps s₀ (s.progress.setBlk b x) := fun x e =>
    State.setBlk_keeps_of _ _ (State.progress_keeps h) fun k => by rw [e]; exact h.blk b k
  apply State.beginStep_keeps
  split
  · exact State.layerDrains_keeps _ _ (k _ rfl)
  · exact k _ rfl

@[simp] theorem State.storeBytes_keeps {s₀ s : State} (d : Desc) (a : Nat) (l : List Byte) (h : Keeps s₀ s) : Keeps s₀ (State.storeBytes s d a l) := by unfold State.storeBytes; simp (maxDischargeDepth := 40) [h]

@[simp] theorem State.writeImage_keeps {s₀ s : State} (t : Nat) (bytes : List Byte) (h : Keeps s₀ s) : Keeps s₀ (State.writeImage s t bytes) := by unfold State.writeImage; simp (maxDischargeDepth := 40) [h]

@[simp] theorem State.noteLate_keeps {s₀ s : State} (old : State) (b : Nat) (h : Keeps s₀ s) : Keeps s₀ (State.noteLate s old b) := by unfold State.noteLate; simp (maxDischargeDepth := 40) [h]

@[simp] theorem State.prefetch_keeps {s₀ s : State} (ups : Upsets) (blk : Nat) (tensor : Nat) (u : XUnit) (h : Keeps s₀ s) : Keeps s₀ (State.prefetch s ups blk tensor u) := by
  simp only [State.prefetch]
  (repeat' split) <;> simp +contextual (maxDischargeDepth := 40) [h]

end Sys2Proof.Machine
end

