-- ==== Sys2Proof/Laws/KeepsEngines.lean ====
section
/-! SUPPORT. What every command keeps, for the governor, operands, transfers, queue commands, parameters, update engines, snapshots and Drover. -/

namespace Sys2Proof.Machine

set_option linter.unusedSimpArgs false
set_option linter.unusedVariables false

/-! ## Governor -/

@[simp] theorem State.decide_keeps {s₀ s : State} (e : PrecEntry) (h : Keeps s₀ s) : Keeps s₀ (State.decide s e) := by
  simp only [State.decide]
  (repeat' split) <;> simp +contextual (maxDischargeDepth := 40) [h]

@[simp] theorem State.relayTensor_keeps {s₀ s : State} (step : Nat) (fw : Nat) (initSc : Nat) (t : Nat) (h : Keeps s₀ s) : Keeps s₀ (State.relayTensor s step fw initSc t) := by unfold State.relayTensor; simp (maxDischargeDepth := 40) [h]

@[simp] theorem State.takeFormat_keeps {s₀ s : State} (step : Nat) (e : PrecEntry) (cls : Nat) (size : Nat) (h : Keeps s₀ s) : Keeps s₀ (State.takeFormat s step e cls size) := by
  simp only [State.takeFormat]
  (repeat' split) <;> simp +contextual (maxDischargeDepth := 40) [h]

@[simp] theorem State.takeLambda_keeps {s₀ s : State} (step : Nat) (e : PrecEntry) (v : Nat) (h : Keeps s₀ s) : Keeps s₀ (State.takeLambda s step e v) := by
  simp only [State.takeLambda]
  (repeat' split) <;> simp +contextual (maxDischargeDepth := 40) [h]

@[simp] theorem State.takeChange_keeps {s₀ s : State} (c : Change) (h : Keeps s₀ s) : Keeps s₀ (State.takeChange s c) := by
  simp only [State.takeChange]
  (repeat' split) <;> simp +contextual (maxDischargeDepth := 40) [h]

@[simp] theorem State.restartBlock_keeps {s₀ s : State} (n : Nat) (b : Nat) (h : Keeps s₀ s) : Keeps s₀ (State.restartBlock s n b) := by
  simp only [State.restartBlock]
  (repeat' split) <;> simp +contextual (maxDischargeDepth := 40) [h]

/-! ## Operands -/

@[simp] theorem State.indexFault_keeps {s₀ s : State} (c : Ctx) (pos : Nat) (detail : Nat) (h : Keeps s₀ s) : Keeps s₀ (State.indexFault s c pos detail) := by unfold State.indexFault; simp (maxDischargeDepth := 40) [h]

@[simp] theorem State.seeds_keeps {s₀ s : State} (n : Nat) (h : Keeps s₀ s) : Keeps s₀ (State.seeds s n) := by unfold State.seeds; simp (maxDischargeDepth := 40) [h]

/-! ## Transfer -/

@[simp] theorem State.payUnits_keeps {s₀ s : State} (c : Ctx) (ups : Upsets) (l : List XUnit) (h : Keeps s₀ s) : Keeps s₀ (State.payUnits s c ups l) := by unfold State.payUnits; simp (maxDischargeDepth := 40) [h]

@[simp] theorem State.meetBar_keeps {s₀ s : State} (c : Ctx) (ups : Upsets) (k : Nat) (stat : TallyRec) (src : List (Nat × Val)) (big : List Nat) (b : Bar) (h : Keeps s₀ s) : Keeps s₀ (State.meetBar s c ups k stat src big b) := by
  simp only [State.meetBar]
  (repeat' split) <;> simp +contextual (maxDischargeDepth := 40) [h]

@[simp] theorem State.takeUp_keeps {s₀ s : State} (c : Ctx) (h : Keeps s₀ s) : Keeps s₀ (State.takeUp s c) := by
  simp only [State.takeUp]
  (repeat' split) <;> simp +contextual (maxDischargeDepth := 40) [h]

@[simp] theorem State.transfer_keeps {s₀ s : State} (c : Ctx) (ups : Upsets) (units : List XUnit)
    (deliver : Nat → Nat → State → Stretch) (h : Keeps s₀ s) (hd : ∀ a b t, Keeps s₀ t → Keeps s₀ (deliver a b t).s) :
    Keeps s₀ (s.transfer c ups units deliver).s := by
  have h1 : Keeps s₀ (s.takeUp c) := State.takeUp_keeps c h
  simp only [State.transfer]
  (repeat' split) <;> simp (maxDischargeDepth := 40) [h1, hd]

@[simp] theorem State.settled_keeps {s₀ s : State} (c : Ctx) (ups : Upsets) (run : State → Effect) (h : Keeps s₀ s)
    (hr : ∀ t, Keeps s₀ t → Keeps s₀ (run t).s) : Keeps s₀ (s.settled c ups run).s := by
  simp only [State.settled]
  split
  · simp (maxDischargeDepth := 60) +contextual [h]
  · exact hr _ (by simp (maxDischargeDepth := 60) +contextual [h])

@[simp] theorem State.deliverVals_keeps {s₀ s : State} (c : Ctx) (v : View) (imp : Impose) (off : Nat) (vals : List Val) (h : Keeps s₀ s) : Keeps s₀ ((State.deliverVals s c v imp off vals).s) := by
  simp only [State.deliverVals]
  (repeat' split) <;> simp +contextual (maxDischargeDepth := 40) [h]

@[simp] theorem copyInto_keeps {s₀ s : State} (ups : Upsets) (c : Ctx) (h : Keeps s₀ s) : Keeps s₀ ((copyInto ups c s).s) := by
  simp only [copyInto]
  (repeat' split) <;> simp +contextual (maxDischargeDepth := 40) [h]

@[simp] theorem copyRun_keeps {s₀ s : State} (ups : Upsets) (c : Ctx) (h : Keeps s₀ s) : Keeps s₀ ((copyRun ups c s).s) := by unfold copyRun; simp +contextual (maxDischargeDepth := 40) [h]

@[simp] theorem gatherInto_keeps {s₀ s : State} (ups : Upsets) (c : Ctx) (h : Keeps s₀ s) : Keeps s₀ ((gatherInto ups c s).s) := by
  simp only [gatherInto]
  (repeat' split) <;> simp +contextual (maxDischargeDepth := 40) [h]

@[simp] theorem gatherRun_keeps {s₀ s : State} (ups : Upsets) (c : Ctx) (h : Keeps s₀ s) : Keeps s₀ ((gatherRun ups c s).s) := by unfold gatherRun; simp +contextual (maxDischargeDepth := 40) [h]

@[simp] theorem State.writeElems_keeps {s₀ s : State} (v : View) (l : List (Nat × Val)) (adds : Bool) (h : Keeps s₀ s) : Keeps s₀ (State.writeElems s v l adds) := by unfold State.writeElems; simp (maxDischargeDepth := 40) [h]

@[simp] theorem State.scatterInto_keeps {s₀ s : State} (c : Ctx) (dst : View) (src : View) (ix : List Index) (from' : Nat) (all : List (Option Nat × ScOp)) (ops : List (Option Nat × ScOp)) (h : Keeps s₀ s) : Keeps s₀ ((State.scatterInto s c dst src ix from' all ops).s) := by unfold State.scatterInto; simp (maxDischargeDepth := 40) [h]

@[simp] theorem scatterRun_keeps {s₀ s : State} (ups : Upsets) (c : Ctx) (h : Keeps s₀ s) : Keeps s₀ ((scatterRun ups c s).s) := by
  simp only [scatterRun]
  (repeat' split) <;> simp +contextual (maxDischargeDepth := 40) [h]

@[simp] theorem sendRun_keeps {s₀ s : State} (ups : Upsets) (c : Ctx) (h : Keeps s₀ s) : Keeps s₀ ((sendRun ups c s).s) := by unfold sendRun; simp +contextual (maxDischargeDepth := 40) [h]

@[simp] theorem State.storePayload_keeps {s₀ s : State} (v : View) (bytes : List Byte) (pois : List Bool) (h : Keeps s₀ s) : Keeps s₀ ((State.storePayload s v bytes pois).1) := by unfold State.storePayload; simp +contextual (maxDischargeDepth := 40) [h]

@[simp] theorem State.acceptAt_keeps {s₀ s : State} (v : View) (k : Nat) (h : Keeps s₀ s) : Keeps s₀ ((State.acceptAt s v k).1) := by
  simp only [State.acceptAt]
  (repeat' split) <;> simp +contextual (maxDischargeDepth := 40) [h]

theorem State.acceptAll_keeps {s₀ : State} (v : View) (l : List Nat) (x : State × Nat) (h : Keeps s₀ x.1) :
    Keeps s₀ (l.foldl (fun (s, n) k => let (s, m) := State.acceptAt s v k; (s, n + m)) x).1 := by
  apply keeps_foldl_fst _ _ _ _ h
  rintro ⟨t, n⟩ k hp
  exact State.acceptAt_keeps _ _ hp

@[simp] theorem recvRun_keeps {s₀ s : State} (ups : Upsets) (c : Ctx) (h : Keeps s₀ s) : Keeps s₀ (recvRun ups c s).s := by
  have hb : ∀ t, Keeps s₀ t → Keeps s₀ ((structural ups).foldl (fun s d => s.breakQueue c.i.srcA.queue d) t) := fun t ht =>
    keeps_foldl _ (fun s d hs => State.breakQueue_keeps _ _ hs) _ _ ht
  have hp : ∀ t, Keeps s₀ t → Keeps s₀ ((payloadHits ups).foldl (fun s _ => s.payloadParity c.i.srcA.queue) t) := fun t ht =>
    keeps_foldl _ (fun s d hs => State.payloadParity_keeps _ hs) _ _ ht
  have h1 := hb _ (State.settle_keeps (s.tref c.i.dst c.rep c.n).t c.n h)
  simp only [recvRun]
  split
  · exact h1
  · split
    · simp [h1]
    · split
      · simp (maxDischargeDepth := 40) [h1]
      · split <;> (repeat' split) <;>
          simp (maxDischargeDepth := 60) [h1, hp, State.acceptAll_keeps]

@[simp] theorem State.resume_keeps {s₀ s : State} (ups : Upsets) (b : Nat) (h : Keeps s₀ s) : Keeps s₀ (State.resume s ups b) := by
  simp only [State.resume]
  (repeat' split) <;> simp +contextual (maxDischargeDepth := 40) [h]

/-! ## QueueCmd -/

@[simp] theorem State.request_keeps {s₀ s : State} (qid : Nat) (who : Requester) (step : Nat) (amount : Nat) (h : Keeps s₀ s) : Keeps s₀ (State.request s qid who step amount) := by
  simp only [State.request]
  (repeat' split) <;> simp +contextual (maxDischargeDepth := 40) [h]

@[simp] theorem State.endPressure_keeps {s₀ s : State} (k : Nat) (h : Keeps s₀ s) : Keeps s₀ (State.endPressure s k) := by
  simp only [State.endPressure]
  (repeat' split) <;> simp +contextual (maxDischargeDepth := 40) [h]

@[simp] theorem State.writeWaiting_keeps {s₀ s : State} (qid : Nat) (who : Requester) (h : Keeps s₀ s) : Keeps s₀ (State.writeWaiting s qid who) := by
  simp only [State.writeWaiting]
  (repeat' split) <;> simp +contextual (maxDischargeDepth := 40) [h]

@[simp] theorem State.grantWait_keeps {s₀ s : State} (q : Queue) (x : QReq) (reason : Nat) (h : Keeps s₀ s) : Keeps s₀ (State.grantWait s q x reason) := by
  simp only [State.grantWait]
  (repeat' split) <;> simp +contextual (maxDischargeDepth := 40) [h]

@[simp] theorem State.tookTurn_keeps {s₀ s : State} (r : Nat) (who : Requester) (h : Keeps s₀ s) : Keeps s₀ (State.tookTurn s r who) := by
  simp only [State.tookTurn]
  (repeat' split) <;> simp +contextual (maxDischargeDepth := 40) [h]

@[simp] theorem State.grantNow_keeps {s₀ s : State} (qid : Nat) (h : Keeps s₀ s) : Keeps s₀ (State.grantNow s qid) := by
  simp only [State.grantNow]
  (repeat' split) <;> simp +contextual (maxDischargeDepth := 40) [h]

@[simp] theorem State.streamSettles_keeps {s₀ s : State} (k : Nat) (h : Keeps s₀ s) : Keeps s₀ (State.streamSettles s k) := by
  simp only [State.streamSettles]
  (repeat' split) <;> simp +contextual (maxDischargeDepth := 40) [h]

@[simp] theorem State.paced_keeps {s₀ s : State} (qid : Nat) (e : QEntry) (h : Keeps s₀ s) : Keeps s₀ (State.paced s qid e) := by
  simp only [State.paced]
  (repeat' split) <;> simp +contextual (maxDischargeDepth := 40) [h]

@[simp] theorem State.endRecvWaits_keeps {s₀ s : State} (old : State) (queue : Nat) (e : QEntry) (seen : List QUnit) (h : Keeps s₀ s) : Keeps s₀ (State.endRecvWaits s old queue e seen) := by unfold State.endRecvWaits; simp (maxDischargeDepth := 40) [h]

@[simp] theorem State.sendUnits_keeps {s₀ s : State} (q : Nat) (e : QEntry) (hits : List Nat) (at' : Nat) (l : List QUnit) (h : Keeps s₀ s) :
    Keeps s₀ (s.sendUnits q e hits at' l).2.1 := by
  induction l generalizing s at' with
  | nil => simpa [State.sendUnits] using h
  | cons u r ih =>
    simp only [State.sendUnits]
    split
    · simp [h]
    · exact ih _ (State.send_keeps _ h)

@[simp] theorem State.watch_keeps {s₀ s : State} (h : Keeps s₀ s) : Keeps s₀ (State.watch s) := by unfold State.watch; simp (maxDischargeDepth := 40) [h]

/-! ## Params -/

@[simp] theorem State.copiesWhole_keeps {s₀ s : State} (layer : Nat) (buf : Nat) (step : Nat) (serves : Nat) (h : Keeps s₀ s) : Keeps s₀ (State.copiesWhole s layer buf step serves) := by unfold State.copiesWhole; simp (maxDischargeDepth := 40) [h]

@[simp] theorem State.fillCopy_keeps {s₀ s : State} (dev : Nat) (layer : Nat) (t : Nat) (buf : Nat) (step : Nat) (serves : Nat) (count : Nat) (h : Keeps s₀ s) : Keeps s₀ (State.fillCopy s dev layer t buf step serves count) := by unfold State.fillCopy; simp (maxDischargeDepth := 40) [h]

@[simp] theorem State.fileUpd_keeps {s₀ s : State} (step : Nat) (layer : Nat) (role : Nat) (r : TallyRec) (h : Keeps s₀ s) : Keeps s₀ (State.fileUpd s step layer role r) := by unfold State.fileUpd; simp (maxDischargeDepth := 40) [h]

@[simp] theorem State.presetForce_keeps {s₀ s : State} (t : Nat) (other : Nat) (rerun : Bool) (blks : List Nat) (h : Keeps s₀ s) : Keeps s₀ (State.presetForce s t other rerun blks) := by unfold State.presetForce; simp (maxDischargeDepth := 40) [h]

@[simp] theorem State.endUpdate_keeps {s₀ s : State} (t : Nat) (h : Keeps s₀ s) : Keeps s₀ (State.endUpdate s t) := by unfold State.endUpdate; simp (maxDischargeDepth := 40) [h]

@[simp] theorem State.putRun_keeps {s₀ s : State} (t : Nat) (other : Nat) (step : Nat) (rerun : Bool) (first : Nat) (vals : List Val) (part : Bool) (skip : List Nat) (h : Keeps s₀ s) : Keeps s₀ ((State.putRun s t other step rerun first vals part skip).1) := by unfold State.putRun; simp (maxDischargeDepth := 40) [h]

@[simp] theorem State.multicast_keeps {s₀ s : State} (fold : Fold) (layer : Nat) (chunk : Nat → Nat) (master : Nat) (k : Nat) (t : Nat) (step : Nat) (span : Span) (h : Keeps s₀ s) : Keeps s₀ (State.multicast s fold layer chunk master k t step span) := by unfold State.multicast; simp +contextual (maxDischargeDepth := 40) [h]

@[simp] theorem State.convertCopy_keeps {s₀ s : State} (fold : Fold) (layer : Nat) (chunk : Nat → Nat) (master : Nat) (k : Nat) (head : Nat) (t : Nat) (other : Nat) (step : Nat) (serves : Nat) (rerun : Bool) (els : List Nat) (val : State → Nat → Val) (stat : Bool) (h : Keeps s₀ s) : Keeps s₀ (State.convertCopy s fold layer chunk master k head t other step serves rerun els val stat) := by unfold State.convertCopy; simp +contextual (maxDischargeDepth := 40) [h]

/-! ## Reduce -/

@[simp] theorem State.setEntry_keeps {s₀ s : State} (e : Reorder) (h : Keeps s₀ s) : Keeps s₀ (State.setEntry s e) := by unfold State.setEntry; simp (maxDischargeDepth := 40) [h]

theorem State.joinEntry_keeps {s₀ s t : State} (fold step epoch layer chunk member : Nat) (h : Keeps s₀ s)
    (e : s.joinEntry fold step epoch layer chunk member = some t) : Keeps s₀ t := by
  simp only [State.joinEntry] at e
  (repeat' split at e) <;> simp only [Option.some.injEq, reduceCtorEq] at e <;> subst e <;> simp [h]

@[simp] theorem State.postRing_keeps {s₀ s : State} (e : Reorder) (c : Nat) (lap : Nat) (hop : Nat) (scale : Nat) (l : List RBlk) (h : Keeps s₀ s) : Keeps s₀ (State.postRing s e c lap hop scale l) := by unfold State.postRing; simp (maxDischargeDepth := 40) [h]

@[simp] theorem State.noteRing_keeps {s₀ s : State} (step : Nat) (layer : Nat) (l : List Number) (h : Keeps s₀ s) : Keeps s₀ (State.noteRing s step layer l) := by unfold State.noteRing; simp (maxDischargeDepth := 40) [h]

@[simp] theorem State.ringFinal_keeps {s₀ s : State} (e : Reorder) (c : Nat) (scale : Nat) (l : List RBlk) (h : Keeps s₀ s) : Keeps s₀ (State.ringFinal s e c scale l) := by unfold State.ringFinal; simp (maxDischargeDepth := 40) [h]

@[simp] theorem State.ringStep_keeps {s₀ s : State} (e : Reorder) (c : Nat) (scale : Nat) (hop : Nat) (incoming : Option (List RBlk)) (h : Keeps s₀ s) : Keeps s₀ (State.ringStep s e c scale hop incoming) := by unfold State.ringStep; simp (maxDischargeDepth := 40) [h]

@[simp] theorem State.passEntry_keeps {s₀ s : State} (e : Reorder) (h : Keeps s₀ s) : Keeps s₀ (State.passEntry s e) := by unfold State.passEntry; simp +contextual (maxDischargeDepth := 40) [h]

@[simp] theorem State.passEntries_keeps {s₀ s : State} (h : Keeps s₀ s) : Keeps s₀ (State.passEntries s) := by unfold State.passEntries; simp +contextual (maxDischargeDepth := 40) [h]

@[simp] theorem State.startRing_keeps {s₀ s : State} (e : Reorder) (h : Keeps s₀ s) : Keeps s₀ (State.startRing s e) := by unfold State.startRing; simp (maxDischargeDepth := 40) [h]

@[simp] theorem State.startRings_keeps {s₀ s : State} (h : Keeps s₀ s) : Keeps s₀ (State.startRings s) := by unfold State.startRings; simp +contextual (maxDischargeDepth := 40) [h]

@[simp] theorem State.reduceSegment_keeps {s₀ s : State} (f : Fold) (e : Reorder) (member : Nat) (first : Nat) (vals : List Val) (h : Keeps s₀ s) : Keeps s₀ (State.reduceSegment s f e member first vals) := by unfold State.reduceSegment; simp (maxDischargeDepth := 40) [h]

@[simp] theorem State.grantHead_keeps {s₀ s : State} (m : DMsg) (h : Keeps s₀ s) : Keeps s₀ (State.grantHead s m) := by unfold State.grantHead; simp (maxDischargeDepth := 40) [h]

@[simp] theorem State.admitHeads_keeps {s₀ s : State} (h : Keeps s₀ s) : Keeps s₀ s.admitHeads := by
  simp only [State.admitHeads]
  split
  · exact h
  · apply keeps_foldl _ _ _ _ h
    intro s m hs
    split
    · rename_i e
      have := State.joinEntry_keeps _ _ _ _ _ _ hs e
      simp [this]
    · exact hs

/-! ## Update -/

@[simp] theorem State.addSums_keeps {s₀ s : State} (layer : Nat) (l : List (UpIn × UpOut)) (h : Keeps s₀ s) : Keeps s₀ (State.addSums s layer l) := by unfold State.addSums; simp (maxDischargeDepth := 40) [h]

@[simp] theorem State.putSpans_keeps {s₀ s : State} (x : Shard) (rerun : Bool) (wr t : Nat) (vals : List Val) (h : Keeps s₀ s) :
    Keeps s₀ (s.putSpans x rerun wr t vals).1 := by
  simp only [State.putSpans]
  apply keeps_foldl_fst _ _ _ _ h
  intro p run hp
  simp [hp]

@[simp] theorem State.putPart_keeps {s₀ s : State} (p : Party) (x : Shard) (rerun : Bool) (wr : Nat) (h0 : Nat) (role : Nat) (vals : List Val) (h : Keeps s₀ s) : Keeps s₀ (State.putPart s p x rerun wr h0 role vals) := by unfold State.putPart; simp (maxDischargeDepth := 40) [h]

@[simp] theorem State.writeShard_keeps {s₀ s : State} (p : Party) (x : Shard) (out : List (Option UpOut)) (rerun : Bool) (h : Keeps s₀ s) :
    Keeps s₀ (s.writeShard p x out rerun) := by
  simp only [State.writeShard]
  have k1 : ∀ v, Keeps s₀ (s.putPart p x rerun (1 - s.upd.live) p.master 4 v) := fun v => State.putPart_keeps _ _ _ _ _ _ _ h
  split
  · exact State.putPart_keeps _ _ _ _ _ _ _ (keeps_foldl _ (fun t e ht => State.putPart_keeps _ _ _ _ _ _ _ ht) _ _ (k1 _))
  · exact keeps_foldl _ (fun t e ht => State.putPart_keeps _ _ _ _ _ _ _ ht) _ _ (k1 _)

@[simp] theorem State.freeEntry_keeps {s₀ s : State} (x : Shard) (h : Keeps s₀ s) : Keeps s₀ (State.freeEntry s x) := by unfold State.freeEntry; simp (maxDischargeDepth := 40) [h]

@[simp] theorem State.runShard_keeps {s₀ s : State} (region : Nat) (x : Shard) (p : Party) (pr : Profile) (fold : Fold) (h : Keeps s₀ s) : Keeps s₀ (State.runShard s region x p pr fold) := by unfold State.runShard; simp +contextual (maxDischargeDepth := 40) [h]

@[simp] theorem State.readGrads_keeps {s₀ s : State} (region : Nat) (n : Nat) (h : Keeps s₀ s) : Keeps s₀ (State.readGrads s region n) := by unfold State.readGrads; simp (maxDischargeDepth := 40) [h]

@[simp] theorem State.takeShard_keeps {s₀ s : State} (region : Nat) (x : Shard) (n : Nat) (h : Keeps s₀ s) : Keeps s₀ (State.takeShard s region x n) := by unfold State.takeShard; simp (maxDischargeDepth := 40) [h]

/-! ## Verdicts -/

@[simp] theorem State.formVerdict_keeps {s₀ s : State} (units : List Vote) (h : Keeps s₀ s) : Keeps s₀ ((State.formVerdict s units).1) := by
  simp only [State.formVerdict]
  (repeat' split) <;> simp +contextual (maxDischargeDepth := 40) [h]

@[simp] theorem State.rangeVerdict_keeps {s₀ s : State} (n : Nat) (verdict : Nat) (h : Keeps s₀ s) : Keeps s₀ (State.rangeVerdict s n verdict) := by
  simp only [State.rangeVerdict]
  (repeat' split) <;> simp +contextual (maxDischargeDepth := 40) [h]

@[simp] theorem State.fillWindows_keeps {s₀ s : State} (n : Nat) (h : Keeps s₀ s) : Keeps s₀ (State.fillWindows s n) := by unfold State.fillWindows; simp (maxDischargeDepth := 40) [h]

@[simp] theorem State.ledger_keeps {s₀ s : State} (m : Map (Nat × Nat)) (add : Bool) (h : Keeps s₀ s) : Keeps s₀ (State.ledger s m add) := by
  simp only [State.ledger]
  (repeat' split) <;> simp +contextual (maxDischargeDepth := 40) [h]

@[simp] theorem State.sizeLedger_keeps {s₀ s : State} (e : PrecEntry) (k : GovK) (code : Nat) (h : Keeps s₀ s) :
    Keeps s₀ (s.sizeLedger e k code).1 := by
  unfold State.sizeLedger
  apply keeps_foldl_fst _ _ _ _ h
  rintro ⟨t, k⟩ b hp
  simp only at hp ⊢
  simp [hp]

@[simp] theorem State.takeDecision_keeps {s₀ s : State} (eff : Nat) (raised : Bool) (d : Decision) (h : Keeps s₀ s) : Keeps s₀ (State.takeDecision s eff raised d) := by
  simp only [State.takeDecision]
  (repeat' split) <;> simp +contextual (maxDischargeDepth := 40) [h]

@[simp] theorem State.raiseBaseline_keeps {s₀ s : State} (eff : Nat) (h : Keeps s₀ s) : Keeps s₀ (State.raiseBaseline s eff) := by unfold State.raiseBaseline; simp +contextual (maxDischargeDepth := 40) [h]

@[simp] theorem State.takePending_keeps {s₀ s : State} (l : List Decision) (h : Keeps s₀ s) : Keeps s₀ (State.takePending s l) := by unfold State.takePending; simp +contextual (maxDischargeDepth := 40) [h]

@[simp] theorem State.dropEpoch_keeps {s₀ s : State} (n : Nat) (h : Keeps s₀ s) : Keeps s₀ (State.dropEpoch s n) := by unfold State.dropEpoch; simp +contextual (maxDischargeDepth := 40) [h]

@[simp] theorem State.snapBegins_keeps {s₀ s : State} (step : Nat) (h : Keeps s₀ s) : Keeps s₀ (State.snapBegins s step) := by unfold State.snapBegins; simp (maxDischargeDepth := 40) [h]

@[simp] theorem State.snapFollows_keeps {s₀ s : State} (step : Nat) (h : Keeps s₀ s) : Keeps s₀ (State.snapFollows s step) := by unfold State.snapFollows; simp (maxDischargeDepth := 40) [h]

@[simp] theorem State.snapMark_keeps {s₀ s : State} (step : Nat) (h : Keeps s₀ s) : Keeps s₀ (State.snapMark s step) := by unfold State.snapMark; simp (maxDischargeDepth := 40) [h]

@[simp] theorem State.commitBlocks_keeps {s₀ s : State} (h : Keeps s₀ s) : Keeps s₀ (State.commitBlocks s) := by unfold State.commitBlocks; simp +contextual (maxDischargeDepth := 40) [h]

@[simp] theorem State.commitStep_keeps {s₀ s : State} (n : Nat) (h : Keeps s₀ s) : Keeps s₀ (State.commitStep s n) := by unfold State.commitStep; simp +contextual (maxDischargeDepth := 40) [h]

@[simp] theorem State.squashStep_keeps {s₀ s : State} (n : Nat) (skip : Bool) (h : Keeps s₀ s) : Keeps s₀ (State.squashStep s n skip) := by unfold State.squashStep; simp (maxDischargeDepth := 40) [h]

@[simp] theorem State.noteVerdict_keeps {s₀ s : State} (v : Verdict) (h : Keeps s₀ s) : Keeps s₀ (State.noteVerdict s v) := by unfold State.noteVerdict; simp (maxDischargeDepth := 40) [h]

@[simp] theorem State.turnStep_keeps {s₀ s : State} (v : Verdict) (h : Keeps s₀ s) : Keeps s₀ (State.turnStep s v) := by
  simp only [State.turnStep]
  (repeat' split) <;> simp +contextual (maxDischargeDepth := 40) [h]

@[simp] theorem State.takeDecisions_keeps {s₀ s : State} (v : Verdict) (h : Keeps s₀ s) : Keeps s₀ (State.takeDecisions s v) := by unfold State.takeDecisions; simp +contextual (maxDischargeDepth := 40) [h]

@[simp] theorem State.applyVerdict_keeps {s₀ s : State} (v : Verdict) (h : Keeps s₀ s) : Keeps s₀ (State.applyVerdict s v) := by unfold State.applyVerdict; simp (maxDischargeDepth := 40) [h]

@[simp] theorem State.issueVerdict_keeps {s₀ s : State} (v : Verdict) (h : Keeps s₀ s) : Keeps s₀ (State.issueVerdict s v) := by unfold State.issueVerdict; simp +contextual (maxDischargeDepth := 40) [h]

theorem State.formVerdict_some_keeps {s₀ s t : State} {u : List Vote} {d : Verdict} (h : Keeps s₀ s) (e : s.formVerdict u = (t, some d)) :
    Keeps s₀ (t.issueVerdict d) := by
  have k := State.formVerdict_keeps u h
  rw [e] at k
  exact State.issueVerdict_keeps d k

theorem State.formVerdict_none_keeps {s₀ s t : State} {u : List Vote} (h : Keeps s₀ s) (e : s.formVerdict u = (t, none)) : Keeps s₀ t := by
  have k := State.formVerdict_keeps u h
  rwa [e] at k

@[simp] theorem State.tryVerdict_keeps {s₀ s : State} (h : Keeps s₀ s) : Keeps s₀ s.tryVerdict := by
  simp only [State.tryVerdict]
  repeat' split
  all_goals first
    | exact h
    | exact State.formVerdict_some_keeps (State.waitRec_keeps _ _ h) ‹_›
    | exact State.formVerdict_none_keeps (State.waitRec_keeps _ _ h) ‹_›
    | simp (maxDischargeDepth := 40) [h]

@[simp] theorem State.addVote_keeps {s₀ s : State} (v : Vote) (h : Keeps s₀ s) : Keeps s₀ (State.addVote s v) := by unfold State.addVote; simp (maxDischargeDepth := 40) [h]

/-! ## Snapshot -/

@[simp] theorem State.spoilSlot_keeps {s₀ s : State} (k : Nat) (h : Keeps s₀ s) : Keeps s₀ (State.spoilSlot s k) := by unfold State.spoilSlot; simp (maxDischargeDepth := 40) [h]

@[simp] theorem State.readSlot_keeps {s₀ s : State} (ups : Upsets) (k : Nat) (h : Keeps s₀ s) : Keeps s₀ ((State.readSlot s ups k).1) := by
  simp only [State.readSlot]
  (repeat' split) <;> simp +contextual (maxDischargeDepth := 40) [h]

@[simp] theorem State.writeSlotBlocks_keeps {s₀ s : State} (ups : Upsets) (k : Nat) (bytes : Nat) (h : Keeps s₀ s) : Keeps s₀ ((State.writeSlotBlocks s ups k bytes).1) := by unfold State.writeSlotBlocks; simp (maxDischargeDepth := 40) [h]

@[simp] theorem State.slotDone_keeps {s₀ s : State} (k : Nat) (image : List Byte) (h : Keeps s₀ s) : Keeps s₀ (State.slotDone s k image) := by unfold State.slotDone; simp (maxDischargeDepth := 40) [h]

@[simp] theorem State.finishTake_keeps {s₀ s : State} (status : Nat) (fault : Nat) (result : List Byte) (h : Keeps s₀ s) : Keeps s₀ (State.finishTake s status fault result) := by unfold State.finishTake; simp +contextual (maxDischargeDepth := 40) [h]

@[simp] theorem State.takeEnds_keeps {s₀ s : State} (result : List Byte) (h : Keeps s₀ s) : Keeps s₀ (State.takeEnds s result) := by unfold State.takeEnds; simp (maxDischargeDepth := 40) [h]

@[simp] theorem State.copyStops_keeps {s₀ s : State} (h : Keeps s₀ s) : Keeps s₀ (State.copyStops s) := by unfold State.copyStops; simp (maxDischargeDepth := 40) [h]

@[simp] theorem State.copyEnds_keeps {s₀ s : State} (ups : Upsets) (h : Keeps s₀ s) : Keeps s₀ (State.copyEnds s ups) := by unfold State.copyEnds; simp (maxDischargeDepth := 40) [h]

@[simp] theorem State.snapPoison_keeps {s₀ s : State} (t : Nat) (region : Nat) (h : Keeps s₀ s) : Keeps s₀ (State.snapPoison s t region) := by unfold State.snapPoison; simp (maxDischargeDepth := 40) [h]

@[simp] theorem State.readSection_keeps {s₀ s : State} (ups : Upsets) (t : Nat) (l : List SnapUnit) (h : Keeps s₀ s) :
    Keeps s₀ (s.readSection ups t l).1 := by
  induction l generalizing s with
  | nil => exact h
  | cons x r ih =>
    simp only [State.readSection]
    (repeat' split) <;> simp (maxDischargeDepth := 60) [h, ih]

@[simp] theorem State.copySections_keeps {s₀ s : State} (ups : Upsets) (l : List (Nat × Nat)) (h : Keeps s₀ s) :
    Keeps s₀ (s.copySections ups l) := by
  induction l generalizing s with
  | nil => simp [State.copySections, h]
  | cons x r ih =>
    obtain ⟨ty, t⟩ := x
    simp only [State.copySections]
    (repeat' split) <;> simp +contextual (maxDischargeDepth := 40) [h, ih]

@[simp] theorem State.copyIdle_keeps {s₀ s : State} (h : Keeps s₀ s) : Keeps s₀ (State.copyIdle s) := by
  simp only [State.copyIdle]
  (repeat' split) <;> simp +contextual (maxDischargeDepth := 40) [h]

@[simp] theorem State.slotChecked_keeps {s₀ s : State} (ups : Upsets) (byte : Nat) (h : Keeps s₀ s) : Keeps s₀ ((State.slotChecked s ups byte).1) := by
  simp only [State.slotChecked]
  (repeat' split) <;> simp +contextual (maxDischargeDepth := 40) [h]

@[simp] theorem State.restoreUnits_keeps {s₀ s : State} (ty t a b : Nat) (body : List Byte) (h : Keeps s₀ s) :
    Keeps s₀ (s.restoreUnits ty t a b body) := by
  simp only [State.restoreUnits]
  split
  · apply keeps_foldl _ _ _ _ h
    intro t a ht
    split <;> simp (maxDischargeDepth := 60) +contextual [ht]
  · apply keeps_foldl _ _ _ _ h
    intro t a ht
    simp (maxDischargeDepth := 60) +contextual [ht]

@[simp] theorem State.restoreList_keeps {s₀ s : State} (ups : Upsets) (k : Nat) (l : List (Nat × Nat × Nat)) (h : Keeps s₀ s) :
    Keeps s₀ (s.restoreList ups k l) := by
  induction l generalizing s with
  | nil => simp (maxDischargeDepth := 60) +contextual [State.restoreList, h]
  | cons x r ih =>
    obtain ⟨ty, t, done⟩ := x
    simp only [State.restoreList]
    split
    · exact ih (by simp (maxDischargeDepth := 60) +contextual [h])
    · simp (maxDischargeDepth := 60) +contextual [h]
    · simp (maxDischargeDepth := 60) +contextual [h]

@[simp] theorem State.initPlan_keeps {s₀ s : State} (t : Nat) (h : Keeps s₀ s) : Keeps s₀ (s.initPlan t) := by
  simp only [State.initPlan]
  split
  · exact h
  · split
    · exact h
    · apply keeps_foldl _ _ _ _ h
      intro s m hs
      split
      · exact keeps_foldl _ (fun s m hs => State.setPlan_keeps _ _ _ _ hs) _ _ hs
      · exact hs

@[simp] theorem State.initPlans_keeps {s₀ s : State} (h : Keeps s₀ s) : Keeps s₀ (State.initPlans s) := by unfold State.initPlans; simp +contextual (maxDischargeDepth := 40) [h]

@[simp] theorem State.restorePair_keeps {s₀ s : State} (key : Nat) (cls : Nat) (size : Nat) (lambda : Nat) (h : Keeps s₀ s) : Keeps s₀ (State.restorePair s key cls size lambda) := by
  simp only [State.restorePair]
  (repeat' split) <;> simp +contextual (maxDischargeDepth := 40) [h]

@[simp] theorem State.restoreFormat_keeps {s₀ s : State} (h0 : Nat) (old : Nat) (h : Keeps s₀ s) : Keeps s₀ (State.restoreFormat s h0 old) := by unfold State.restoreFormat; simp (maxDischargeDepth := 40) [h]

@[simp] theorem State.restoreLater_keeps {s₀ s : State} (step : Nat) (h0 : Nat) (h : Keeps s₀ s) : Keeps s₀ (State.restoreLater s step h0) := by
  simp only [State.restoreLater]
  (repeat' split) <;> simp +contextual (maxDischargeDepth := 40) [h]

@[simp] theorem State.restoreGov_keeps {s₀ s : State} (body : List Byte) (h : Keeps s₀ s) : Keeps s₀ (State.restoreGov s body) := by unfold State.restoreGov; simp +contextual (maxDischargeDepth := 40) [h]

@[simp] theorem State.restoreSlot_keeps {s₀ s : State} (k : Nat) (h : Keeps s₀ s) : Keeps s₀ (State.restoreSlot s k) := by unfold State.restoreSlot; simp +contextual (maxDischargeDepth := 40) [h]

@[simp] theorem State.restoreEnds_keeps {s₀ s : State} (k : Nat) (h : Keeps s₀ s) : Keeps s₀ (State.restoreEnds s k) := by unfold State.restoreEnds; simp +contextual (maxDischargeDepth := 40) [h]

/-! ## Drover -/

@[simp] theorem State.sendHeads_keeps {s₀ s : State} (fold : Nat) (h : Keeps s₀ s) : Keeps s₀ (State.sendHeads s fold) := by unfold State.sendHeads; simp +contextual (maxDischargeDepth := 40) [h]

@[simp] theorem State.fileGrad_keeps {s₀ s : State} (step : Nat) (layer : Nat) (r : TallyRec) (h : Keeps s₀ s) : Keeps s₀ (State.fileGrad s step layer r) := by unfold State.fileGrad; simp (maxDischargeDepth := 40) [h]

@[simp] theorem State.reduceOwn_keeps {s₀ s : State} (f : Fold) (layer chunk fw : Nat) (x : Full)
    (enc : List (Span × List Nat × List Byte × TallyRec)) (h : Keeps s₀ s) : Keeps s₀ (s.reduceOwn f layer chunk fw x enc) := by
  unfold State.reduceOwn
  split
  · exact h
  · rename_i e
    apply keeps_foldl _ _ _ _ (State.joinEntry_keeps _ _ _ _ _ _ h e)
    intro t a ht
    split <;> simp [ht]

@[simp] theorem State.contribute_keeps {s₀ s : State} (f : Fold) (layer : Nat) (chunk : Nat) (x : Full) (h : Keeps s₀ s) : Keeps s₀ (State.contribute s f layer chunk x) := by unfold State.contribute; simp (maxDischargeDepth := 40) [h]

@[simp] theorem State.stall_keeps {s₀ s : State} (m : DMsg) (h : Keeps s₀ s) : Keeps s₀ (State.stall s m) := by unfold State.stall; simp (maxDischargeDepth := 40) [h]

@[simp] theorem State.onGrant_keeps {s₀ s : State} (m : DMsg) (h : Keeps s₀ s) : Keeps s₀ (State.onGrant s m) := by
  simp only [State.onGrant]
  (repeat' split) <;> simp +contextual (maxDischargeDepth := 40) [h]

@[simp] theorem State.onGrad_keeps {s₀ s : State} (m : DMsg) (h : Keeps s₀ s) : Keeps s₀ (State.onGrad s m) := by
  simp only [State.onGrad]
  (repeat' split) <;> simp +contextual (maxDischargeDepth := 40) [h]

@[simp] theorem State.onRing_keeps {s₀ s : State} (m : DMsg) (h : Keeps s₀ s) : Keeps s₀ (State.onRing s m) := by
  simp only [State.onRing]
  (repeat' split) <;> simp +contextual (maxDischargeDepth := 40) [h]

@[simp] theorem State.onRingFinal_keeps {s₀ s : State} (m : DMsg) (h : Keeps s₀ s) : Keeps s₀ (State.onRingFinal s m) := by
  simp only [State.onRingFinal]
  (repeat' split) <;> simp +contextual (maxDischargeDepth := 40) [h]

@[simp] theorem State.storePlans_keeps {s₀ s : State} (v : View) (b0 nb : Nat) (plans : List Byte) (h : Keeps s₀ s) :
    Keeps s₀ (s.storePlans v b0 nb plans) := by
  unfold State.storePlans
  apply keeps_foldl _ _ _ _ h
  intro t a ht
  split <;> simp [ht]

@[simp] theorem State.storeParam_keeps {s₀ s : State} (ups : Upsets) (m : DMsg) (t : Nat) (refresh : Bool) (h : Keeps s₀ s) : Keeps s₀ (State.storeParam s ups m t refresh) := by unfold State.storeParam; simp (maxDischargeDepth := 40) [h]

@[simp] theorem State.paramBar_keeps {s₀ s : State} (ups : Upsets) (m : DMsg) (a3 : Bar) (h : Keeps s₀ s) : Keeps s₀ (State.paramBar s ups m a3) := by
  simp only [State.paramBar]
  (repeat' split) <;> simp +contextual (maxDischargeDepth := 40) [h]

@[simp] theorem State.onParam_keeps {s₀ s : State} (ups : Upsets) (m : DMsg) (h : Keeps s₀ s) : Keeps s₀ (State.onParam s ups m) := by
  simp only [State.onParam]
  (repeat' split) <;> simp +contextual (maxDischargeDepth := 40) [h]

@[simp] theorem State.deliver_keeps {s₀ s : State} (ups : Upsets) (m : DMsg) (h : Keeps s₀ s) : Keeps s₀ (State.deliver ups s m) := by
  simp only [State.deliver]
  (repeat' split) <;> simp +contextual (maxDischargeDepth := 40) [h]

@[simp] theorem State.retryStalled_keeps {s₀ s : State} (ups : Upsets) (h : Keeps s₀ s) : Keeps s₀ (State.retryStalled s ups) := by unfold State.retryStalled; simp +contextual (maxDischargeDepth := 40) [h]

@[simp] theorem State.foldMessage_keeps {s₀ s : State} (m : DMsg) (ups : Upsets) (h : Keeps s₀ s) : Keeps s₀ (State.foldMessage s m ups) := by unfold State.foldMessage; simp (maxDischargeDepth := 40) [h]

end Sys2Proof.Machine
end

