-- ==== Sys2Proof/Laws/KeepsModule.lean ====
section
/-! SUPPORT. What every command keeps, for the beginning of a job, links, register fields, faults, verdicts, the flock, stopping and host commands. -/

namespace Sys2Proof.Machine

set_option linter.unusedSimpArgs false
set_option linter.unusedVariables false

/-! ## JobBegin -/

@[simp] theorem State.loadContents_keeps {s₀ s : State} (h : Keeps s₀ s) : Keeps s₀ s.loadContents := by
  simp only [State.loadContents]
  apply keeps_foldl _ _ _ _ h
  intro s m hs
  (repeat' split) <;> simp (maxDischargeDepth := 40) [hs]

@[simp] theorem State.zeroPruned_keeps {s₀ s : State} (h : Keeps s₀ s) : Keeps s₀ (State.zeroPruned s) := by unfold State.zeroPruned; simp +contextual (maxDischargeDepth := 40) [h]

@[simp] theorem State.emptyQueues_keeps {s₀ s : State} (step : Nat) (h : Keeps s₀ s) : Keeps s₀ (State.emptyQueues s step) := by unfold State.emptyQueues; simp +contextual (maxDischargeDepth := 40) [h]

@[simp] theorem State.refreshPart_keeps {s₀ s : State} (ups : Upsets) (f : Fold) (layer : Nat) (t : Nat) (c : Nat) (k : Nat) (els : List Nat) (h : Keeps s₀ s) : Keeps s₀ (State.refreshPart s ups f layer t c k els) := by unfold State.refreshPart; simp (maxDischargeDepth := 40) [h]

@[simp] theorem State.refreshList_keeps {s₀ s : State} (ups : Upsets) (l : List (Nat × Nat × Nat × Nat)) (h : Keeps s₀ s) :
    Keeps s₀ (s.refreshList ups l) := by
  induction l generalizing s with
  | nil => simp (maxDischargeDepth := 60) +contextual [State.refreshList, h]
  | cons x r ih =>
    obtain ⟨layer, t, k, done⟩ := x
    simp only [State.refreshList]
    (repeat' split) <;> simp (maxDischargeDepth := 60) +contextual [h, ih]

@[simp] theorem State.refreshOpens_keeps {s₀ s : State} (n : Nat) (h : Keeps s₀ s) : Keeps s₀ (State.refreshOpens s n) := by unfold State.refreshOpens; simp +contextual (maxDischargeDepth := 40) [h]

@[simp] theorem State.refreshCopies_keeps {s₀ s : State} (ups : Upsets) (h : Keeps s₀ s) : Keeps s₀ (State.refreshCopies s ups) := by unfold State.refreshCopies; simp (maxDischargeDepth := 40) [h]

@[simp] theorem State.restoreOn_keeps {s₀ s : State} (ups : Upsets) (h : Keeps s₀ s) : Keeps s₀ (State.restoreOn s ups) := by
  simp only [State.restoreOn]
  (repeat' split) <;> simp +contextual (maxDischargeDepth := 40) [h]

@[simp] theorem State.refreshOn_keeps {s₀ s : State} (ups : Upsets) (h : Keeps s₀ s) : Keeps s₀ (State.refreshOn s ups) := by unfold State.refreshOn; simp (maxDischargeDepth := 40) [h]

@[simp] theorem State.gateAll_keeps {s₀ s : State} (n : Nat) (h : Keeps s₀ s) : Keeps s₀ (State.gateAll s n) := by unfold State.gateAll; simp (maxDischargeDepth := 40) [h]

@[simp] theorem State.beginJob_keeps {s₀ s : State} (slot : Option Nat) (epoch : Nat) (ups : Upsets) (h : Keeps s₀ s) :
    Keeps s₀ (s.beginJob slot epoch ups) := by
  have hb : ∀ y : Block, Memory.wf y.store = true → Memory.wf (Block.begun y).store = true := fun y hy => by
    first | exact hy | rfl
  simp only [State.beginJob]
  (repeat' split) <;> simp (maxDischargeDepth := 60) +contextual [h, hb]

/-! ## Link -/

@[simp] theorem State.bindPeer_keeps {s₀ s : State} (p : Nat) (h : Keeps s₀ s) : Keeps s₀ (State.bindPeer s p) := by
  simp only [State.bindPeer]
  (repeat' split) <;> simp +contextual (maxDischargeDepth := 40) [h]

@[simp] theorem State.setStream_keeps {s₀ s : State} (k : Nat) (x : Stream) (h : Keeps s₀ s) : Keeps s₀ (State.setStream s k x) := by unfold State.setStream; simp (maxDischargeDepth := 40) [h]

@[simp] theorem State.endBulk_keeps {s₀ s : State} (h : Keeps s₀ s) : Keeps s₀ (State.endBulk s) := by unfold State.endBulk; simp +contextual (maxDischargeDepth := 40) [h]

@[simp] theorem State.dropSession_keeps {s₀ s : State} (n : Nat) (h : Keeps s₀ s) : Keeps s₀ (s.dropSession n) := by
  simp only [State.dropSession]
  split
  · exact h
  · apply keeps_foldl
    · intro s m hs
      split <;> simp [hs]
    · simp (maxDischargeDepth := 40) [h]

@[simp] theorem State.endOnward_keeps {s₀ s : State} (p : Nat) (k : Nat) (h : Keeps s₀ s) : Keeps s₀ (State.endOnward s p k) := by
  simp only [State.endOnward]
  (repeat' split) <;> simp +contextual (maxDischargeDepth := 40) [h]

@[simp] theorem State.forwardingLost_keeps {s₀ s : State} (p : Nat) (h : Keeps s₀ s) : Keeps s₀ (State.forwardingLost s p) := by unfold State.forwardingLost; simp +contextual (maxDischargeDepth := 40) [h]

@[simp] theorem State.linkLost_keeps {s₀ s : State} (p : Nat) (h : Keeps s₀ s) : Keeps s₀ (State.linkLost s p) := by unfold State.linkLost; simp +contextual (maxDischargeDepth := 40) [h]

@[simp] theorem State.linkDown_keeps {s₀ s : State} (p : Nat) (detail : Nat) (h : Keeps s₀ s) : Keeps s₀ (State.linkDown s p detail) := by unfold State.linkDown; simp (maxDischargeDepth := 40) [h]

@[simp] theorem State.startRetrain_keeps {s₀ s : State} (p : Nat) (h : Keeps s₀ s) : Keeps s₀ (State.startRetrain s p) := by unfold State.startRetrain; simp (maxDischargeDepth := 40) [h]

@[simp] theorem State.linkExhausted_keeps {s₀ s : State} (p : Nat) (h : Keeps s₀ s) : Keeps s₀ (State.linkExhausted s p) := by unfold State.linkExhausted; simp (maxDischargeDepth := 40) [h]

@[simp] theorem State.resend_keeps {s₀ s : State} (p : Nat) (h : Keeps s₀ s) : Keeps s₀ (State.resend s p) := by unfold State.resend; simp (maxDischargeDepth := 40) [h]

@[simp] theorem State.sendNak_keeps {s₀ s : State} (p : Nat) (h : Keeps s₀ s) : Keeps s₀ (State.sendNak s p) := by unfold State.sendNak; simp (maxDischargeDepth := 40) [h]

@[simp] theorem State.nakOnce_keeps {s₀ s : State} (p : Nat) (h : Keeps s₀ s) : Keeps s₀ (State.nakOnce s p) := by unfold State.nakOnce; simp (maxDischargeDepth := 40) [h]

@[simp] theorem State.owe_keeps {s₀ s : State} (p : Nat) (k : Nat) (h : Keeps s₀ s) : Keeps s₀ (State.owe s p k) := by
  simp only [State.owe]
  (repeat' split) <;> simp +contextual (maxDischargeDepth := 40) [h]

@[simp] theorem State.cutThrough_keeps {s₀ s : State} (p : Nat) (f : Flit) (l : List Nat) (h : Keeps s₀ s) : Keeps s₀ (State.cutThrough s p f l) := by unfold State.cutThrough; simp (maxDischargeDepth := 40) [h]

@[simp] theorem State.takeData_keeps {s₀ s : State} (p : Nat) (f : Flit) (h : Keeps s₀ s) : Keeps s₀ (State.takeData s p f) := by
  simp only [State.takeData]
  (repeat' split) <;> simp +contextual (maxDischargeDepth := 40) [h]

@[simp] theorem State.acceptBlock_keeps {s₀ s : State} (p : Nat) (f : Flit) (h : Keeps s₀ s) : Keeps s₀ (State.acceptBlock s p f) := by unfold State.acceptBlock; simp (maxDischargeDepth := 40) [h]

@[simp] theorem State.linkUp_keeps {s₀ s : State} (p : Nat) (h0 : Hello) (h : Keeps s₀ s) : Keeps s₀ (State.linkUp s p h0) := by unfold State.linkUp; simp (maxDischargeDepth := 40) [h]

@[simp] theorem State.tryUp_keeps {s₀ s : State} (p : Nat) (h : Keeps s₀ s) : Keeps s₀ (State.tryUp s p) := by
  simp only [State.tryUp]
  (repeat' split) <;> simp +contextual (maxDischargeDepth := 40) [h]

@[simp] theorem State.onHello_keeps {s₀ s : State} (p : Nat) (h0 : Hello) (h : Keeps s₀ s) : Keeps s₀ (State.onHello s p h0) := by unfold State.onHello; simp (maxDischargeDepth := 40) [h]

@[simp] theorem State.fecWork_keeps {s₀ s : State} (p : Nat) (h : Keeps s₀ s) : Keeps s₀ (State.fecWork s p) := by unfold State.fecWork; simp (maxDischargeDepth := 40) [h]

/-! ## Flags -/

@[simp] theorem State.badAccess_keeps {s₀ s : State} (h : Keeps s₀ s) : Keeps s₀ (State.badAccess s) := by unfold State.badAccess; simp (maxDischargeDepth := 40) [h]

@[simp] theorem State.rowWrite_keeps {s₀ s : State} (r : RegId) (act : State → State) (h : Keeps s₀ s)
    (ha : ∀ t, Keeps s₀ t → Keeps s₀ (act t)) : Keeps s₀ (s.rowWrite r act) := by
  unfold State.rowWrite
  split <;> simp [h, ha]

@[simp] theorem State.keepLines_keeps {s₀ s : State} (kinds : List Nat) (h : Keeps s₀ s) : Keeps s₀ (State.keepLines s kinds) := by unfold State.keepLines; simp (maxDischargeDepth := 40) [h]

@[simp] theorem State.crossDown_keeps {s₀ s : State} (drained : Bool) (srcs : List Nat) (h : Keeps s₀ s) : Keeps s₀ (State.crossDown s drained srcs) := by unfold State.crossDown; simp (maxDischargeDepth := 40) [h]

@[simp] theorem State.crossUp_keeps {s₀ s : State} (srcs : List Nat) (h : Keeps s₀ s) : Keeps s₀ (State.crossUp s srcs) := by unfold State.crossUp; simp (maxDischargeDepth := 40) [h]

/-! ## FaultCmds -/

@[simp] theorem State.bankBands_keeps {s₀ s : State} (h : Keeps s₀ s) : Keeps s₀ (State.bankBands s) := by unfold State.bankBands; simp +contextual (maxDischargeDepth := 40) [h]

@[simp] theorem State.bankCycles_keeps {s₀ s : State} (h : Keeps s₀ s) : Keeps s₀ (State.bankCycles s) := by unfold State.bankCycles; simp +contextual (maxDischargeDepth := 40) [h]

@[simp] theorem State.markCycles_keeps {s₀ s : State} (h : Keeps s₀ s) : Keeps s₀ s.markCycles := by
  unfold State.markCycles
  exact keeps_mk h rfl rfl rfl rfl List.suffix_rfl id fun k => storesWf_map _ k fun e he => he

@[simp] theorem State.ageAborts_keeps {s₀ s : State} (h : Keeps s₀ s) : Keeps s₀ (State.ageAborts s) := by unfold State.ageAborts; simp (maxDischargeDepth := 40) [h]

@[simp] theorem State.faultCompletes_keeps {s₀ s : State} (code : Nat) (h : Keeps s₀ s) : Keeps s₀ (State.faultCompletes s code) := by unfold State.faultCompletes; simp (maxDischargeDepth := 40) [h]

@[simp] theorem State.enterFaulted_keeps {s₀ s : State} (code : Nat) (dev : Nat) (h : Keeps s₀ s) : Keeps s₀ (State.enterFaulted s code dev) := by unfold State.enterFaulted; simp (maxDischargeDepth := 40) [h]

@[simp] theorem State.sendStop_keeps {s₀ s : State} (code : Nat) (dev : Nat) (h : Keeps s₀ s) : Keeps s₀ (State.sendStop s code dev) := by unfold State.sendStop; simp +contextual (maxDischargeDepth := 40) [h]

@[simp] theorem State.tellManager_keeps {s₀ s : State} (code : Nat) (time : Nat) (h : Keeps s₀ s) : Keeps s₀ (State.tellManager s code time) := by unfold State.tellManager; simp (maxDischargeDepth := 40) [h]

@[simp] theorem State.latchFirst_keeps {s₀ s : State} (x : LogEnt) (dev : Option Nat) (h : Keeps s₀ s) : Keeps s₀ (State.latchFirst s x dev) := by unfold State.latchFirst; simp (maxDischargeDepth := 40) [h]

@[simp] theorem State.memoryLost_keeps {s₀ s : State} (h : Keeps s₀ s) : Keeps s₀ (State.memoryLost s) := by
  unfold State.memoryLost
  exact keeps_mk h rfl rfl rfl rfl List.suffix_rfl (wf_filter _) id

@[simp] theorem State.railsOff_keeps {s₀ s : State} (h : Keeps s₀ s) : Keeps s₀ (State.railsOff s) := by unfold State.railsOff; simp +contextual (maxDischargeDepth := 40) [h]

@[simp] theorem State.watchdog_keeps {s₀ s : State} (detail : Nat) (h : Keeps s₀ s) : Keeps s₀ (State.watchdog s detail) := by unfold State.watchdog; simp (maxDischargeDepth := 40) [h]

@[simp] theorem State.markInexact_keeps {s₀ s : State} (source : Nat) (i : Nat) (h : Keeps s₀ s) : Keeps s₀ (State.markInexact s source i) := by unfold State.markInexact; simp (maxDischargeDepth := 40) [h]

@[simp] theorem State.sampleLost_keeps {s₀ s : State} (h : Keeps s₀ s) : Keeps s₀ (State.sampleLost s) := by unfold State.sampleLost; simp (maxDischargeDepth := 40) [h]

/-! ## Flock -/

@[simp] theorem State.startRecord_keeps {s₀ s : State} (h : Keeps s₀ s) : Keeps s₀ (State.startRecord s) := by unfold State.startRecord; simp (maxDischargeDepth := 40) [h]

@[simp] theorem State.startReady_keeps {s₀ s : State} (h : Keeps s₀ s) : Keeps s₀ (State.startReady s) := by unfold State.startReady; simp (maxDischargeDepth := 40) [h]

@[simp] theorem State.startFail_keeps {s₀ s : State} (code : Nat) (src : Nat) (ctx : Nat) (h : Keeps s₀ s) : Keeps s₀ (State.startFail s code src ctx) := by unfold State.startFail; simp (maxDischargeDepth := 40) [h]

@[simp] theorem State.launchProbes_keeps {s₀ s : State} (h : Keeps s₀ s) : Keeps s₀ (State.launchProbes s) := by unfold State.launchProbes; simp +contextual (maxDischargeDepth := 40) [h]

@[simp] theorem State.sendForm_keeps {s₀ s : State} (l : List Nat) (h : Keeps s₀ s) : Keeps s₀ (State.sendForm s l) := by unfold State.sendForm; simp +contextual (maxDischargeDepth := 40) [h]

@[simp] theorem State.formDone_keeps {s₀ s : State} (o : Int) (h : Keeps s₀ s) : Keeps s₀ (State.formDone s o) := by unfold State.formDone; simp +contextual (maxDischargeDepth := 40) [h]

@[simp] theorem State.formMembers_keeps {s₀ s : State} (o : Int) (h : Keeps s₀ s) : Keeps s₀ (State.formMembers s o) := by unfold State.formMembers; simp +contextual (maxDischargeDepth := 40) [h]

@[simp] theorem State.probeAll_keeps {s₀ s : State} (l : List Nat) (phase : Nat) (h : Keeps s₀ s) : Keeps s₀ (State.probeAll s l phase) := by unfold State.probeAll; simp (maxDischargeDepth := 40) [h]

@[simp] theorem State.formStep_keeps {s₀ s : State} (h : Keeps s₀ s) : Keeps s₀ (State.formStep s) := by
  simp only [State.formStep]
  (repeat' split) <;> simp +contextual (maxDischargeDepth := 40) [h]

@[simp] theorem State.formRun_keeps {s₀ s : State} (n : Nat) (h : Keeps s₀ s) : Keeps s₀ (State.formRun n s) := by
  induction n generalizing s with
  | zero => exact h
  | succ n ih => exact ih (State.formStep_keeps h)

@[simp] theorem State.darkPort_keeps {s₀ s : State} (p : Nat) (h : Keeps s₀ s) : Keeps s₀ (State.darkPort s p) := by unfold State.darkPort; simp (maxDischargeDepth := 40) [h]

@[simp] theorem State.formFails_keeps {s₀ s : State} (code : Nat) (ctx : Nat) (h : Keeps s₀ s) : Keeps s₀ (State.formFails s code ctx) := by unfold State.formFails; simp (maxDischargeDepth := 40) [h]

@[simp] theorem State.takeStop_keeps {s₀ s : State} (code : Nat) (dev : Nat) (h : Keeps s₀ s) : Keeps s₀ (State.takeStop s code dev) := by unfold State.takeStop; simp (maxDischargeDepth := 40) [h]

@[simp] theorem State.restartHere_keeps {s₀ s : State} (slot : Nat) (epoch : Nat) (ups : Upsets) (h : Keeps s₀ s) : Keeps s₀ ((State.restartHere s slot epoch ups).1) := by
  simp only [State.restartHere]
  (repeat' split) <;> simp +contextual (maxDischargeDepth := 40) [h]

@[simp] theorem State.restartFails_keeps {s₀ s : State} (h : Keeps s₀ s) : Keeps s₀ (State.restartFails s) := by unfold State.restartFails; simp (maxDischargeDepth := 40) [h]

@[simp] theorem State.restartAck_keeps {s₀ s : State} (dev : Nat) (result : Nat) (h : Keeps s₀ s) : Keeps s₀ (State.restartAck s dev result) := by unfold State.restartAck; simp (maxDischargeDepth := 40) [h]

@[simp] theorem State.managerRestart_keeps {s₀ s : State} (slot : Nat) (epoch : Nat) (ups : Upsets) (h : Keeps s₀ s) : Keeps s₀ (State.managerRestart s slot epoch ups) := by unfold State.managerRestart; simp (maxDischargeDepth := 40) [h]

/-! ## StopJob -/

@[simp] theorem State.stopStages_keeps {s₀ s : State} (h : Keeps s₀ s) : Keeps s₀ (State.stopStages s) := by unfold State.stopStages; simp +contextual (maxDischargeDepth := 40) [h]

@[simp] theorem State.sendMarkers_keeps {s₀ s : State} (round : Nat) (h : Keeps s₀ s) : Keeps s₀ (State.sendMarkers s round) := by
  simp only [State.sendMarkers]
  (repeat' split) <;> simp +contextual (maxDischargeDepth := 40) [h]

@[simp] theorem State.cutRecords_keeps {s₀ s : State} (r : Nat) (l : List TRec) (h : Keeps s₀ s) : Keeps s₀ (State.cutRecords s r l) := by unfold State.cutRecords; simp +contextual (maxDischargeDepth := 40) [h]

@[simp] theorem State.pauseCut_keeps {s₀ s : State} (h : Keeps s₀ s) : Keeps s₀ (State.pauseCut s) := by unfold State.pauseCut; simp (maxDischargeDepth := 40) [h]

@[simp] theorem State.tryRounds_keeps {s₀ s : State} (n : Nat) (h : Keeps s₀ s) : Keeps s₀ (s.tryRounds n) := by
  induction n generalizing s with
  | zero => exact h
  | succ n ih =>
    simp only [State.tryRounds]
    (repeat' split) <;> simp [h, ih]

@[simp] theorem State.pauseId_keeps {s₀ s : State} (id : Nat × Nat) (h : Keeps s₀ s) : Keeps s₀ (State.pauseId s id) := by unfold State.pauseId; simp (maxDischargeDepth := 40) [h]

@[simp] theorem State.learnPause_keeps {s₀ s : State} (id : Nat × Nat) (h : Keeps s₀ s) : Keeps s₀ (State.learnPause s id) := by unfold State.learnPause; simp (maxDischargeDepth := 40) [h]

@[simp] theorem State.abortAll_keeps {s₀ s : State} (h : Keeps s₀ s) : Keeps s₀ (State.abortAll s) := by unfold State.abortAll; simp +contextual (maxDischargeDepth := 40) [h]

@[simp] theorem State.haltNow_keeps {s₀ s : State} (dev : Nat) (handle : Nat) (h : Keeps s₀ s) : Keeps s₀ (State.haltNow s dev handle) := by unfold State.haltNow; simp (maxDischargeDepth := 40) [h]

@[simp] theorem State.restartTimers_keeps {s₀ s : State} (h : Keeps s₀ s) : Keeps s₀ (State.restartTimers s) := by unfold State.restartTimers; simp (maxDischargeDepth := 40) [h]

@[simp] theorem State.dropPause_keeps {s₀ s : State} (h : Keeps s₀ s) : Keeps s₀ (State.dropPause s) := by unfold State.dropPause; simp (maxDischargeDepth := 40) [h]

@[simp] theorem State.goOn_keeps {s₀ s : State} (h : Keeps s₀ s) : Keeps s₀ (State.goOn s) := by unfold State.goOn; simp +contextual (maxDischargeDepth := 40) [h]

@[simp] theorem State.resumeNow_keeps {s₀ s : State} (h : Keeps s₀ s) : Keeps s₀ (State.resumeNow s) := by unfold State.resumeNow; simp (maxDischargeDepth := 40) [h]

@[simp] theorem State.stopAct_keeps {s₀ s : State} (action : Nat) (dev : Nat) (handle : Nat) (h : Keeps s₀ s) : Keeps s₀ (State.stopAct s action dev handle) := by
  simp only [State.stopAct]
  (repeat' split) <;> simp +contextual (maxDischargeDepth := 40) [h]

@[simp] theorem State.stopRequest_keeps {s₀ s : State} (from' : Option Nat) (action : Nat) (dev : Nat) (handle : Nat) (time : Nat) (h : Keeps s₀ s) : Keeps s₀ (State.stopRequest s from' action dev handle time) := by unfold State.stopRequest; simp (maxDischargeDepth := 40) [h]

@[simp] theorem State.endJob_keeps {s₀ s : State} (h : Keeps s₀ s) : Keeps s₀ (State.endJob s) := by unfold State.endJob; simp (maxDischargeDepth := 40) [h]

/-! ## Observe -/

@[simp] theorem State.strobesMarked_keeps {s₀ s : State} (l : List (Nat × Nat)) (h : Keeps s₀ s) : Keeps s₀ (State.strobesMarked s l) := by unfold State.strobesMarked; simp (maxDischargeDepth := 40) [h]

@[simp] theorem State.sendData_keeps {s₀ s : State} (h0 : Hnd) (vc : Nat) (l : List (List Byte)) (result : List Byte) (h : Keeps s₀ s) : Keeps s₀ (State.sendData s h0 vc l result) := by unfold State.sendData; simp (maxDischargeDepth := 40) [h]

@[simp] theorem State.freezeArmed_keeps {s₀ s : State} (mask : Nat) (h : Keeps s₀ s) : Keeps s₀ (State.freezeArmed s mask) := by unfold State.freezeArmed; simp (maxDischargeDepth := 40) [h]

@[simp] theorem State.force_keeps {s₀ s : State} (h : Keeps s₀ s) : Keeps s₀ (State.force s) := by unfold State.force; simp (maxDischargeDepth := 40) [h]

@[simp] theorem State.disarm_keeps {s₀ s : State} (h : Keeps s₀ s) : Keeps s₀ (State.disarm s) := by unfold State.disarm; simp (maxDischargeDepth := 40) [h]

/-! ## Host -/

@[simp] theorem State.writeSlot_keeps {s₀ s : State} (h0 : Hnd) (ups : Upsets) (h : Keeps s₀ s) : Keeps s₀ (State.writeSlot s h0 ups) := by unfold State.writeSlot; simp (maxDischargeDepth := 40) [h]

@[simp] theorem State.keepChunk_keeps {s₀ s : State} (src : Nat) (index : Nat) (count : Nat) (len : Nat) (crc : Nat) (data : List Byte) (ups : Upsets) (h : Keeps s₀ s) : Keeps s₀ (State.keepChunk s src index count len crc data ups) := by unfold State.keepChunk; simp (maxDischargeDepth := 40) [h]

@[simp] theorem State.cutOwn_keeps {s₀ s : State} (p : Nat) (k : Nat) (handle : Nat) (h : Keeps s₀ s) : Keeps s₀ (State.cutOwn s p k handle) := by unfold State.cutOwn; simp (maxDischargeDepth := 40) [h]

theorem State.abortNow_keeps {s₀ s t : State} (x : Hnd) (h : Keeps s₀ s) (e : s.abortNow x = some t) : Keeps s₀ t := by
  simp only [State.abortNow] at e
  (repeat' split at e) <;> simp only [Option.some.injEq, reduceCtorEq] at e <;> subst e <;> simp (maxDischargeDepth := 40) [h]

end Sys2Proof.Machine
end

