-- ==== Sys2Proof/Laws/KeepsParts.lean ====
section
/-! SUPPORT. What every command keeps, for energy, ageing, the array, loading, start-up, registers, power, sideband, board, memory and vector operations. -/

namespace Sys2Proof.Machine

set_option linter.unusedSimpArgs false
set_option linter.unusedVariables false

/-! ## Energy -/

@[simp] theorem State.signNext_keeps {s₀ s : State} (h : Keeps s₀ s) : Keeps s₀ (State.signNext s) := by
  simp only [State.signNext]
  (repeat' split) <;> simp +contextual (maxDischargeDepth := 40) [h]

@[simp] theorem State.signAll_keeps {s₀ s : State} (n : Nat) (h : Keeps s₀ s) : Keeps s₀ (s.signAll n) := by
  induction n generalizing s with
  | zero => exact h
  | succ n ih => exact ih (State.signNext_keeps h)

@[simp] theorem State.saveHead_keeps {s₀ s : State} (h : Keeps s₀ s) : Keeps s₀ (State.saveHead s) := by unfold State.saveHead; simp (maxDischargeDepth := 40) [h]

@[simp] theorem State.genesis_keeps {s₀ s : State} (h : Keeps s₀ s) : Keeps s₀ (State.genesis s) := by unfold State.genesis; simp (maxDischargeDepth := 40) [h]

@[simp] theorem State.signFlock_keeps {s₀ s : State} (h : Keeps s₀ s) : Keeps s₀ (State.signFlock s) := by unfold State.signFlock; simp (maxDischargeDepth := 40) [h]

@[simp] theorem State.clearFlock_keeps {s₀ s : State} (h : Keeps s₀ s) : Keeps s₀ (State.clearFlock s) := by unfold State.clearFlock; simp (maxDischargeDepth := 40) [h]

@[simp] theorem State.stageAppend_keeps {s₀ s : State} (v : Nat) (h : Keeps s₀ s) : Keeps s₀ (State.stageAppend s v) := by unfold State.stageAppend; simp (maxDischargeDepth := 40) [h]

/-! ## Ageing -/

@[simp] theorem State.planBlock_keeps {s₀ s : State} (r : AgeRead) (h : Keeps s₀ s) : Keeps s₀ (State.planBlock s r) := by unfold State.planBlock; simp (maxDischargeDepth := 40) [h]

@[simp] theorem State.ageEnds_keeps {s₀ s : State} (reads : List AgeRead) (h : Keeps s₀ s) : Keeps s₀ (State.ageEnds s reads) := by unfold State.ageEnds; simp +contextual (maxDischargeDepth := 40) [h]

@[simp] theorem State.ageDue_keeps {s₀ s : State} (h : Keeps s₀ s) : Keeps s₀ (State.ageDue s) := by unfold State.ageDue; simp (maxDischargeDepth := 40) [h]

@[simp] theorem State.ageNow_keeps {s₀ s : State} (h : Keeps s₀ s) : Keeps s₀ (State.ageNow s) := by unfold State.ageNow; simp (maxDischargeDepth := 40) [h]

@[simp] theorem State.writeSummary_keeps {s₀ s : State} (h : Keeps s₀ s) : Keeps s₀ (State.writeSummary s) := by unfold State.writeSummary; simp (maxDischargeDepth := 40) [h]

@[simp] theorem State.loadSummary_keeps {s₀ s : State} (h : Keeps s₀ s) : Keeps s₀ (State.loadSummary s) := by
  simp only [State.loadSummary]
  (repeat' split) <;> simp +contextual (maxDischargeDepth := 40) [h]

-- the tick moves the time base

/-! ## Array -/

@[simp] theorem State.tableFaults_keeps {s₀ s : State} (c : Ctx) (hits : List TableHit) (h : Keeps s₀ s) : Keeps s₀ (State.tableFaults s c hits) := by unfold State.tableFaults; simp +contextual (maxDischargeDepth := 40) [h]

@[simp] theorem State.noteCycles_keeps {s₀ s : State} (c : Ctx) (cyc : Nat) (h : Keeps s₀ s) : Keeps s₀ (State.noteCycles s c cyc) := by unfold State.noteCycles; simp (maxDischargeDepth := 40) [h]

@[simp] theorem arrayRun_keeps {s₀ s : State} (lay : State → Ctx → Lay) (ups : Upsets) (c : Ctx) (h : Keeps s₀ s) : Keeps s₀ ((arrayRun lay ups c s).s) := by unfold arrayRun; simp (maxDischargeDepth := 40) [h]

/-! ## Load -/

@[simp] theorem State.acceptJob_keeps {s₀ s : State} (h : Keeps s₀ s) : Keeps s₀ (State.acceptJob s) := by unfold State.acceptJob; simp (maxDischargeDepth := 40) [h]

/-! ## Start -/

theorem Ordered.andThen_keeps {s₀ : State} {x : Ordered} (n : Nat) (f : State → Ordered) (h : Keeps s₀ x.s) (hf : ∀ t, Keeps s₀ t → Keeps s₀ (f t).s) :
    Keeps s₀ (x.andThen n f).s := by
  unfold Ordered.andThen
  split
  · exact h
  · exact hf _ (by simp [h])

@[simp] theorem State.startBegins_keeps {s₀ s : State} (h : Keeps s₀ s) : Keeps s₀ (State.startBegins s) := by unfold State.startBegins; simp (maxDischargeDepth := 40) [h]

@[simp] theorem State.bootLatch_keeps {s₀ s : State} (e : LoadErr) (h : Keeps s₀ s) : Keeps s₀ (State.bootLatch s e) := by unfold State.bootLatch; simp (maxDischargeDepth := 40) [h]

@[simp] theorem State.closeSegment_keeps {s₀ s : State} (h : Keeps s₀ s) : Keeps s₀ (State.closeSegment s) := by unfold State.closeSegment; simp (maxDischargeDepth := 40) [h]

@[simp] theorem State.tripRecord_keeps {s₀ s : State} (h : Keeps s₀ s) : Keeps s₀ (State.tripRecord s) := by
  simp only [State.tripRecord]
  (repeat' split) <;> simp +contextual (maxDischargeDepth := 40) [h]

@[simp] theorem State.bootFails_keeps {s₀ s : State} (e : LoadErr) (h : Keeps s₀ s) : Keeps s₀ (State.bootFails s e) := by
  simp only [State.bootFails]
  (repeat' split) <;> simp +contextual (maxDischargeDepth := 40) [h]

@[simp] theorem State.calibrate_keeps {s₀ s : State} (h : Keeps s₀ s) : Keeps s₀ (State.calibrate s) := by unfold State.calibrate; simp (maxDischargeDepth := 40) [h]

@[simp] theorem State.applyPlan_keeps {s₀ s : State} (l : List PlanBlk) (h : Keeps s₀ s) : Keeps s₀ (State.applyPlan s l) := by unfold State.applyPlan; simp +contextual (maxDischargeDepth := 40) [h]

@[simp] theorem State.islandsUp_keeps {s₀ s : State} (h : Keeps s₀ s) : Keeps s₀ (State.islandsUp s) := by unfold State.islandsUp; simp (maxDischargeDepth := 40) [h]

@[simp] theorem State.powerIslands_keeps {s₀ s : State} (h : Keeps s₀ s) : Keeps s₀ (State.powerIslands s) := by unfold State.powerIslands; simp (maxDischargeDepth := 40) [h]

@[simp] theorem State.trainMemory_keeps {s₀ s : State} (fails : List Nat) (h : Keeps s₀ s) : Keeps s₀ ((State.trainMemory s fails).s) := by
  simp only [State.trainMemory]
  (repeat' split) <;> simp +contextual (maxDischargeDepth := 40) [h]

@[simp] theorem State.placeTables_keeps {s₀ s : State} (i : Image) (h : Keeps s₀ s) : Keeps s₀ (State.placeTables s i) := by unfold State.placeTables; simp (maxDischargeDepth := 40) [h]

theorem State.verifyMain_keeps {s₀ s : State} (k : State → Image → Ordered) (h : Keeps s₀ s) (hk : ∀ t i, Keeps s₀ t → Keeps s₀ (k t i).s) :
    Keeps s₀ (s.verifyMain k).s := by
  unfold State.verifyMain
  split
  · exact h
  · exact hk _ _ (by simp [h])

@[simp] theorem State.setClocks_keeps {s₀ s : State} (h : Keeps s₀ s) : Keeps s₀ s.setClocks := by
  unfold State.setClocks
  apply keeps_foldl
  · intro s b hs
    exact State.modBlk_keeps _ _ hs fun y hy => hy
  · exact h

theorem orFirst_keeps {s₀ s t : State} (l : List LoadErr) (h : Keeps s₀ s) (k : Keeps s₀ t) : Keeps s₀ (orFirst l s t).s := by
  cases l with
  | nil => exact k
  | cons e r => exact h

@[simp] theorem State.validateMain_keeps {s₀ s : State} (i : Image) (h : Keeps s₀ s) : Keeps s₀ (s.validateMain i).s := by
  unfold State.validateMain
  exact orFirst_keeps _ h (State.setClocks_keeps (State.placeTables_keeps i h))

theorem Block.repaired_store (y : Block) (bad : BadBlk) (t : BlockTest) : (y.repaired bad t).1.store = y.store := by
  simp only [Block.repaired]

@[simp] theorem State.repairBlocks_keeps {s₀ s : State} (map : List BadBlk) (tests : List BlockTest) (h : Keeps s₀ s) :
    Keeps s₀ (s.repairBlocks map tests) := by
  simp only [State.repairBlocks]
  apply keeps_foldl _ _ _ _ h
  intro s b hs
  by_cases hx : (s.blk b).excluded = true
  · simp [hx, hs]
  simp only [hx, Bool.false_eq_true, if_false]
  have k : Keeps s₀ (s.setBlk b ((s.blk b).repaired ((map.find? fun x => x.blk == b).getD { blk := b }) ((tests.find? fun x => x.blk == b).getD { blk := b })).1) :=
    State.setBlk_keeps _ _ hs fun hy => by rw [Block.repaired_store]; exact hy
  split <;> simp [k]

@[simp] theorem State.retrain_keeps {s₀ s : State} (h : Keeps s₀ s) : Keeps s₀ s.retrain := by
  simp only [State.retrain]
  have hm : ∀ (t : State) (n : Nat), Keeps s₀ t → Keeps s₀ { t with fresh := n } := fun t n ht => by simp [ht]
  apply hm
  apply keeps_foldl _ _ _ _ h
  intro t b ht
  split
  · exact ht
  · have k : ∀ map bt, Keeps s₀ (t.setBlk b ((t.blk b).repaired map bt).1) := fun map bt => State.setBlk_keeps _ _ ht fun hy => by rw [Block.repaired_store]; exact hy
    split <;> simp (maxDischargeDepth := 60) [k]

@[simp] theorem State.selfTest_keeps {s₀ s : State} (env : StartEnv) (h : Keeps s₀ s) : Keeps s₀ ((State.selfTest s env).s) := by
  simp only [State.selfTest]
  (repeat' split) <;> simp +contextual (maxDischargeDepth := 40) [h]

@[simp] theorem State.moveBlock_keeps {s₀ s : State} (b : Nat) (spare : Nat) (h : Keeps s₀ s) : Keeps s₀ (State.moveBlock s b spare) := by unfold State.moveBlock; simp (maxDischargeDepth := 40) [h]

@[simp] theorem State.substitute_keeps {s₀ s : State} (l : List Nat) (h : Keeps s₀ s) : Keeps s₀ (s.substitute l).s := by
  induction l generalizing s with
  | nil => exact h
  | cons b r ih =>
    simp only [State.substitute]
    (repeat' split) <;> simp [h, ih]

@[simp] theorem State.spares_keeps {s₀ s : State} (h : Keeps s₀ s) : Keeps s₀ s.spares.s := by
  simp only [State.spares]
  exact Ordered.andThen_keeps 9 _ (by simp [h]) fun t ht => orFirst_keeps _ ht ht

@[simp] theorem State.zeroHbm_keeps {s₀ s : State} (h : Keeps s₀ s) : Keeps s₀ s.zeroHbm := by
  unfold State.zeroHbm
  exact keeps_mk h rfl rfl rfl rfl List.suffix_rfl (wf_filter _) id

@[simp] theorem State.zeroMemory_keeps {s₀ s : State} (h : Keeps s₀ s) : Keeps s₀ s.zeroMemory := by
  unfold State.zeroMemory
  split
  · simp [h]
  · exact State.genesis_keeps (keeps_mk h rfl rfl rfl rfl List.suffix_rfl (wf_filter _) id)

@[simp] theorem State.placePage_keeps {s₀ s : State} (tier : Nat) (p : Nat) (h : Keeps s₀ s) : Keeps s₀ (State.placePage s tier p) := by
  simp only [State.placePage]
  (repeat' split) <;> simp +contextual (maxDischargeDepth := 40) [h]

@[simp] theorem State.placePages_keeps {s₀ s : State} (h : Keeps s₀ s) : Keeps s₀ (State.placePages s) := by unfold State.placePages; simp +contextual (maxDischargeDepth := 40) [h]

@[simp] theorem State.fill_keeps {s₀ s : State} (h : Keeps s₀ s) : Keeps s₀ s.fill := by
  have hb : ∀ y : Block, Memory.wf y.store = true → Memory.wf (Block.begun y).store = true := fun y hy => by
    first | exact hy | rfl
  simp only [State.fill]
  simp +contextual (maxDischargeDepth := 60) [h, hb]

@[simp] theorem State.trainPorts_keeps {s₀ s : State} (h : Keeps s₀ s) : Keeps s₀ (State.trainPorts s) := by unfold State.trainPorts; simp +contextual (maxDischargeDepth := 40) [h]

@[simp] theorem State.loadOrders_keeps {s₀ s : State} (env : StartEnv) (h : Keeps s₀ s) : Keeps s₀ (s.loadOrders env).s := by
  unfold State.loadOrders
  apply State.verifyMain_keeps _ h
  intro t i ht
  have k := Ordered.andThen_keeps (x := { s := t }) 7 (fun s => s.validateMain i) ht fun t ht => State.validateMain_keeps i ht
  have k := Ordered.andThen_keeps 8 (fun s => s.selfTest env) k fun t ht => State.selfTest_keeps env ht
  have k := Ordered.andThen_keeps 9 State.spares k fun t ht => State.spares_keeps ht
  have k := Ordered.andThen_keeps 10 (fun s => { s := s.ageEnds env.ageing }) k fun t ht => State.ageEnds_keeps _ ht
  have k := Ordered.andThen_keeps 11 (fun s => { s := s.zeroMemory }) k fun t ht => State.zeroMemory_keeps ht
  have k := Ordered.andThen_keeps 12 (fun s => { s := s.fill }) k fun t ht => State.fill_keeps ht
  exact Ordered.andThen_keeps 13 (fun s => { s := s.trainPorts }) k fun t ht => State.trainPorts_keeps ht

@[simp] theorem State.booted_keeps {s₀ s : State} (v : Nat) (h : Keeps s₀ s) : Keeps s₀ (State.booted s v) := by unfold State.booted; simp (maxDischargeDepth := 40) [h]

@[simp] theorem State.ordered_keeps {s₀ s : State} (env : StartEnv) (h : Keeps s₀ s) : Keeps s₀ (s.ordered env).s := by
  unfold State.ordered
  exact Ordered.andThen_keeps 6 (fun s => s.loadOrders env) (Ordered.andThen_keeps 5 (fun s => s.trainMemory env.memFail)
    (Ordered.andThen_keeps (x := { s := s }) 4 (fun s => { s := s.powerIslands }) h fun t ht => State.powerIslands_keeps ht)
    fun t ht => State.trainMemory_keeps _ ht) fun t ht => State.loadOrders_keeps env ht

@[simp] theorem State.startOrders_keeps {s₀ s : State} (env : StartEnv) (h : Keeps s₀ s) : Keeps s₀ (s.startOrders env) := by
  have k : Keeps s₀ (s.ordered env).s := by simp (maxDischargeDepth := 60) [h]
  simp only [State.startOrders]
  split
  · simp (maxDischargeDepth := 40) [k]
  · exact k

@[simp] theorem State.start_keeps {s₀ s : State} (env : StartEnv) (h : Keeps s₀ s) : Keeps s₀ (State.start s env) := by
  simp only [State.start]
  (repeat' split) <;> simp +contextual (maxDischargeDepth := 40) [h]

/-! ## RegOps -/

@[simp] theorem State.cdcReadLost_keeps {s₀ s : State} (src : Nat) (h : Keeps s₀ s) : Keeps s₀ (State.cdcReadLost s src) := by unfold State.cdcReadLost; simp (maxDischargeDepth := 40) [h]

@[simp] theorem State.clearRc_keeps {s₀ s : State} (a1 : RegId) (h : Keeps s₀ s) : Keeps s₀ (State.clearRc s a1) := by
  simp only [State.clearRc]
  (repeat' split) <;> simp +contextual (maxDischargeDepth := 40) [h]

@[simp] theorem State.readReg_keeps {s₀ s : State} (l : Map Nat) (a : Nat) (h : Keeps s₀ s) : Keeps s₀ ((State.readReg s l a).2.1) := by
  simp only [State.readReg]
  (repeat' split) <;> simp +contextual (maxDischargeDepth := 40) [h]

@[simp] theorem State.readRegs_keeps {s₀ s : State} (l : Map Nat) (as : List Nat) (h : Keeps s₀ s) : Keeps s₀ (s.readRegs l as).2.1 := by
  unfold State.readRegs
  suffices H : ∀ (as : List Nat) (x : List Nat × State × Map Nat), Keeps s₀ x.2.1 → Keeps s₀ (as.foldl (fun (x : List Nat × State × Map Nat) a =>
      let (v, s, l) := x.2.1.readReg x.2.2 a
      (x.1 ++ [v], s, l)) x).2.1 from H _ _ h
  intro as
  induction as with
  | nil => exact fun x hx => hx
  | cons a r ih => exact fun x hx => ih _ (State.readReg_keeps _ _ hx)

@[simp] theorem State.clearCdc_keeps {s₀ s : State} (src : Nat) (mask : Nat) (h : Keeps s₀ s) : Keeps s₀ (State.clearCdc s src mask) := by unfold State.clearCdc; simp (maxDischargeDepth := 40) [h]

@[simp] theorem State.consumeLog_keeps {s₀ s : State} (v : Nat) (h : Keeps s₀ s) : Keeps s₀ (State.consumeLog s v) := by unfold State.consumeLog; simp (maxDischargeDepth := 40) [h]

@[simp] theorem State.rearmFirst_keeps {s₀ s : State} (h : Keeps s₀ s) : Keeps s₀ (State.rearmFirst s) := by unfold State.rearmFirst; simp (maxDischargeDepth := 40) [h]

@[simp] theorem State.captureDesc_keeps {s₀ s : State} (r : Nat) (v : Nat) (h : Keeps s₀ s) : Keeps s₀ (State.captureDesc s r v) := by unfold State.captureDesc; simp (maxDischargeDepth := 40) [h]

@[simp] theorem State.writePlain_keeps {s₀ s : State} (r : RegId) (v : Nat) (h : Keeps s₀ s) : Keeps s₀ (State.writePlain s r v) := by
  simp only [State.writePlain]
  (repeat' split) <;> simp +contextual (maxDischargeDepth := 40) [h]

/-! ## Power -/

@[simp] theorem State.dropRegs_keeps {s₀ s : State} (h : Keeps s₀ s) : Keeps s₀ s.dropRegs := by
  unfold State.dropRegs
  exact keeps_mk h rfl rfl rfl rfl List.suffix_rfl id fun k => storesWf_map _ k fun e he => he

@[simp] theorem State.dormant_keeps {s₀ s : State} (h : Keeps s₀ s) : Keeps s₀ s.dormant := by
  have h1 : Keeps s₀ (s.openSessions.foldl State.dropSession s) := keeps_foldl _ (fun s n hs => State.dropSession_keeps n hs) _ _ h
  have h2 : Keeps s₀ ((List.range 33).foldl (fun (s : State) p => s.setPort p { inUse := (s.port p).inUse }) (s.openSessions.foldl State.dropSession s)) :=
    keeps_foldl _ (fun s n hs => State.setPort_keeps _ _ hs) _ _ h1
  exact State.keepLines_keeps _ (State.zeroHbm_keeps (State.crossDown_keeps _ _ (keeps_mk (keeps_mk h2 rfl rfl rfl rfl List.suffix_rfl id
    fun k => storesWf_map _ k fun _ _ => rfl) rfl rfl rfl rfl List.suffix_rfl id id)))

@[simp] theorem State.sleepPorts_keeps {s₀ s : State} (h : Keeps s₀ s) : Keeps s₀ (State.sleepPorts s) := by unfold State.sleepPorts; simp +contextual (maxDischargeDepth := 40) [h]

@[simp] theorem State.enterPower_keeps {s₀ s : State} (h0 : Hnd) (target : Nat) (h : Keeps s₀ s) : Keeps s₀ (State.enterPower s h0 target) := by unfold State.enterPower; simp (maxDischargeDepth := 40) [h]

@[simp] theorem State.refusePower_keeps {s₀ s : State} (h0 : Hnd) (code : Nat) (h : Keeps s₀ s) : Keeps s₀ (State.refusePower s h0 code) := by unfold State.refusePower; simp (maxDischargeDepth := 40) [h]

@[simp] theorem State.reloadFails_keeps {s₀ s : State} (e : StartErr) (h : Keeps s₀ s) : Keeps s₀ (State.reloadFails s e) := by unfold State.reloadFails; simp (maxDischargeDepth := 40) [h]

@[simp] theorem State.reloadOrders_keeps {s₀ s : State} (h : Keeps s₀ s) : Keeps s₀ ((State.reloadOrders s).s) := by
  simp only [State.reloadOrders]
  (repeat' split) <;> simp +contextual (maxDischargeDepth := 40) [h]

@[simp] theorem State.reload_keeps {s₀ s : State} (h : Keeps s₀ s) : Keeps s₀ (State.reload s) := by
  simp only [State.reload]
  (repeat' split) <;> simp +contextual (maxDischargeDepth := 40) [h]

@[simp] theorem State.wakePorts_keeps {s₀ s : State} (h : Keeps s₀ s) : Keeps s₀ (State.wakePorts s) := by unfold State.wakePorts; simp +contextual (maxDischargeDepth := 40) [h]

@[simp] theorem State.restoreRegs_keeps {s₀ s : State} (h : Keeps s₀ s) : Keeps s₀ s.restoreRegs := by
  simp only [State.restoreRegs]
  apply keeps_foldl
  · intro s x hs
    (repeat' split) <;> simp [hs]
  · simp [h]

@[simp] theorem State.wake_keeps {s₀ s : State} (h : Keeps s₀ s) : Keeps s₀ (State.wake s) := by unfold State.wake; simp (maxDischargeDepth := 40) [h]

@[simp] theorem State.entryOn_keeps {s₀ s : State} (h : Keeps s₀ s) : Keeps s₀ (State.entryOn s) := by
  simp only [State.entryOn]
  (repeat' split) <;> simp +contextual (maxDischargeDepth := 40) [h]

/-! ## Regs -/

@[simp] theorem State.writeReg_keeps {s₀ s : State} (r : RegId) (v : Nat) (h : Keeps s₀ s) : Keeps s₀ (State.writeReg s r v) := by
  simp only [State.writeReg]
  (repeat' split) <;> simp +contextual (maxDischargeDepth := 40) [h]

@[simp] theorem State.writeAt_keeps {s₀ s : State} (a : Nat) (v : Nat) (h : Keeps s₀ s) : Keeps s₀ (State.writeAt s a v) := by
  simp only [State.writeAt]
  (repeat' split) <;> simp +contextual (maxDischargeDepth := 40) [h]

@[simp] theorem State.sbWrite_keeps {s₀ s : State} (a : Nat) (v : Nat) (h : Keeps s₀ s) : Keeps s₀ (State.sbWrite s a v) := by
  simp only [State.sbWrite]
  (repeat' split) <;> simp +contextual (maxDischargeDepth := 40) [h]

@[simp] theorem State.pathWrite_keeps {s₀ s : State} (p : Path) (a : Nat) (v : Nat) (h : Keeps s₀ s) : Keeps s₀ (State.pathWrite s p a v) := by
  simp only [State.pathWrite]
  (repeat' split) <;> simp +contextual (maxDischargeDepth := 40) [h]

@[simp] theorem State.pathRead_keeps {s₀ s : State} (p : Path) (a : Nat) (h : Keeps s₀ s) : Keeps s₀ ((State.pathRead s p a).2) := by
  simp only [State.pathRead]
  (repeat' split) <;> simp +contextual (maxDischargeDepth := 40) [h]

/-! ## Sideband -/

@[simp] theorem State.framing_keeps {s₀ s : State} (byte : Nat) (h : Keeps s₀ s) : Keeps s₀ (State.framing s byte) := by unfold State.framing; simp (maxDischargeDepth := 40) [h]

@[simp] theorem State.pecBad_keeps {s₀ s : State} (byte : Nat) (h : Keeps s₀ s) : Keeps s₀ (State.pecBad s byte) := by unfold State.pecBad; simp (maxDischargeDepth := 40) [h]

@[simp] theorem State.sbAnswer_keeps {s₀ s : State} (code : Nat) (written : List Byte) (h : Keeps s₀ s) : Keeps s₀ (State.sbAnswer s code written) := by unfold State.sbAnswer; simp (maxDischargeDepth := 40) [h]

@[simp] theorem State.sbServe_keeps {s₀ s : State} (code : Nat) (written : List Byte) (as : List Nat) (h : Keeps s₀ s) : Keeps s₀ (State.sbServe s code written as) := by unfold State.sbServe; simp (maxDischargeDepth := 40) [h]

/-! ## Board -/

@[simp] theorem State.islandsGone_keeps {s₀ s : State} (h : Keeps s₀ s) : Keeps s₀ s.islandsGone := by
  unfold State.islandsGone
  exact keeps_mk h rfl rfl rfl rfl List.suffix_rfl id fun k => storesWf_map _ (storesWf_filter _ k) fun _ _ => rfl

@[simp] theorem State.heartKept_keeps {s₀ s : State} (h : Keeps s₀ s) : Keeps s₀ (State.heartKept s) := by unfold State.heartKept; simp (maxDischargeDepth := 40) [h]

@[simp] theorem State.workDropped_keeps {s₀ s : State} (h : Keeps s₀ s) : Keeps s₀ (State.workDropped s) := by unfold State.workDropped; simp (maxDischargeDepth := 40) [h]

@[simp] theorem State.resetFalls_keeps {s₀ s : State} (h : Keeps s₀ s) : Keeps s₀ (State.resetFalls s) := by unfold State.resetFalls; simp (maxDischargeDepth := 40) [h]

/-! ## Memory -/

@[simp] theorem State.moveFrame_keeps {s₀ s : State} (c f c' f' : Nat) (h : Keeps s₀ s) : Keeps s₀ (s.moveFrame c f c' f') := by
  unfold State.moveFrame
  exact keeps_mk h rfl rfl rfl rfl List.suffix_rfl (wf_moveRange _ _ _) id

@[simp] theorem State.evictOne_keeps {s₀ s : State} (p : Nat) (h : Keeps s₀ s) : Keeps s₀ (State.evictOne s p) := by
  simp only [State.evictOne]
  (repeat' split) <;> simp +contextual (maxDischargeDepth := 40) [h]

@[simp] theorem State.evict_keeps {s₀ s : State} (n : Nat) (h : Keeps s₀ s) : Keeps s₀ (s.evict n) := by
  induction n generalizing s with
  | zero => exact h
  | succ n ih =>
    simp only [State.evict]
    (repeat' split) <;> simp [h, ih]

@[simp] theorem State.pageCame_keeps {s₀ s : State} (page old : Nat) (ups : Upsets) (h : Keeps s₀ s) : Keeps s₀ (s.pageCame page old ups) := by
  simp only [State.pageCame]
  have hm : ∀ t, Keeps s₀ t → Keeps s₀ ((t.refreshOn ups).retryStalled ups) := fun t ht => by simp (maxDischargeDepth := 60) +contextual [ht]
  apply hm
  apply keeps_foldl _ _ _ _ h
  intro s b hs
  (repeat' split) <;> simp (maxDischargeDepth := 60) +contextual [hs]

@[simp] theorem State.dropMove_keeps {s₀ s : State} (page : Nat) (h : Keeps s₀ s) : Keeps s₀ (State.dropMove s page) := by unfold State.dropMove; simp (maxDischargeDepth := 40) [h]

@[simp] theorem State.moveDone_keeps {s₀ s : State} (page : Nat) (m : Move) (ups : Upsets) (h : Keeps s₀ s) : Keeps s₀ (State.moveDone s page m ups) := by unfold State.moveDone; simp (maxDischargeDepth := 40) [h]

@[simp] theorem State.copyBlocks_keeps {s₀ s : State} (ups : Upsets) (l : List (Nat × Nat)) (h : Keeps s₀ s) :
    Keeps s₀ (s.copyBlocks ups l).1 := by
  induction l generalizing s with
  | nil => exact h
  | cons x r ih =>
    obtain ⟨a, b⟩ := x
    have k : Keeps s₀ (s.readBlock ups a).1 := by simp (maxDischargeDepth := 60) +contextual [h]
    have k2 : Keeps s₀ ((s.readBlock ups a).1.writeBlocks ups [b]).1 := by simp (maxDischargeDepth := 60) +contextual [k]
    simp only [State.copyBlocks]
    split
    · exact k
    · split
      · exact k2
      · exact ih k2

@[simp] theorem State.moveEnds_keeps {s₀ : State} (page : Nat) (m : Move) (ups : Upsets) (r : State × Bool) (h : Keeps s₀ r.1) :
    Keeps s₀ (State.moveEnds page m ups r) := by
  simp only [State.moveEnds]
  (repeat' split) <;> simp (maxDischargeDepth := 60) [h]

/-! ## Vector -/

@[simp] theorem vecRun_keeps {s₀ s : State} (c : Ctx) (h : Keeps s₀ s) : Keeps s₀ ((vecRun c s).s) := by unfold vecRun; simp (maxDischargeDepth := 40) [h]

@[simp] theorem normRun_keeps {s₀ s : State} (c : Ctx) (h : Keeps s₀ s) : Keeps s₀ ((normRun c s).s) := by unfold normRun; simp (maxDischargeDepth := 40) [h]

@[simp] theorem softmaxRun_keeps {s₀ s : State} (c : Ctx) (h : Keeps s₀ s) : Keeps s₀ ((softmaxRun c s).s) := by
  simp only [softmaxRun]
  (repeat' split) <;> simp +contextual (maxDischargeDepth := 40) [h]

@[simp] theorem reduceRun_keeps {s₀ s : State} (c : Ctx) (h : Keeps s₀ s) : Keeps s₀ ((reduceRun c s).s) := by
  simp only [reduceRun]
  (repeat' split) <;> simp +contextual (maxDischargeDepth := 40) [h]

@[simp] theorem routeTopkRun_keeps {s₀ s : State} (c : Ctx) (h : Keeps s₀ s) : Keeps s₀ ((routeTopkRun c s).s) := by
  simp only [routeTopkRun]
  (repeat' split) <;> simp +contextual (maxDischargeDepth := 40) [h]

@[simp] theorem routeCountRun_keeps {s₀ s : State} (c : Ctx) (h : Keeps s₀ s) : Keeps s₀ ((routeCountRun c s).s) := by unfold routeCountRun; simp (maxDischargeDepth := 40) [h]

@[simp] theorem convertRun_keeps {s₀ s : State} (c : Ctx) (h : Keeps s₀ s) : Keeps s₀ ((convertRun c s).s) := by
  simp only [convertRun]
  (repeat' split) <;> simp +contextual (maxDischargeDepth := 40) [h]

@[simp] theorem rngRun_keeps {s₀ s : State} (c : Ctx) (h : Keeps s₀ s) : Keeps s₀ ((rngRun c s).s) := by unfold rngRun; simp (maxDischargeDepth := 40) [h]

@[simp] theorem xentRun_keeps {s₀ s : State} (c : Ctx) (h : Keeps s₀ s) : Keeps s₀ ((xentRun c s).s) := by
  simp only [xentRun]
  (repeat' split) <;> simp +contextual (maxDischargeDepth := 40) [h]

@[simp] theorem mseRun_keeps {s₀ s : State} (c : Ctx) (h : Keeps s₀ s) : Keeps s₀ ((mseRun c s).s) := by unfold mseRun; simp (maxDischargeDepth := 40) [h]

@[simp] theorem lossRun_keeps {s₀ s : State} (c : Ctx) (h : Keeps s₀ s) : Keeps s₀ ((lossRun c s).s) := by
  simp only [lossRun]
  (repeat' split) <;> simp +contextual (maxDischargeDepth := 40) [h]

/-! ## Step -/

-- the tick

-- no command

end Sys2Proof.Machine
end

