-- ==== Sys2Proof/Laws/KeepsExec.lean ====
section
/-! SUPPORT. What each command keeps, one lemma a meaning. POWER_GOOD_RISE, POWER_GOOD_FALL and FLASH_PASS_THROUGH change some of it. -/

namespace Sys2Proof.Machine

set_option linter.unusedSimpArgs false
set_option linter.unusedVariables false

/-! ## Exec -/

theorem execSealLayer_keeps {s t : State} (f : Fire) (e : execSealLayer f s = .next t) : Keeps s t := by
  have h := Keeps.refl s
  simp only [execSealLayer] at e
  (repeat' split at e) <;> (simp only [Host.Outcome.next.injEq] at e; subst e; simp +contextual (maxDischargeDepth := 60) [h])

theorem execTallyRecords_keeps {s t : State} (region : Nat) (layer : Nat) (e : execTallyRecords region layer s = .next t) : Keeps s t := by
  have h := Keeps.refl s
  simp only [execTallyRecords] at e
  (repeat' split at e) <;> (simp only [Host.Outcome.next.injEq] at e; subst e; simp +contextual (maxDischargeDepth := 60) [h])

theorem execLayerVerdict_keeps {s t : State} (layer : Nat) (e : execLayerVerdict layer s = .next t) : Keeps s t := by
  have h := Keeps.refl s
  simp only [execLayerVerdict] at e
  (repeat' split at e) <;> (simp only [Host.Outcome.next.injEq] at e; subst e; simp +contextual (maxDischargeDepth := 60) [h])

theorem execSealStep_keeps {s t : State} (f : Fire) (e : execSealStep f s = .next t) : Keeps s t := by
  have h := Keeps.refl s
  simp only [execSealStep] at e
  (repeat' split at e) <;> (simp only [Host.Outcome.next.injEq] at e; subst e; simp +contextual (maxDischargeDepth := 60) [h])

theorem execLayerSwitch_keeps {s t : State} (blk : Nat) (e : execLayerSwitch blk s = .next t) : Keeps s t := by
  have h := Keeps.refl s
  simp only [execLayerSwitch] at e
  (repeat' split at e) <;> (simp only [Host.Outcome.next.injEq] at e; subst e; simp +contextual (maxDischargeDepth := 60) [h])

theorem execPrefetchComplete_keeps {s t : State} (blk : Nat) (tensor : Met Nat) (e : execPrefetchComplete blk tensor s = .next t) : Keeps s t := by
  have h := Keeps.refl s
  simp only [execPrefetchComplete] at e
  (repeat' split at e) <;> (simp only [Host.Outcome.next.injEq] at e; subst e; simp +contextual (maxDischargeDepth := 60) [h])

theorem execModuleStepSeal_keeps {s t : State} (e : execModuleStepSeal s = .next t) : Keeps s t := by
  have h := Keeps.refl s
  simp only [execModuleStepSeal] at e
  (repeat' split at e) <;> (simp only [Host.Outcome.next.injEq] at e; subst e; simp +contextual (maxDischargeDepth := 60) [h])

theorem execFormatChangeEffect_keeps {s t : State} (e : execFormatChangeEffect s = .next t) : Keeps s t := by
  have h := Keeps.refl s
  simp only [execFormatChangeEffect] at e
  (repeat' split at e) <;> (simp only [Host.Outcome.next.injEq] at e; subst e; simp +contextual (maxDischargeDepth := 60) [h])

theorem execQueueSquash_keeps {s t : State} (e : execQueueSquash s = .next t) : Keeps s t := by
  have h := Keeps.refl s
  simp only [execQueueSquash] at e
  (repeat' split at e) <;> (simp only [Host.Outcome.next.injEq] at e; subst e; simp +contextual (maxDischargeDepth := 60) [h])

theorem execVecCopy_keeps {s t : State} (f : Fire) (e : execVecCopy f s = .next t) : Keeps s t := by
  have h := Keeps.refl s
  simp only [execVecCopy, Host.Outcome.next.injEq] at e
  subst e
  simp +contextual (maxDischargeDepth := 60) [h]

theorem execGather_keeps {s t : State} (f : Fire) (e : execGather f s = .next t) : Keeps s t := by
  have h := Keeps.refl s
  simp only [execGather, Host.Outcome.next.injEq] at e
  subst e
  simp +contextual (maxDischargeDepth := 60) [h]

theorem execScatterAdd_keeps {s t : State} (f : Fire) (e : execScatterAdd f s = .next t) : Keeps s t := by
  have h := Keeps.refl s
  simp only [execScatterAdd, Host.Outcome.next.injEq] at e
  subst e
  simp +contextual (maxDischargeDepth := 60) [h]

theorem execSend_keeps {s t : State} (f : Fire) (e : execSend f s = .next t) : Keeps s t := by
  have h := Keeps.refl s
  simp only [execSend, Host.Outcome.next.injEq] at e
  subst e
  simp +contextual (maxDischargeDepth := 60) [h]

theorem execRecv_keeps {s t : State} (f : Fire) (e : execRecv f s = .next t) : Keeps s t := by
  have h := Keeps.refl s
  simp only [execRecv, Host.Outcome.next.injEq] at e
  subst e
  simp +contextual (maxDischargeDepth := 60) [h]

theorem execCellRequest_keeps {s t : State} (queue : Nat) (who : Requester) (amount : Nat) (e : execCellRequest queue who amount s = .next t) : Keeps s t := by
  have h := Keeps.refl s
  simp only [execCellRequest] at e
  (repeat' split at e) <;> (simp only [Host.Outcome.next.injEq] at e; subst e; simp +contextual (maxDischargeDepth := 60) [h])

theorem execCellGrant_keeps {s t : State} (queue : Nat) (e : execCellGrant queue s = .next t) : Keeps s t := by
  have h := Keeps.refl s
  simp only [execCellGrant, Host.Outcome.next.injEq] at e
  subst e
  simp +contextual (maxDischargeDepth := 60) [h]

theorem execDataVisible_keeps {s t : State} (queue : Nat) (e : execDataVisible queue s = .next t) : Keeps s t := by
  have h := Keeps.refl s
  simp only [execDataVisible] at e
  (repeat' split at e) <;> (simp only [Host.Outcome.next.injEq] at e; subst e; simp +contextual (maxDischargeDepth := 60) [h])

theorem execQueueReadTimeout_keeps {s t : State} (queue : Nat) (e : execQueueReadTimeout queue s = .next t) : Keeps s t := by
  have h := Keeps.refl s
  simp only [execQueueReadTimeout] at e
  (repeat' split at e) <;> (simp only [Host.Outcome.next.injEq] at e; subst e; simp +contextual (maxDischargeDepth := 60) [h])

theorem execEgressForward_keeps {s t : State} (queue : Nat) (ups : Upsets) (e : execEgressForward queue ups s = .next t) : Keeps s t := by
  have h := Keeps.refl s
  simp only [execEgressForward] at e
  (repeat' split at e) <;> (simp only [Host.Outcome.next.injEq] at e; subst e; simp +contextual (maxDischargeDepth := 60) [h])

theorem execDeadlock_keeps {s t : State} (e : execDeadlock s = .next t) : Keeps s t := by
  have h := Keeps.refl s
  simp only [execDeadlock] at e
  (repeat' split at e) <;> (simp only [Host.Outcome.next.injEq] at e; subst e; simp +contextual (maxDischargeDepth := 60) [h])

theorem execUpdateShard_keeps {s t : State} (region : Nat) (ups : Upsets) (e : execUpdateShard region ups s = .next t) : Keeps s t := by
  have h := Keeps.refl s
  simp only [execUpdateShard] at e
  (repeat' split at e) <;> (simp only [Host.Outcome.next.injEq] at e; subst e; simp +contextual (maxDischargeDepth := 60) [h])

theorem execStepVote_keeps {s t : State} (e : execStepVote s = .next t) : Keeps s t := by
  have h := Keeps.refl s
  simp only [execStepVote] at e
  (repeat' split at e) <;> (simp only [Host.Outcome.next.injEq] at e; subst e; simp +contextual (maxDischargeDepth := 60) [h])

theorem execVote_keeps {s t : State} (port : Nat) (m : DMsg) (e : execVote port m s = .next t) : Keeps s t := by
  have h := Keeps.refl s
  simp only [execVote, Host.Outcome.next.injEq] at e
  subst e
  simp +contextual (maxDischargeDepth := 60) [h]

theorem execVerdict_keeps {s t : State} (port : Nat) (m : DMsg) (e : execVerdict port m s = .next t) : Keeps s t := by
  have h := Keeps.refl s
  simp only [execVerdict, Host.Outcome.next.injEq] at e
  subst e
  simp +contextual (maxDischargeDepth := 60) [h]

theorem execSnapshotCopy_keeps {s t : State} (ups : Upsets) (e : execSnapshotCopy ups s = .next t) : Keeps s t := by
  have h := Keeps.refl s
  simp only [execSnapshotCopy] at e
  (repeat' split at e) <;> (simp only [Host.Outcome.next.injEq] at e; subst e; simp +contextual (maxDischargeDepth := 60) [h])

theorem execBucketFill_keeps {s t : State} (layer : Nat) (chunk : Nat) (ups : Upsets) (e : execBucketFill layer chunk ups s = .next t) : Keeps s t := by
  have h := Keeps.refl s
  simp only [execBucketFill] at e
  (repeat' split at e) <;> (simp only [Host.Outcome.next.injEq] at e; subst e; simp +contextual (maxDischargeDepth := 60) [h])

theorem execHead_keeps {s t : State} (port : Nat) (m : DMsg) (e : execHead port m s = .next t) : Keeps s t := by
  have h := Keeps.refl s
  simp only [execHead, Host.Outcome.next.injEq] at e
  subst e
  simp +contextual (maxDischargeDepth := 60) [h]

theorem execGrant_keeps {s t : State} (port : Nat) (m : DMsg) (e : execGrant port m s = .next t) : Keeps s t := by
  have h := Keeps.refl s
  simp only [execGrant, Host.Outcome.next.injEq] at e
  subst e
  simp +contextual (maxDischargeDepth := 60) [h]

theorem execGrad_keeps {s t : State} (port : Nat) (m : DMsg) (e : execGrad port m s = .next t) : Keeps s t := by
  have h := Keeps.refl s
  simp only [execGrad, Host.Outcome.next.injEq] at e
  subst e
  simp +contextual (maxDischargeDepth := 60) [h]

theorem execRing_keeps {s t : State} (port : Nat) (m : DMsg) (e : execRing port m s = .next t) : Keeps s t := by
  have h := Keeps.refl s
  simp only [execRing, Host.Outcome.next.injEq] at e
  subst e
  simp +contextual (maxDischargeDepth := 60) [h]

theorem execRingFinal_keeps {s t : State} (port : Nat) (m : DMsg) (e : execRingFinal port m s = .next t) : Keeps s t := by
  have h := Keeps.refl s
  simp only [execRingFinal, Host.Outcome.next.injEq] at e
  subst e
  simp +contextual (maxDischargeDepth := 60) [h]

theorem execParam_keeps {s t : State} (port : Nat) (m : Met DMsg) (e : execParam port m s = .next t) : Keeps s t := by
  have h := Keeps.refl s
  simp only [execParam, Host.Outcome.next.injEq] at e
  subst e
  simp +contextual (maxDischargeDepth := 60) [h]

theorem execBadDroverMessage_keeps {s t : State} (port : Nat) (m : DMsg) (e : execBadDroverMessage port m s = .next t) : Keeps s t := by
  have h := Keeps.refl s
  simp only [execBadDroverMessage] at e
  (repeat' split at e) <;> (simp only [Host.Outcome.next.injEq] at e; subst e; simp +contextual (maxDischargeDepth := 60) [h])

theorem execNakResendTimer_keeps {s t : State} (port : Nat) (e : execNakResendTimer port s = .next t) : Keeps s t := by
  have h := Keeps.refl s
  simp only [execNakResendTimer, Host.Outcome.next.injEq] at e
  subst e
  simp +contextual (maxDischargeDepth := 60) [h]

theorem execAckTimeout_keeps {s t : State} (port : Nat) (e : execAckTimeout port s = .next t) : Keeps s t := by
  have h := Keeps.refl s
  simp only [execAckTimeout, Host.Outcome.next.injEq] at e
  subst e
  simp +contextual (maxDischargeDepth := 60) [h]

theorem execSignalDetect_keeps {s t : State} (port : Nat) (e : execSignalDetect port s = .next t) : Keeps s t := by
  have h := Keeps.refl s
  simp only [execSignalDetect, Host.Outcome.next.injEq] at e
  subst e
  simp +contextual (maxDischargeDepth := 60) [h]

theorem execFecLock_keeps {s t : State} (port : Nat) (e : execFecLock port s = .next t) : Keeps s t := by
  have h := Keeps.refl s
  simp only [execFecLock, Host.Outcome.next.injEq] at e
  subst e
  simp +contextual (maxDischargeDepth := 60) [h]

theorem execHelloTimer_keeps {s t : State} (port : Nat) (e : execHelloTimer port s = .next t) : Keeps s t := by
  have h := Keeps.refl s
  simp only [execHelloTimer, Host.Outcome.next.injEq] at e
  subst e
  simp +contextual (maxDischargeDepth := 60) [h]

theorem execHello_keeps {s t : State} (port : Nat) (h0 : Hello) (e : execHello port h0 s = .next t) : Keeps s t := by
  have h := Keeps.refl s
  simp only [execHello, Host.Outcome.next.injEq] at e
  subst e
  simp +contextual (maxDischargeDepth := 60) [h]

theorem execFlitBlock_keeps {s t : State} (port : Nat) (bytes : List Byte) (fecBad : Bool) (e : execFlitBlock port bytes fecBad s = .next t) : Keeps s t := by
  have h := Keeps.refl s
  simp only [execFlitBlock] at e
  (repeat' split at e) <;> (simp only [Host.Outcome.next.injEq] at e; subst e; simp +contextual (maxDischargeDepth := 60) [h])

theorem execLinkTrainingTimeout_keeps {s t : State} (port : Nat) (e : execLinkTrainingTimeout port s = .next t) : Keeps s t := by
  have h := Keeps.refl s
  simp only [execLinkTrainingTimeout, Host.Outcome.next.injEq] at e
  subst e
  simp +contextual (maxDischargeDepth := 60) [h]

theorem execLinkRetry_keeps {s t : State} (port : Nat) (e : execLinkRetry port s = .next t) : Keeps s t := by
  have h := Keeps.refl s
  simp only [execLinkRetry, Host.Outcome.next.injEq] at e
  subst e
  simp +contextual (maxDischargeDepth := 60) [h]

theorem execFastRetrain_keeps {s t : State} (port : Nat) (e : execFastRetrain port s = .next t) : Keeps s t := by
  have h := Keeps.refl s
  simp only [execFastRetrain, Host.Outcome.next.injEq] at e
  subst e
  simp +contextual (maxDischargeDepth := 60) [h]

theorem execLossOfSignal_keeps {s t : State} (port : Nat) (e : execLossOfSignal port s = .next t) : Keeps s t := by
  have h := Keeps.refl s
  simp only [execLossOfSignal, Host.Outcome.next.injEq] at e
  subst e
  simp +contextual (maxDischargeDepth := 60) [h]

theorem execRetrainAttemptTimeout_keeps {s t : State} (port : Nat) (e : execRetrainAttemptTimeout port s = .next t) : Keeps s t := by
  have h := Keeps.refl s
  simp only [execRetrainAttemptTimeout, Host.Outcome.next.injEq] at e
  subst e
  simp +contextual (maxDischargeDepth := 60) [h]

theorem execLinkSleep_keeps {s t : State} (port : Nat) (e : execLinkSleep port s = .next t) : Keeps s t := by
  have h := Keeps.refl s
  simp only [execLinkSleep, Host.Outcome.next.injEq] at e
  subst e
  simp +contextual (maxDischargeDepth := 60) [h]

theorem execLinkWake_keeps {s t : State} (port : Nat) (e : execLinkWake port s = .next t) : Keeps s t := by
  have h := Keeps.refl s
  simp only [execLinkWake, Host.Outcome.next.injEq] at e
  subst e
  simp +contextual (maxDischargeDepth := 60) [h]

theorem execFirstFaultWindow_keeps {s t : State} (e : execFirstFaultWindow s = .next t) : Keeps s t := by
  have h := Keeps.refl s
  simp only [execFirstFaultWindow] at e
  (repeat' split at e) <;> (simp only [Host.Outcome.next.injEq] at e; subst e; simp +contextual (maxDischargeDepth := 60) [h])

theorem execReport_keeps {s t : State} (code : Nat) (source : Nat) (context : Nat) (time : Nat) (e : execReport code source context time s = .next t) : Keeps s t := by
  have h := Keeps.refl s
  simp only [execReport] at e
  (repeat' split at e) <;> (simp only [Host.Outcome.next.injEq] at e; subst e; simp +contextual (maxDischargeDepth := 60) [h])

theorem execThermalTrip_keeps {s t : State} (die : Nat) (temp : Nat) (e : execThermalTrip die temp s = .next t) : Keeps s t := by
  have h := Keeps.refl s
  simp only [execThermalTrip] at e
  (repeat' split at e) <;> (simp only [Host.Outcome.next.injEq] at e; subst e; simp +contextual (maxDischargeDepth := 60) [h])

theorem execDieOvertemperature_keeps {s t : State} (die : Nat) (temp : Nat) (e : execDieOvertemperature die temp s = .next t) : Keeps s t := by
  have h := Keeps.refl s
  simp only [execDieOvertemperature] at e
  (repeat' split at e) <;> (simp only [Host.Outcome.next.injEq] at e; subst e; simp +contextual (maxDischargeDepth := 60) [h])

theorem execOpticalEngineOvertemperature_keeps {s t : State} (port : Nat) (temp : Nat) (e : execOpticalEngineOvertemperature port temp s = .next t) : Keeps s t := by
  have h := Keeps.refl s
  simp only [execOpticalEngineOvertemperature] at e
  (repeat' split at e) <;> (simp only [Host.Outcome.next.injEq] at e; subst e; simp +contextual (maxDischargeDepth := 60) [h])

theorem execFirmwareWatchdog_keeps {s t : State} (e : execFirmwareWatchdog s = .next t) : Keeps s t := by
  have h := Keeps.refl s
  simp only [execFirmwareWatchdog, Host.Outcome.next.injEq] at e
  subst e
  simp +contextual (maxDischargeDepth := 60) [h]

theorem execLockstepDivergence_keeps {s t : State} (e : execLockstepDivergence s = .next t) : Keeps s t := by
  have h := Keeps.refl s
  simp only [execLockstepDivergence, Host.Outcome.next.injEq] at e
  subst e
  simp +contextual (maxDischargeDepth := 60) [h]

theorem execIdentityTimeout_keeps {s t : State} (e : execIdentityTimeout s = .next t) : Keeps s t := by
  have h := Keeps.refl s
  simp only [execIdentityTimeout, Host.Outcome.next.injEq] at e
  subst e
  simp +contextual (maxDischargeDepth := 60) [h]

theorem execReferenceClockLoss_keeps {s t : State} (e : execReferenceClockLoss s = .next t) : Keeps s t := by
  have h := Keeps.refl s
  simp only [execReferenceClockLoss] at e
  (repeat' split at e) <;> (simp only [Host.Outcome.next.injEq] at e; subst e; simp +contextual (maxDischargeDepth := 60) [h])

theorem execIslandClockGate_keeps {s t : State} (e : execIslandClockGate s = .next t) : Keeps s t := by
  have h := Keeps.refl s
  simp only [execIslandClockGate] at e
  (repeat' split at e) <;> (simp only [Host.Outcome.next.injEq] at e; subst e; simp +contextual (maxDischargeDepth := 60) [h])

theorem execReferenceClockReturn_keeps {s t : State} (e : execReferenceClockReturn s = .next t) : Keeps s t := by
  have h := Keeps.refl s
  simp only [execReferenceClockReturn] at e
  (repeat' split at e) <;> (simp only [Host.Outcome.next.injEq] at e; subst e; simp +contextual (maxDischargeDepth := 60) [h])

theorem execSupplyDroop_keeps {s t : State} (blk : Nat) (e : execSupplyDroop blk s = .next t) : Keeps s t := by
  have h := Keeps.refl s
  simp only [execSupplyDroop] at e
  (repeat' split at e) <;> (simp only [Host.Outcome.next.injEq] at e; subst e; simp +contextual (maxDischargeDepth := 60) [h])

theorem execEventOverrun_keeps {s t : State} (source : Nat) (line : Nat) (e : execEventOverrun source line s = .next t) : Keeps s t := by
  have h := Keeps.refl s
  simp only [execEventOverrun] at e
  (repeat' split at e) <;> (simp only [Host.Outcome.next.injEq] at e; subst e; simp +contextual (maxDischargeDepth := 60) [h])

theorem execMeshFlitCrcFail_keeps {s t : State} (blk : Nat) (e : execMeshFlitCrcFail blk s = .next t) : Keeps s t := by
  have h := Keeps.refl s
  simp only [execMeshFlitCrcFail] at e
  (repeat' split at e) <;> (simp only [Host.Outcome.next.injEq] at e; subst e; simp +contextual (maxDischargeDepth := 60) [h])

theorem execFlockFormation_keeps {s t : State} (e : execFlockFormation s = .next t) : Keeps s t := by
  have h := Keeps.refl s
  simp only [execFlockFormation] at e
  (repeat' split at e) <;> (simp only [Host.Outcome.next.injEq] at e; subst e; simp +contextual (maxDischargeDepth := 60) [h])

theorem execForm_keeps {s t : State} (port : Nat) (m : DMsg) (e : execForm port m s = .next t) : Keeps s t := by
  have h := Keeps.refl s
  simp only [execForm, Host.Outcome.next.injEq] at e
  subst e
  simp +contextual (maxDischargeDepth := 60) [h]

theorem execFormAck_keeps {s t : State} (port : Nat) (m : DMsg) (e : execFormAck port m s = .next t) : Keeps s t := by
  have h := Keeps.refl s
  simp only [execFormAck, Host.Outcome.next.injEq] at e
  subst e
  simp +contextual (maxDischargeDepth := 60) [h]

theorem execProbe_keeps {s t : State} (port : Nat) (m : DMsg) (e : execProbe port m s = .next t) : Keeps s t := by
  have h := Keeps.refl s
  simp only [execProbe, Host.Outcome.next.injEq] at e
  subst e
  simp +contextual (maxDischargeDepth := 60) [h]

theorem execProbeReply_keeps {s t : State} (port : Nat) (m : DMsg) (e : execProbeReply port m s = .next t) : Keeps s t := by
  have h := Keeps.refl s
  simp only [execProbeReply, Host.Outcome.next.injEq] at e
  subst e
  refine State.droverIn_keeps _ _ _ _ _ h fun s₁ k => ?_
  split
  · exact k
  · split
    · exact k
    · simp (maxDischargeDepth := 60) [k]

theorem execFormed_keeps {s t : State} (port : Nat) (m : DMsg) (e : execFormed port m s = .next t) : Keeps s t := by
  have h := Keeps.refl s
  simp only [execFormed, Host.Outcome.next.injEq] at e
  subst e
  simp +contextual (maxDischargeDepth := 60) [h]

theorem execFault_keeps {s t : State} (port : Nat) (m : DMsg) (e : execFault port m s = .next t) : Keeps s t := by
  have h := Keeps.refl s
  simp only [execFault, Host.Outcome.next.injEq] at e
  subst e
  simp +contextual (maxDischargeDepth := 60) [h]

theorem execStop_keeps {s t : State} (port : Nat) (m : DMsg) (e : execStop port m s = .next t) : Keeps s t := by
  have h := Keeps.refl s
  simp only [execStop, Host.Outcome.next.injEq] at e
  subst e
  simp +contextual (maxDischargeDepth := 60) [h]

theorem execAutomaticRestart_keeps {s t : State} (e : execAutomaticRestart s = .next t) : Keeps s t := by
  have h := Keeps.refl s
  simp only [execAutomaticRestart] at e
  (repeat' split at e) <;> (simp only [Host.Outcome.next.injEq] at e; subst e; simp +contextual (maxDischargeDepth := 60) [h])

theorem execRestart_keeps {s t : State} (port : Nat) (m : Met DMsg) (e : execRestart port m s = .next t) : Keeps s t := by
  have h := Keeps.refl s
  simp only [execRestart, Host.Outcome.next.injEq] at e
  subst e
  simp +contextual (maxDischargeDepth := 60) [h]

theorem execRestartAck_keeps {s t : State} (port : Nat) (m : DMsg) (e : execRestartAck port m s = .next t) : Keeps s t := by
  have h := Keeps.refl s
  simp only [execRestartAck, Host.Outcome.next.injEq] at e
  subst e
  simp +contextual (maxDischargeDepth := 60) [h]

theorem execPeerLost_keeps {s t : State} (detail : Nat) (device : Nat) (e : execPeerLost detail device s = .next t) : Keeps s t := by
  have h := Keeps.refl s
  simp only [execPeerLost] at e
  (repeat' split at e) <;> (simp only [Host.Outcome.next.injEq] at e; subst e; simp +contextual (maxDischargeDepth := 60) [h])

theorem execPauseRoundOne_keeps {s t : State} (e : execPauseRoundOne s = .next t) : Keeps s t := by
  have h := Keeps.refl s
  simp only [execPauseRoundOne, Host.Outcome.next.injEq] at e
  subst e
  simp +contextual (maxDischargeDepth := 60) [h]

theorem execPauseMarker_keeps {s t : State} (port : Nat) (round : Nat) (device : Nat) (handle : Nat) (e : execPauseMarker port round device handle s = .next t) : Keeps s t := by
  have h := Keeps.refl s
  simp only [execPauseMarker] at e
  (repeat' split at e) <;> (simp only [Host.Outcome.next.injEq] at e; subst e; simp +contextual (maxDischargeDepth := 60) [h])

theorem execStopRequest_keeps {s t : State} (port : Nat) (action : Nat) (device : Nat) (handle : Nat) (time : Nat) (e : execStopRequest port action device handle time s = .next t) : Keeps s t := by
  have h := Keeps.refl s
  simp only [execStopRequest] at e
  (repeat' split at e) <;> (simp only [Host.Outcome.next.injEq] at e; subst e; simp +contextual (maxDischargeDepth := 60) [h])

theorem execJobPause_keeps {s t : State} (c : Cmd) (e : execJobPause c s = .next t) : Keeps s t := by
  have h := Keeps.refl s
  simp only [execJobPause, Host.Outcome.next.injEq] at e
  subst e
  simp +contextual (maxDischargeDepth := 60) [h]

theorem execJobHalt_keeps {s t : State} (c : Cmd) (e : execJobHalt c s = .next t) : Keeps s t := by
  have h := Keeps.refl s
  simp only [execJobHalt, Host.Outcome.next.injEq] at e
  subst e
  simp +contextual (maxDischargeDepth := 60) [h]

theorem execJobResume_keeps {s t : State} (c : Cmd) (e : execJobResume c s = .next t) : Keeps s t := by
  have h := Keeps.refl s
  simp only [execJobResume, Host.Outcome.next.injEq] at e
  subst e
  simp +contextual (maxDischargeDepth := 60) [h]

theorem execJobAbort_keeps {s t : State} (c : Cmd) (e : execJobAbort c s = .next t) : Keeps s t := by
  have h := Keeps.refl s
  simp only [execJobAbort, Host.Outcome.next.injEq] at e
  subst e
  simp +contextual (maxDischargeDepth := 60) [h]

theorem execCountersRead_keeps {s t : State} (c : Cmd) (e : execCountersRead c s = .next t) : Keeps s t := by
  have h := Keeps.refl s
  simp only [execCountersRead, Host.Outcome.next.injEq] at e
  subst e
  simp +contextual (maxDischargeDepth := 60) [h]

theorem execPeriodicCapture_keeps {s t : State} (e : execPeriodicCapture s = .next t) : Keeps s t := by
  have h := Keeps.refl s
  simp only [execPeriodicCapture] at e
  (repeat' split at e) <;> (simp only [Host.Outcome.next.injEq] at e; subst e; simp +contextual (maxDischargeDepth := 60) [h])

theorem execTraceRead_keeps {s t : State} (c : Cmd) (e : execTraceRead c s = .next t) : Keeps s t := by
  have h := Keeps.refl s
  simp only [execTraceRead, Host.Outcome.next.injEq] at e
  subst e
  simp +contextual (maxDischargeDepth := 60) [h]

theorem execTraceArm_keeps {s t : State} (c : Cmd) (e : execTraceArm c s = .next t) : Keeps s t := by
  have h := Keeps.refl s
  simp only [execTraceArm, Host.Outcome.next.injEq] at e
  subst e
  simp +contextual (maxDischargeDepth := 60) [h]

theorem execTraceRecord_keeps {s t : State} (region : Nat) (r : TraceEvent) (e : execTraceRecord region r s = .next t) : Keeps s t := by
  have h := Keeps.refl s
  simp only [execTraceRecord] at e
  (repeat' split at e) <;> (simp only [Host.Outcome.next.injEq] at e; subst e; simp +contextual (maxDischargeDepth := 60) [h])

theorem execTraceFreeze_keeps {s t : State} (region : Nat) (e : execTraceFreeze region s = .next t) : Keeps s t := by
  have h := Keeps.refl s
  simp only [execTraceFreeze] at e
  (repeat' split at e) <;> (simp only [Host.Outcome.next.injEq] at e; subst e; simp +contextual (maxDischargeDepth := 60) [h])

theorem execTraceTimeTrigger_keeps {s t : State} (e : execTraceTimeTrigger s = .next t) : Keeps s t := by
  have h := Keeps.refl s
  simp only [execTraceTimeTrigger] at e
  (repeat' split at e) <;> (simp only [Host.Outcome.next.injEq] at e; subst e; simp +contextual (maxDischargeDepth := 60) [h])

theorem execForce_keeps {s t : State} (e : execForce s = .next t) : Keeps s t := by
  have h := Keeps.refl s
  simp only [execForce, Host.Outcome.next.injEq] at e
  subst e
  simp +contextual (maxDischargeDepth := 60) [h]

theorem execDisarm_keeps {s t : State} (e : execDisarm s = .next t) : Keeps s t := by
  have h := Keeps.refl s
  simp only [execDisarm, Host.Outcome.next.injEq] at e
  subst e
  simp +contextual (maxDischargeDepth := 60) [h]

theorem execOpenSession_keeps {s t : State} (sess : Nat) (msg : List Byte) (e : execOpenSession sess msg s = .next t) : Keeps s t := by
  have h := Keeps.refl s
  simp only [execOpenSession] at e
  (repeat' split at e) <;> (simp only [Host.Outcome.next.injEq] at e; subst e; simp +contextual (maxDischargeDepth := 60) [h])

theorem execCloseSession_keeps {s t : State} (sess : Nat) (e : execCloseSession sess s = .next t) : Keeps s t := by
  have h := Keeps.refl s
  simp only [execCloseSession] at e
  (repeat' split at e) <;> (simp only [Host.Outcome.next.injEq] at e; subst e; simp +contextual (maxDischargeDepth := 60) [h])

theorem execHciBadMessage_keeps {s t : State} (sess : Nat) (msg : List Byte) (e : execHciBadMessage sess msg s = .next t) : Keeps s t := by
  have h := Keeps.refl s
  simp only [execHciBadMessage] at e
  (repeat' split at e) <;> (simp only [Host.Outcome.next.injEq] at e; subst e; simp +contextual (maxDischargeDepth := 60) [h])

theorem execUnlistedOpcode_keeps {s t : State} (opcode : Nat) (c : Cmd) (e : execUnlistedOpcode opcode c s = .next t) : Keeps s t := by
  have h := Keeps.refl s
  simp only [execUnlistedOpcode] at e
  (repeat' split at e) <;> (simp only [Host.Outcome.next.injEq] at e; subst e; simp +contextual (maxDischargeDepth := 60) [h])

theorem execIdentify_keeps {s t : State} (c : Cmd) (e : execIdentify c s = .next t) : Keeps s t := by
  have h := Keeps.refl s
  simp only [execIdentify, Host.Outcome.next.injEq] at e
  subst e
  simp +contextual (maxDischargeDepth := 60) [h]

theorem execAttest_keeps {s t : State} (c : Cmd) (e : execAttest c s = .next t) : Keeps s t := by
  have h := Keeps.refl s
  simp only [execAttest, Host.Outcome.next.injEq] at e
  subst e
  simp +contextual (maxDischargeDepth := 60) [h]

theorem execJobStart_keeps {s t : State} (c : Met Cmd) (e : execJobStart c s = .next t) : Keeps s t := by
  have h := Keeps.refl s
  simp only [execJobStart, Host.Outcome.next.injEq] at e
  subst e
  refine State.command_keeps _ _ _ _ h fun s₁ x k => ?_
  (repeat' split) <;> simp (maxDischargeDepth := 60) [k]

theorem execSnapshotTake_keeps {s t : State} (c : Cmd) (e : execSnapshotTake c s = .next t) : Keeps s t := by
  have h := Keeps.refl s
  simp only [execSnapshotTake] at e
  (repeat' split at e) <;> (simp only [Host.Outcome.next.injEq] at e; subst e; simp +contextual (maxDischargeDepth := 60) [h])

theorem execSnapshotWrite_keeps {s t : State} (c : Cmd) (e : execSnapshotWrite c s = .next t) : Keeps s t := by
  have h := Keeps.refl s
  simp only [execSnapshotWrite] at e
  (repeat' split at e) <;> (simp only [Host.Outcome.next.injEq] at e; subst e; simp +contextual (maxDischargeDepth := 60) [h])

theorem execBulkArgument_keeps {s t : State} (sess : Nat) (tag : Nat) (rsv : Nat) (data : Met (List Byte)) (e : execBulkArgument sess tag rsv data s = .next t) : Keeps s t := by
  have h := Keeps.refl s
  simp only [execBulkArgument] at e
  (repeat' split at e) <;> (simp only [Host.Outcome.next.injEq] at e; subst e; simp +contextual (maxDischargeDepth := 60) [h])

theorem execSnapshotShip_keeps {s t : State} (c : Met Cmd) (e : execSnapshotShip c s = .next t) : Keeps s t := by
  have h := Keeps.refl s
  simp only [execSnapshotShip, Host.Outcome.next.injEq] at e
  subst e
  refine State.command_keeps _ _ _ _ h fun s₁ x k => ?_
  (repeat' split) <;> simp (maxDischargeDepth := 60) [k]

theorem execSnapshotChunk_keeps {s t : State} (port : Nat) (src : Nat) (index : Nat) (count : Nat) (len : Nat) (crc : Nat) (data : Met Chunk) (e : execSnapshotChunk port src index count len crc data s = .next t) : Keeps s t := by
  have h := Keeps.refl s
  simp only [execSnapshotChunk] at e
  (repeat' split at e) <;> (simp only [Host.Outcome.next.injEq] at e; subst e; simp +contextual (maxDischargeDepth := 60) [h])

theorem execStreamOpen_keeps {s t : State} (c : Cmd) (e : execStreamOpen c s = .next t) : Keeps s t := by
  have h := Keeps.refl s
  simp only [execStreamOpen, Host.Outcome.next.injEq] at e
  subst e
  refine State.command_keeps _ _ _ _ h fun s₁ x k => ?_
  (repeat' split) <;> simp (maxDischargeDepth := 60) [k]

theorem execStreamClose_keeps {s t : State} (c : Cmd) (e : execStreamClose c s = .next t) : Keeps s t := by
  have h := Keeps.refl s
  simp only [execStreamClose, Host.Outcome.next.injEq] at e
  subst e
  refine State.command_keeps _ _ _ _ h fun s₁ x k => ?_
  (repeat' split) <;> simp (maxDischargeDepth := 60) [k]

theorem execStreamMessage_keeps {s t : State} (sess : Nat) (stream : Nat) (data : List Byte) (e : execStreamMessage sess stream data s = .next t) : Keeps s t := by
  have h := Keeps.refl s
  simp only [execStreamMessage] at e
  (repeat' split at e) <;> (simp only [Host.Outcome.next.injEq] at e; subst e; simp +contextual (maxDischargeDepth := 60) [h])

theorem execAbortHandle_keeps {s t : State} (c : Cmd) (e : execAbortHandle c s = .next t) : Keeps s t := by
  have h := Keeps.refl s
  simp only [execAbortHandle, Host.Outcome.next.injEq] at e
  subst e
  refine State.command_keeps _ _ _ _ h fun s₁ x k => ?_
  (repeat' split) <;> first
    | simp (maxDischargeDepth := 60) [k]; done
    | (rename_i q; have kq := State.abortNow_keeps (s₀ := s) _ (by simp (maxDischargeDepth := 60) [k]) q; simp (maxDischargeDepth := 60) [kq])

theorem execRailSample_keeps {s t : State} (nj : RailRead) (e : execRailSample nj s = .next t) : Keeps s t := by
  have h := Keeps.refl s
  simp only [execRailSample] at e
  (repeat' split at e) <;> (simp only [Host.Outcome.next.injEq] at e; subst e; simp +contextual (maxDischargeDepth := 60) [h])

theorem execIntervalRecordTimer_keeps {s t : State} (e : execIntervalRecordTimer s = .next t) : Keeps s t := by
  have h := Keeps.refl s
  simp only [execIntervalRecordTimer] at e
  (repeat' split at e) <;> (simp only [Host.Outcome.next.injEq] at e; subst e; simp +contextual (maxDischargeDepth := 60) [h])

theorem execRecordSigned_keeps {s t : State} (e : execRecordSigned s = .next t) : Keeps s t := by
  have h := Keeps.refl s
  simp only [execRecordSigned] at e
  (repeat' split at e) <;> (simp only [Host.Outcome.next.injEq] at e; subst e; simp +contextual (maxDischargeDepth := 60) [h])

theorem execChainHeadSave_keeps {s t : State} (e : execChainHeadSave s = .next t) : Keeps s t := by
  have h := Keeps.refl s
  simp only [execChainHeadSave] at e
  (repeat' split at e) <;> (simp only [Host.Outcome.next.injEq] at e; subst e; simp +contextual (maxDischargeDepth := 60) [h])

theorem execSign_keeps {s t : State} (e : execSign s = .next t) : Keeps s t := by
  have h := Keeps.refl s
  simp only [execSign, Host.Outcome.next.injEq] at e
  subst e
  simp +contextual (maxDischargeDepth := 60) [h]

theorem execClear_keeps {s t : State} (e : execClear s = .next t) : Keeps s t := by
  have h := Keeps.refl s
  simp only [execClear, Host.Outcome.next.injEq] at e
  subst e
  simp +contextual (maxDischargeDepth := 60) [h]

theorem execEngFlkStageAppend_keeps {s t : State} (value : Reg) (e : execEngFlkStageAppend value s = .next t) : Keeps s t := by
  have h := Keeps.refl s
  simp only [execEngFlkStageAppend, Host.Outcome.next.injEq] at e
  subst e
  simp +contextual (maxDischargeDepth := 60) [h]

theorem execEnergyReport_keeps {s t : State} (c : Cmd) (e : execEnergyReport c s = .next t) : Keeps s t := by
  have h := Keeps.refl s
  simp only [execEnergyReport, Host.Outcome.next.injEq] at e
  subst e
  simp +contextual (maxDischargeDepth := 60) [h]

theorem execAgeingDue_keeps {s t : State} (e : execAgeingDue s = .next t) : Keeps s t := by
  have h := Keeps.refl s
  simp only [execAgeingDue] at e
  (repeat' split at e) <;> (simp only [Host.Outcome.next.injEq] at e; subst e; simp +contextual (maxDischargeDepth := 60) [h])

theorem execNow_keeps {s t : State} (e : execNow s = .next t) : Keeps s t := by
  have h := Keeps.refl s
  simp only [execNow, Host.Outcome.next.injEq] at e
  subst e
  simp +contextual (maxDischargeDepth := 60) [h]

theorem execAgeingMeasurementEnd_keeps {s t : State} (reads : List AgeRead) (e : execAgeingMeasurementEnd reads s = .next t) : Keeps s t := by
  have h := Keeps.refl s
  simp only [execAgeingMeasurementEnd] at e
  (repeat' split at e) <;> (simp only [Host.Outcome.next.injEq] at e; subst e; simp +contextual (maxDischargeDepth := 60) [h])

theorem execSummaryTimer_keeps {s t : State} (e : execSummaryTimer s = .next t) : Keeps s t := by
  have h := Keeps.refl s
  simp only [execSummaryTimer] at e
  (repeat' split at e) <;> (simp only [Host.Outcome.next.injEq] at e; subst e; simp +contextual (maxDischargeDepth := 60) [h])

theorem execMma_keeps {s t : State} (f : Fire) (e : execMma f s = .next t) : Keeps s t := by
  have h := Keeps.refl s
  simp only [execMma, Host.Outcome.next.injEq] at e
  subst e
  simp +contextual (maxDischargeDepth := 60) [h]

theorem execConv_keeps {s t : State} (f : Fire) (e : execConv f s = .next t) : Keeps s t := by
  have h := Keeps.refl s
  simp only [execConv, Host.Outcome.next.injEq] at e
  subst e
  simp +contextual (maxDischargeDepth := 60) [h]

theorem execResetNRise_keeps {s t : State} (env : StartEnv) (e : execResetNRise env s = .next t) : Keeps s t := by
  have h := Keeps.refl s
  simp only [execResetNRise] at e
  (repeat' split at e) <;> (simp only [Host.Outcome.next.injEq] at e; subst e; simp +contextual (maxDischargeDepth := 60) [h])

theorem execLinkWaitExpiry_keeps {s t : State} (e : execLinkWaitExpiry s = .next t) : Keeps s t := by
  have h := Keeps.refl s
  simp only [execLinkWaitExpiry] at e
  (repeat' split at e) <;> (simp only [Host.Outcome.next.injEq] at e; subst e; simp +contextual (maxDischargeDepth := 60) [h])

theorem execPowerState_keeps {s t : State} (c : Cmd) (e : execPowerState c s = .next t) : Keeps s t := by
  have h := Keeps.refl s
  simp only [execPowerState, Host.Outcome.next.injEq] at e
  subst e
  refine State.command_keeps _ _ _ _ h fun s₁ x k => ?_
  (repeat' split) <;> first | simp (maxDischargeDepth := 60) [k]; done | exact k

theorem execReadRegs_keeps {s t : State} (c : Cmd) (e : execReadRegs c s = .next t) : Keeps s t := by
  have h := Keeps.refl s
  simp only [execReadRegs, Host.Outcome.next.injEq] at e
  subst e
  simp +contextual (maxDischargeDepth := 60) [h]

theorem execWriteRegs_keeps {s t : State} (c : Cmd) (e : execWriteRegs c s = .next t) : Keeps s t := by
  have h := Keeps.refl s
  simp only [execWriteRegs, Host.Outcome.next.injEq] at e
  subst e
  simp +contextual (maxDischargeDepth := 60) [h]

theorem execQueDescSel_keeps {s t : State} (region : Nat) (value : Reg) (e : execQueDescSel region value s = .next t) : Keeps s t := by
  have h := Keeps.refl s
  simp only [execQueDescSel, Host.Outcome.next.injEq] at e
  subst e
  simp +contextual (maxDischargeDepth := 60) [h]

theorem execErrLogPtrRd_keeps {s t : State} (value : Reg) (e : execErrLogPtrRd value s = .next t) : Keeps s t := by
  have h := Keeps.refl s
  simp only [execErrLogPtrRd, Host.Outcome.next.injEq] at e
  subst e
  simp +contextual (maxDischargeDepth := 60) [h]

theorem execErrFirstValidClear_keeps {s t : State} (e : execErrFirstValidClear s = .next t) : Keeps s t := by
  have h := Keeps.refl s
  simp only [execErrFirstValidClear, Host.Outcome.next.injEq] at e
  subst e
  simp +contextual (maxDischargeDepth := 60) [h]

theorem execErrLog0Read_keeps {s t : State} (path : Path) (e : execErrLog0Read path s = .next t) : Keeps s t := by
  have h := Keeps.refl s
  simp only [execErrLog0Read, Host.Outcome.next.injEq] at e
  subst e
  simp +contextual (maxDischargeDepth := 60) [h]

theorem execLoRegisterRead_keeps {s t : State} (path : Path) (offset : Nat) (e : execLoRegisterRead path offset s = .next t) : Keeps s t := by
  have h := Keeps.refl s
  simp only [execLoRegisterRead, Host.Outcome.next.injEq] at e
  subst e
  simp +contextual (maxDischargeDepth := 60) [h]

theorem execRcFieldRead_keeps {s t : State} (path : Path) (offset : Nat) (e : execRcFieldRead path offset s = .next t) : Keeps s t := by
  have h := Keeps.refl s
  simp only [execRcFieldRead, Host.Outcome.next.injEq] at e
  subst e
  simp +contextual (maxDischargeDepth := 60) [h]

theorem execGlbCdcFlagsClear_keeps {s t : State} (blk : Option Nat) (mask : Nat) (e : execGlbCdcFlagsClear blk mask s = .next t) : Keeps s t := by
  have h := Keeps.refl s
  simp only [execGlbCdcFlagsClear, Host.Outcome.next.injEq] at e
  subst e
  (repeat' split) <;> simp +contextual (maxDischargeDepth := 60) [h]

theorem runHeld_keeps {s t : State} (i : Instr) (e : runHeld i s = .next t) : Keeps s t := by
  unfold runHeld at e
  split at e
  · exact execIdentify_keeps _ e
  · exact execAttest_keeps _ e
  · exact execJobStart_keeps _ e
  · exact execJobPause_keeps _ e
  · exact execJobHalt_keeps _ e
  · exact execJobResume_keeps _ e
  · exact execJobAbort_keeps _ e
  · exact execSnapshotTake_keeps _ e
  · exact execSnapshotWrite_keeps _ e
  · exact execSnapshotShip_keeps _ e
  · exact execPowerState_keeps _ e
  · exact execReadRegs_keeps _ e
  · exact execWriteRegs_keeps _ e
  · exact execCountersRead_keeps _ e
  · exact execTraceArm_keeps _ e
  · exact execTraceRead_keeps _ e
  · exact execEnergyReport_keeps _ e
  · exact execStreamOpen_keeps _ e
  · exact execStreamClose_keeps _ e
  · exact execAbortHandle_keeps _ e
  · exact execUnlistedOpcode_keeps _ _ e
  · exact execOpenSession_keeps _ _ e
  · exact execCloseSession_keeps _ e
  · exact execHciBadMessage_keeps _ _ e
  · exact execBulkArgument_keeps _ _ _ _ e
  · exact execStreamMessage_keeps _ _ _ e
  · exact execSnapshotChunk_keeps _ _ _ _ _ _ _ e
  · exact execHead_keeps _ _ e
  · exact execGrant_keeps _ _ e
  · exact execGrad_keeps _ _ e
  · exact execParam_keeps _ _ e
  · exact execRing_keeps _ _ e
  · exact execRingFinal_keeps _ _ e
  · exact execVote_keeps _ _ e
  · exact execVerdict_keeps _ _ e
  · exact execFault_keeps _ _ e
  · exact execStop_keeps _ _ e
  · exact execRestart_keeps _ _ e
  · exact execRestartAck_keeps _ _ e
  · exact execForm_keeps _ _ e
  · exact execFormAck_keeps _ _ e
  · exact execProbe_keeps _ _ e
  · exact execProbeReply_keeps _ _ e
  · exact execFormed_keeps _ _ e
  · exact execBadDroverMessage_keeps _ _ e
  · exact execStopRequest_keeps _ _ _ _ _ e
  · exact execPauseMarker_keeps _ _ _ _ e
  · simp only [Host.Outcome.next.injEq] at e
    subst e
    exact Keeps.refl _

theorem runAll_keeps {s t : State} (l : List Instr) (e : runAll l s = .next t) : Keeps s t := by
  induction l generalizing s with
  | nil =>
    simp only [runAll, Host.Outcome.next.injEq] at e
    subst e
    exact Keeps.refl _
  | cons x l ih =>
    simp only [runAll] at e
    split at e
    · rename_i s₁ k
      exact (runHeld_keeps x k).trans (ih e)
    · rename_i k
      exact (k _ e).elim

theorem State.release_keeps {s₀ s t : State} (h : Keeps s₀ s) (old : State) (e : s.release old = .next t) : Keeps s₀ t := by
  unfold State.release at e
  split at e
  · simp only [Host.Outcome.next.injEq] at e
    subst e
    exact h
  · exact (show Keeps s₀ { s with hci := { s.hci with held := [] } } by simp (maxDischargeDepth := 60) [h]).trans (runAll_keeps _ e)

theorem execWake_keeps {s t : State}  (e : execWake s = .next t) : Keeps s t := by
  have h := Keeps.refl s
  simp only [execWake] at e
  exact State.release_keeps (by simp (maxDischargeDepth := 60) +contextual [h]) _ e

theorem execRegisterWrite_keeps {s t : State} (path : Path) (offset : Nat) (value : Reg)  (e : execRegisterWrite path offset value s = .next t) : Keeps s t := by
  have h := Keeps.refl s
  simp only [execRegisterWrite] at e
  exact State.release_keeps (by simp (maxDischargeDepth := 60) +contextual [h]) _ e

theorem execSidebandWrite_keeps {s t : State} (count : Nat) (bytes : List Byte) (pecOk : Bool) (e : execSidebandWrite count bytes pecOk s = .next t) : Keeps s t := by
  have h := Keeps.refl s
  simp only [execSidebandWrite] at e
  (repeat' split at e) <;> first
    | (simp only [Host.Outcome.next.injEq] at e; subst e; simp (maxDischargeDepth := 60) [h]; done)
    | exact State.release_keeps (by simp (maxDischargeDepth := 60) [h]) _ e

theorem execSidebandRead_keeps {s t : State} (count : SbHead) (bytes : List Byte) (e : execSidebandRead count bytes s = .next t) : Keeps s t := by
  have h := Keeps.refl s
  simp only [execSidebandRead, Host.Outcome.next.injEq] at e
  subst e
  simp +contextual (maxDischargeDepth := 60) [h]

theorem execSidebandBlockRead_keeps {s t : State} (count : SbHead) (bytes : List Byte) (e : execSidebandBlockRead count bytes s = .next t) : Keeps s t := by
  have h := Keeps.refl s
  simp only [execSidebandBlockRead, Host.Outcome.next.injEq] at e
  subst e
  simp +contextual (maxDischargeDepth := 60) [h]

theorem execSidebandRepeatRead_keeps {s t : State} (count : SbHead) (e : execSidebandRepeatRead count s = .next t) : Keeps s t := by
  have h := Keeps.refl s
  simp only [execSidebandRepeatRead, Host.Outcome.next.injEq] at e
  subst e
  simp +contextual (maxDischargeDepth := 60) [h]

theorem execSidebandUnlistedCommand_keeps {s t : State} (code : Nat) (e : execSidebandUnlistedCommand code s = .next t) : Keeps s t := by
  have h := Keeps.refl s
  simp only [execSidebandUnlistedCommand, Host.Outcome.next.injEq] at e
  subst e
  simp +contextual (maxDischargeDepth := 60) [h]

theorem execAlertResponse_keeps {s t : State} (e : execAlertResponse s = .next t) : Keeps s t := by
  have h := Keeps.refl s
  simp only [execAlertResponse, Host.Outcome.next.injEq] at e
  subst e
  simp +contextual (maxDischargeDepth := 60) [h]

theorem execResetNFall_keeps {s t : State} (lowNs : Nat) (e : execResetNFall lowNs s = .next t) : Keeps s t := by
  have h := Keeps.refl s
  simp only [execResetNFall] at e
  (repeat' split at e) <;> (simp only [Host.Outcome.next.injEq] at e; subst e; simp +contextual (maxDischargeDepth := 60) [h])

theorem execPageMigration_keeps {s t : State} (region : Nat) (page : Nat) (e : execPageMigration region page s = .next t) : Keeps s t := by
  have h := Keeps.refl s
  simp only [execPageMigration] at e
  (repeat' split at e) <;> (simp only [Host.Outcome.next.injEq] at e; subst e; simp +contextual (maxDischargeDepth := 60) [h])

theorem execEviction_keeps {s t : State} (e : execEviction s = .next t) : Keeps s t := by
  have h := Keeps.refl s
  simp only [execEviction] at e
  (repeat' split at e) <;> (simp only [Host.Outcome.next.injEq] at e; subst e; simp +contextual (maxDischargeDepth := 60) [h])

theorem execMigrationComplete_keeps {s t : State} (page : Nat) (ups : Upsets) (e : execMigrationComplete page ups s = .next t) : Keeps s t := by
  have h := Keeps.refl s
  unfold execMigrationComplete at e
  split at e <;> injection e with e <;> subst e
  · exact h
  · exact State.moveEnds_keeps page _ ups _ (State.copyBlocks_keeps ups _ h)

theorem execMigrationWatchdog_keeps {s t : State} (page : Nat) (e : execMigrationWatchdog page s = .next t) : Keeps s t := by
  have h := Keeps.refl s
  simp only [execMigrationWatchdog] at e
  (repeat' split at e) <;> (simp only [Host.Outcome.next.injEq] at e; subst e; simp +contextual (maxDischargeDepth := 60) [h])

theorem execMemTemperatureRead_keeps {s t : State} (ctl : Nat) (temp : Nat) (e : execMemTemperatureRead ctl temp s = .next t) : Keeps s t := by
  have h := Keeps.refl s
  simp only [execMemTemperatureRead] at e
  (repeat' split at e) <;> (simp only [Host.Outcome.next.injEq] at e; subst e; simp +contextual (maxDischargeDepth := 60) [h])

theorem execMemRefresh_keeps {s t : State} (ctl : Nat) (bank : Nat) (e : execMemRefresh ctl bank s = .next t) : Keeps s t := by
  have h := Keeps.refl s
  simp only [execMemRefresh] at e
  (repeat' split at e) <;> (simp only [Host.Outcome.next.injEq] at e; subst e; simp +contextual (maxDischargeDepth := 60) [h])

theorem execVec_keeps {s t : State} (f : Fire) (e : execVec f s = .next t) : Keeps s t := by
  have h := Keeps.refl s
  simp only [execVec, Host.Outcome.next.injEq] at e
  subst e
  simp +contextual (maxDischargeDepth := 60) [h]

theorem execNorm_keeps {s t : State} (f : Fire) (e : execNorm f s = .next t) : Keeps s t := by
  have h := Keeps.refl s
  simp only [execNorm, Host.Outcome.next.injEq] at e
  subst e
  simp +contextual (maxDischargeDepth := 60) [h]

theorem execSoftmax_keeps {s t : State} (f : Fire) (e : execSoftmax f s = .next t) : Keeps s t := by
  have h := Keeps.refl s
  simp only [execSoftmax, Host.Outcome.next.injEq] at e
  subst e
  simp +contextual (maxDischargeDepth := 60) [h]

theorem execReduce_keeps {s t : State} (f : Fire) (e : execReduce f s = .next t) : Keeps s t := by
  have h := Keeps.refl s
  simp only [execReduce, Host.Outcome.next.injEq] at e
  subst e
  simp +contextual (maxDischargeDepth := 60) [h]

theorem execRouteTopk_keeps {s t : State} (f : Fire) (e : execRouteTopk f s = .next t) : Keeps s t := by
  have h := Keeps.refl s
  simp only [execRouteTopk, Host.Outcome.next.injEq] at e
  subst e
  simp +contextual (maxDischargeDepth := 60) [h]

theorem execRouteCount_keeps {s t : State} (f : Fire) (e : execRouteCount f s = .next t) : Keeps s t := by
  have h := Keeps.refl s
  simp only [execRouteCount, Host.Outcome.next.injEq] at e
  subst e
  simp +contextual (maxDischargeDepth := 60) [h]

theorem execQuant_keeps {s t : State} (f : Fire) (e : execQuant f s = .next t) : Keeps s t := by
  have h := Keeps.refl s
  simp only [execQuant, Host.Outcome.next.injEq] at e
  subst e
  simp +contextual (maxDischargeDepth := 60) [h]

theorem execDequant_keeps {s t : State} (f : Fire) (e : execDequant f s = .next t) : Keeps s t := by
  have h := Keeps.refl s
  simp only [execDequant, Host.Outcome.next.injEq] at e
  subst e
  simp +contextual (maxDischargeDepth := 60) [h]

theorem execRng_keeps {s t : State} (f : Fire) (e : execRng f s = .next t) : Keeps s t := by
  have h := Keeps.refl s
  simp only [execRng, Host.Outcome.next.injEq] at e
  subst e
  simp +contextual (maxDischargeDepth := 60) [h]

theorem execLoss_keeps {s t : State} (f : Fire) (e : execLoss f s = .next t) : Keeps s t := by
  have h := Keeps.refl s
  simp only [execLoss, Host.Outcome.next.injEq] at e
  subst e
  simp +contextual (maxDischargeDepth := 60) [h]

end Sys2Proof.Machine
end

