-- ==== Sys2Proof/WellFormed.lean ====
section
/-! DEFINITION. When a command names things the module has: numbers inside their ranges, messages of their lengths. An
ill-formed command names a block, port, session or register that does not exist; it is no event of this module. -/

namespace Sys2Proof

/-- Blocks are numbered 0 to 255 over the module (R23, R31). -/
def okBlk (b : Nat) : Bool := b < 256

/-- A firing: a block, one of 16 stages, and a position. -/
def Fire.wf (f : Fire) : Bool := okBlk f.blk && f.stage < 16

/-- Regions are numbered 0 to 3 (R23). -/
def okRegion (r : Nat) : Bool := r < 4

/-- Ports are 0 to 31 and the control port 32 (R352). -/
def okPort (p : Nat) : Bool := p < 33

/-- A queue identifier has 18 bits (R209). -/
def okQueue (q : Nat) : Bool := q < 2 ^ 18

/-- A logical page number has 19 bits (R259). -/
def okPage (p : Nat) : Bool := p < 2 ^ 19

/-- The memory controllers are 0 to 23 (R331). -/
def okCtl (c : Nat) : Bool := c < 24

/-- Sessions are 0 to 63 (R409). -/
def okSess (n : Nat) : Bool := n < 64

/-- Register addresses are word aligned offsets of 32 bits (R499, R501). -/
def okOffset (a : Nat) : Bool := a < 2 ^ 32 && a % 4 == 0

/-- The header fields of R299 in their widths, and a payload no longer than the longest (R299). -/
def DMsg.wf (m : DMsg) : Bool :=
  m.type < 256 && m.fold < 256 && m.src < 65536 && m.dst < 65536 && m.fmt < 65536 && m.step < 2 ^ 64 &&
  m.epoch < 2 ^ 32 && m.layer < 65536 && m.chunk < 65536 && m.tensor < 2 ^ 32 && m.count < 2 ^ 32 &&
  m.first < 2 ^ 64 && m.lap < 65536 && m.hop < 65536 && m.scale < 2 ^ 32 && m.time < 2 ^ 64 && m.pcrc < 2 ^ 32 &&
  m.payload.length < 2 ^ 24

/-- The header fields of R407 in their widths; the arguments are inline bytes. -/
def Cmd.wf (c : Cmd) : Bool :=
  okSess c.sess && c.tag < 2 ^ 32 && c.inlineLen < 65536 && c.bulkLen < 2 ^ 32 && c.args.length < 65536

/-- A requester names a stage of a block, the ingress port, or a region's Drover slice. -/
def Requester.wf : Requester → Bool
  | .stage b st _ => okBlk b && st < 16
  | .ingress => true
  | .drover r => okRegion r

/-- The fields of a hello (R363). -/
def Hello.wf (h : Hello) : Bool :=
  h.kind < 256 && okPort h.port && h.serial < 2 ^ 128 && h.job < 2 ^ 64 && h.credits.length == 66

/-- Whether a command names things the module has. -/
def Instr.wf : Instr → Bool
  | .mma f | .conv f | .vec f | .vecCopy f | .norm f | .softmax f | .reduce f | .gather f | .scatterAdd f
  | .routeTopk f | .routeCount f | .quant f | .dequant f | .rng f | .loss f | .send f | .recv f | .sealLayer f
  | .sealStep f => f.wf
  | .layerSwitch b | .supplyDroop b | .meshFlitCrcFail b => okBlk b
  | .prefetchComplete b t => okBlk b && t.it < 0xFFFFF
  | .tallyRecords r l => okRegion r && l < 65536
  | .layerVerdict l => l < 65536
  | .vote p m | .verdict p m | .head p m | .grant p m | .grad p m | .ring p m | .ringFinal p m
  | .badDroverMessage p m | .fault p m | .stop p m | .restartAck p m | .form p m | .formAck p m
  | .probe p m | .probeReply p m | .formed p m => p < 32 && m.wf
  | .param p m | .restart p m => p < 32 && m.it.wf
  | .updateShard r _ => okRegion r
  | .bucketFill l c _ => l < 65536 && c < 65536
  | .peerLost d dev => d < 256 && dev < 65536
  | .cellRequest q w _ => okQueue q && w.wf
  | .cellGrant q | .dataVisible q | .queueReadTimeout q => okQueue q
  | .egressForward q _ => okQueue q
  | .pageMigration r p => okRegion r && okPage p
  | .migrationComplete p _ => okPage p
  | .migrationWatchdog p => okPage p
  | .memTemperatureRead c t => okCtl c && t < 256
  | .memRefresh c b => okCtl c && b < 32
  | .flitBlock p bs _ => okPort p && bs.length == 512
  | .nakResendTimer p | .ackTimeout p | .fastRetrain p | .lossOfSignal p | .signalDetect p | .helloTimer p
  | .linkTrainingTimeout p | .linkRetry p | .linkSleep p | .linkWake p | .fecLock p | .retrainAttemptTimeout p => okPort p
  | .hello p h => okPort p && h.wf
  | .stopRequest p a d h t => p < 32 && a < 256 && d < 65536 && h < 2 ^ 32 && t < 2 ^ 64
  | .pauseMarker p r d h => p < 32 && r < 256 && d < 65536 && h < 2 ^ 32
  | .openSession n _ | .closeSession n | .hciBadMessage n _ => okSess n
  | .identify c | .attest c | .jobPause c | .jobHalt c | .jobResume c | .jobAbort c | .snapshotTake c
  | .snapshotWrite c | .powerState c | .readRegs c | .writeRegs c | .countersRead c | .traceArm c
  | .traceRead c | .energyReport c | .streamOpen c | .streamClose c | .abortHandle c => c.wf
  | .jobStart c | .snapshotShip c => c.it.wf
  | .snapshotChunk p src i n len crc d => p < 32 && src < 65536 && d.it.dst < 65536 && i < 2 ^ 32 && n < 2 ^ 32 && len ≤ 2 ^ 20 && crc < 2 ^ 32 &&
      d.it.data.length ≤ 2 ^ 20
  | .streamMessage n st d => okSess n && st < 65536 && d.length < 2 ^ 24
  | .engFlkStageAppend _ | .errLogPtrRd _ => true
  | .railSample x => x.nj.length == 6
  | .report c src ctx t => c < 65536 && src < 65536 && ctx < 2 ^ 64 && t < 2 ^ 64
  | .thermalTrip d t | .dieOvertemperature d t => d < 4 && t < 256
  | .eventOverrun src line => src < 65536 && line < 256
  | .ageingMeasurementEnd rs => rs.all fun r => okBlk r.blk
  | .traceRecord r x => okRegion r && (match x.second with
    | none => x.fst.kind != 0x28 && x.fst.kind != 0x29
    | some y => x.fst.kind == 0x28 && y.kind == 0x29)
  | .traceFreeze r => okRegion r
  | .queDescSel r _ => okRegion r
  | .loRegisterRead _ a | .rcFieldRead _ a => okOffset a
  | .glbCdcFlagsClear b _ => b.all okBlk
  | .registerWrite _ a _ => okOffset a
  | .sidebandWrite n bs _ => n < 256 && bs.length < 256
  | .sidebandRead n bs => n.count < 256 && bs.length < 256
  | .sidebandBlockRead n bs => n.count < 256 && bs.length < 256
  | .sidebandRepeatRead n => n.count < 256
  | .powerGoodRise straps _ => straps < 8
  | .resetNFall _ => true
  | .opticalEngineOvertemperature p t => okPort p && t < 256
  | .bulkArgument n t _ d => okSess n && t < 2 ^ 32 && d.it.length < 2 ^ 32
  | .unlistedOpcode op c => op < 65536 && c.wf
  | .sidebandUnlistedCommand c => c < 256
  | .errLog0Read _ => true
  | .resetNRise env => env.regionsFail.all okRegion && env.memFail.all okCtl && env.blocks.all fun b => okBlk b.blk
  | .flashPassThrough image rec x => image.all (fun l => l.length ≤ 2 ^ 26) && rec.all (fun l => l.length ≤ 2 ^ 26) &&
    x.read.all (fun x => x.1 < 2 && x.2.1 + x.2.2 ≤ 2 ^ 29)
  | .moduleStepSeal | .stepVote | .formatChangeEffect | .queueSquash | .snapshotCopy _
  | .automaticRestart | .flockFormation | .deadlock | .eviction | .pauseRoundOne | .wake | .intervalRecordTimer
  | .recordSigned | .chainHeadSave | .sign | .clear | .firstFaultWindow | .firmwareWatchdog | .lockstepDivergence
  | .identityTimeout | .referenceClockLoss | .referenceClockReturn | .islandClockGate | .ageingDue | .now | .summaryTimer
  | .traceTimeTrigger | .force | .disarm | .periodicCapture | .errFirstValidClear | .alertResponse | .powerGoodFall
  | .linkWaitExpiry => true

end Sys2Proof
end

