-- ==== Sys2Proof/Tests/Slice0.lean ====
section
/-! SUPPORT. Tests: ill-formed commands that WellFormed refuses, worked examples of the manual, and for every statement with hypotheses a
state and operands that meet them. The expected values come from the manual or are computed by hand from its rules. -/

namespace Sys2Proof.Tests
open Sys2Proof Sys2Proof.Machine

set_option Elab.async false

/-! ## Small states -/

/-- A powered module that waits READY: one fabric port and the control port are up, one operator session is open. -/
def ready : State :=
  { board := { powerGood := true, resetN := true, firstStart := false }, glb := { mstate := .ready, order := 15 },
    ports := [(0, { st := 2, inUse := true }), (32, { st := 2 })], hci := { sessions := [(0, { isOpen := true, oper := true, next := 1 })] } }

/-- The same module with its job running. -/
def running : State := { ready with glb := { mstate := .running, order := 15, job := true } }

/-- SEAL LAYER and SEAL STEP. -/
def seals : List IWord := [{ op := opSeal, var := 1 }, { op := opSeal, var := 2 }]

/-- A running module whose block 0 has one stage with one body instruction, at a position of its step. -/
def atPos (i : IWord) (at' : Nat) : State :=
  { running with job := { loaded := true, stages := [(0, [{ prog := i :: seals }])] },
                 blocks := [(0, { stages := [(0, { oldest := at', atRest := false })] })] }

/-- A firing of the body instruction, of SEAL LAYER and of SEAL STEP. -/
def fire0 : Fire := { blk := 0, stage := 0, pos := 0 }
def fire1 : Fire := { blk := 0, stage := 0, pos := 1 }
def fire2 : Fire := { blk := 0, stage := 0, pos := 2 }

/-- The firing may happen, and its context satisfies `p`. -/
def may (s : State) (f : Fire) (p : Ctx → Bool) : Bool := (s.ctx? f).any fun c => s.mayFire c && p c

/-- The same, and none of its operands or its destination lies outside its allocation. -/
def mayIn (s : State) (f : Fire) (p : Ctx → Bool) : Bool := may s f fun c => (((s.startFire c).eccUpsets c.b f.ups).strays c).isNone && p c

/-! ## Witnesses: the queue of commands, the tick and encodings -/

theorem wit_pending : ({ ready with pending := [.now, .sign] } : State).pending = .now :: [.sign] := rfl
theorem wit_idle : ready.pending = [] ∧ ready.board.powerGood = true ∧ ready.pwr.busy = false ∧ running.pwr.busy = false ∧
    ({ ready with pwr := { busy := true } } : State).pwr.busy = true ∧ State.reset.pending = [] ∧ State.reset.board.powerGood = false := by decide
/-- The next state of an outcome. -/
def nextOf : Host.Outcome State Fault Refusal → Option State
  | .next t => some t
  | _ => none
theorem wit_next : ready.storesOk = true ∧ (nextOf (step { ready with pending := [.supplyDroop 255, .sign] })).map (·.pending) = some [.sign] ∧
    (nextOf (exec .sign running)).isSome = true := by decide +kernel
theorem wit_powerOff : State.reset.board.powerGood = false ∧ ready.board.powerGood = true ∧
    ({ ready.board with resetN := false } : Board).powerGood = true := by decide

/-- A flit block with every field at its largest value. -/
def bigFlit : Flit :=
  { kind := 255, nak := true, seqd := true, abort := true, seq := 65535, ack := 65535, mgmt := 65534,
    credits := [(3, 31, 255), (3, 31, 255), (3, 31, 255), (3, 31, 255)], som := true, eom := true, lane := 1, vc := 31, sess := 63,
    payload := List.replicate 488 0xFF }
theorem wit_flit_fields : bigFlit.kind < 256 ∧ bigFlit.seq < 65536 ∧ bigFlit.ack < 65536 ∧ bigFlit.mgmt < 65536 ∧ bigFlit.credits.length ≤ 4 ∧
    (∀ c ∈ bigFlit.credits, c.1 < 4 ∧ c.2.1 < 32 ∧ c.2.2 < 256) ∧ bigFlit.lane < 2 ∧ bigFlit.vc < 32 ∧
    (bigFlit.mgmt % 2 = 1 → bigFlit.lane = 0 ∧ bigFlit.vc = 0) ∧ bigFlit.sess < 64 ∧ bigFlit.payload.length ≤ 488 ∧ bigFlit.via = 0 ∧ bigFlit.rx = none ∧
    bigFlit.own = 0 := by decide +kernel
theorem wit_elements : (10 < 11 ∧ ((true : Bool) = true → 10 ≠ FP32) ∧ 15 < 2 ^ widthOf 10) ∧ 0 < 11 ∧
    ((false : Bool) = true → 0 ≠ FP32) ∧ 0xFFFFFFFF < 2 ^ widthOf 0 := by decide
theorem wit_vote : let v : Vote := { step := 1, device := 2, requests := [{ layer := 0xFFFF, role := 255, kind := 255, modules := 1 }],
                                     layers := [{ layer := 0xFFFF, flags := 0xFFFF }] }
    v.flags < 2 ^ 32 ∧ v.modules < 2 ^ 32 ∧ v.ha < 2 ^ 32 ∧ v.hs < 2 ^ 32 ∧ v.live < 2 ^ 64 ∧ v.satFull < 2 ^ 64 ∧ v.nanInf < 2 ^ 64 ∧
    v.requests.length < 2 ^ 32 ∧ v.layers.length < 2 ^ 32 ∧ (∀ r ∈ v.requests, r.layer < 2 ^ 16 ∧ r.role < 2 ^ 8 ∧ r.kind < 2 ^ 8 ∧
      r.density < 2 ^ 32 ∧ r.a < 2 ^ 32 ∧ r.m < 2 ^ 32 ∧ r.modules < 2 ^ 32) ∧
    ∀ l ∈ v.layers, l.layer < 2 ^ 16 ∧ l.flags < 2 ^ 16 ∧ l.w2 < 2 ^ 32 ∧ l.u2 < 2 ^ 32 ∧ l.ring < 2 ^ 32 := by decide
theorem wit_verdict_fields : let v : Verdict := { step := 1, verdict := 255, flags := 255, epoch := 0xFFFFFFFF,
                                                  decisions := [⟨0xFFFF, 255, 255, 255⟩], layers := [(0xFFFF, 255, 0xFFFFFFFF)] }
    v.verdict < 2 ^ 8 ∧ v.flags < 2 ^ 8 ∧ v.epoch < 2 ^ 32 ∧ v.decisions.length < 2 ^ 32 ∧ v.layers.length < 2 ^ 32 ∧
    (∀ d ∈ v.decisions, d.layer < 2 ^ 16 ∧ d.role < 2 ^ 8 ∧ d.kind < 2 ^ 8 ∧ d.value < 2 ^ 8) ∧
    ∀ l ∈ v.layers, l.1 < 2 ^ 16 ∧ l.2.1 < 2 ^ 8 ∧ l.2.2 < 2 ^ 32 := by decide

/-! ## Witnesses: block instructions -/

theorem wit_computing_fires :
    (∀ i ∈ [opMma, opConv, opNorm, opSoftmax, opReduce, opQuant, opDequant, opRng],
      mayIn (atPos { op := i } 0) fire0 (·.i.op == i) = true) ∧
    mayIn (atPos { op := opVec, var := 1 } 0) fire0 (·.i.op == opVec) = true ∧
    (∀ v ∈ [1, 2], mayIn (atPos { op := opRoute, var := v } 0) fire0 (fun c => c.i.op == opRoute && c.i.var == v) = true) := by decide +kernel
/-- A VEC whose source of 64 elements is longer than its allocation. -/
def stray : State :=
  { atPos { op := opVec, var := 1, srcA := ⟨1, 1⟩ } 0 with
      tensors := [(1, { desc := { ext := [64, 1, 1, 1, 1, 1], alen := 64 }, holds := true, filled := [none] })] }
theorem wit_stray : may stray fire0 (fun c => (((stray.startFire c).eccUpsets c.b fire0.ups).strays c) == some (1, 2)) = true := by
  decide +kernel
/-- The same tensor read by a LOSS or a SEND, or written by a RECV. -/
def strayOf (i : IWord) : State :=
  { atPos i 0 with
      tensors := [(1, { desc := { ext := [64, 1, 1, 1, 1, 1], alen := 64 }, holds := true, filled := [none] }), (2, { desc := { base := 64, alen := 4096 }, holds := true })],
      queues := [(5, { ent := qent0 (if i.op == opSend then 0 else 1), grants := [.stage 0 0 0],
                       ready := [{ who := .stage 0 0 0, step := 0, words := [{ cell := 3, word := 1 }], written := true }] })] }
where qent0 (mode : Nat) : QEntry :=
  { qid := 5, toExp := 0, outst := 0, paced := false, cpp := false, mode := mode, cls := 0, item := 1, reserve := 0, credit := 0,
    consumer := some (.stage 0 0), producers := [some (.stage 0 0)], len := 4, period := 0, slack := 0, stream := 18 }
theorem wit_stray_forms : ∀ i ∈ [({ op := opLoss, var := 2, srcA := ⟨1, 1⟩, srcB := ⟨1, 2⟩ } : IWord), { op := opSend, srcA := ⟨1, 1⟩, dst := ⟨2, 5⟩ },
      { op := opRecv, srcA := ⟨2, 5⟩, dst := ⟨1, 1⟩ }],
    may (strayOf i) fire0 (fun c => c.i.op == i.op && ((((strayOf i).startFire c).eccUpsets c.b fire0.ups).strays c).isSome) = true := by decide +kernel
/-- An LOSS with logits in tensor 1 and labels in tensor 2, one of them with the bits given. -/
def lossOf (var label : Nat) : State :=
  ({ atPos { op := opLoss, var := var, srcA := ⟨1, 1⟩, srcB := ⟨1, 2⟩ } 0 with
      tensors := [(1, { desc := { ext := [3, 1, 1, 1, 1, 1], alen := 4096 }, holds := true }), (2, { desc := { base := 64, alen := 4096 }, holds := true })] }
    : State).modBlk 0 fun x => { x with store := writeBytes x.store 64 (le 4 label) }
/-- What the statement about LOSS calls the labels. -/
def labelsOf (s : State) (c : Ctx) : List Index := s.readIndex (s.srcView c c.i.srcB) ((s.srcView c c.i.srcA).ext.getD 0 1)
theorem wit_loss_mse : mayIn (lossOf 2 0) fire0 (fun c => c.i.op == opLoss && c.i.var != 1) = true := by decide +kernel
theorem wit_loss_legal : ∀ l ∈ [0, 0x40000000], mayIn (lossOf 1 l) fire0 (fun c => c.i.op == opLoss && c.i.var == 1 &&
    (firstBad (labelsOf (((lossOf 1 l).startFire c).eccUpsets c.b fire0.ups) c)).isNone) = true := by decide +kernel
theorem wit_loss_illegal : mayIn (lossOf 1 0x40400000) fire0 (fun c => c.i.op == opLoss && c.i.var == 1 &&
    (firstBad (labelsOf (((lossOf 1 0x40400000).startFire c).eccUpsets c.b fire0.ups) c)).isSome) = true := by decide +kernel
/-- A transfer between tensors of 64 elements in one block store, tensor 3 its index. -/
def xferOf (i : IWord) : State :=
  { atPos { i with srcA := ⟨1, 1⟩, dst := ⟨1, 2⟩ } 0 with
      tensors := [(1, { desc := { ext := [64, 1, 1, 1, 1, 1], alen := 4096 } }),
                  (2, { desc := { base := 1024, ext := [64, 1, 1, 1, 1, 1], alen := 4096 } }), (3, { desc := { base := 2048, alen := 4096 } })] }
def copyOf : State := xferOf { op := opVec }
def gatherOf : State := xferOf { op := opGather, srcB := ⟨1, 3⟩ }
def scatterOf : State := xferOf { op := opScatter, srcB := ⟨1, 3⟩ }
/-- A transfer of the operation may fire, it has units, and none of them is barred. -/
def free (s : State) (op : Nat) (at' : State → Ctx → State) (units : State → Ctx → List XUnit) : Bool :=
  may s fire0 fun c => c.i.op == op && c.i.var == 0 &&
    let s₂ := at' ((s.startFire c).eccUpsets c.b fire0.ups) c
    let todo := (units s₂ c).drop (((s.blk c.b).xfer.map (·.cursor)).getD 0)
    !todo.isEmpty && todo.all fun u => ((s₂.takeUp c).barOf fire0.ups u (if u.adds then [] else (s₂.takeUp c).covered todo)).isNone
theorem wit_transfers : let settled (s : State) (c : Ctx) := s.settleNow fire0.ups (s.tref c.i.dst c.rep c.n).t c.n
    free copyOf opVec settled State.copyUnits = true ∧ free gatherOf opGather settled State.gatherUnits = true ∧
    free scatterOf opScatter (fun s _ => s) State.scatterUnits = true ∧
    (∀ s ∈ [copyOf, gatherOf], may s fire0 (fun c => let s₁ := (s.startFire c).eccUpsets c.b fire0.ups
      (s₁.settleBar fire0.ups (s₁.tref c.i.dst c.rep c.n).t c.n).isNone) = true) := by decide +kernel

/-- A queue of a class and mode that holds nothing. -/
def qent (mode cls len : Nat) : QEntry :=
  { qid := 5, toExp := 0, outst := 0, paced := false, cpp := false, mode := mode, cls := cls, item := 1, reserve := 0, credit := 0,
    consumer := some (.stage 0 0), producers := [some (.stage 0 0)], len := len, period := 0, slack := 0, stream := 18 }
/-- A packet in cell 3: its length word and one word of payload. -/
def unit1 : QUnit := { who := .stage 0 0 0, step := 0, words := [{ cell := 3, word := 1 }, { cell := 3, word := 2 }], written := true }
theorem wit_send : let s : State := { atPos { op := opSend, srcA := ⟨1, 1⟩, dst := ⟨2, 5⟩ } 0 with
                                        queues := [(5, { ent := qent 0 0 4, grants := [.stage 0 0 0] })],
                                        tensors := [(1, { desc := { alen := 4096 } })] }
    mayIn s fire0 (·.i.isSend) = true := by decide +kernel
/-- A RECV of queue 5 into tensor 2, of as many elements as said. -/
def recvOf (mode n : Nat) (broken : Bool) : State :=
  { atPos { op := opRecv, srcA := ⟨2, 5⟩, dst := ⟨1, 2⟩ } 0 with
      queues := [(5, { ent := qent mode 0 32, broken := broken, ready := if broken then [] else [unit1] })],
      regions := [(0, { words := [(3 * 16 + 1, { val := 8 }), (3 * 16 + 2, { val := 7 })] })],
      tensors := [(2, { desc := { ext := [n, 1, 1, 1, 1, 1], alen := 4096 } })] }
/-- A RECV may fire on queue 5, and what its units bring compares with the destination as `p` says. -/
def recvs (s : State) (p : Queue → Nat → Nat → Bool) : Bool :=
  mayIn s fire0 fun c => c.i.isRecv &&
    let s₁ := (s.startFire c).eccUpsets c.b fire0.ups
    let s₂ := (structural fire0.ups).foldl (fun s d => s.breakQueue c.i.srcA.queue d) (s₁.settle (s₁.tref c.i.dst c.rep c.n).t c.n)
    (s₂.queue? c.i.srcA.queue).any fun q =>
      p q ((q.ready.take (s₂.recvUnits c q.ent)).flatMap fun u => (s₂.readUnit c.i.srcA.queue q.ent u).1).length (s₂.dstView c).bytes
theorem wit_recv : recvs (recvOf 1 8 false) (fun q n m => !q.broken && q.ent.mode == 1 && n ≤ m) = true ∧
    recvs (recvOf 1 8 true) (fun q _ _ => q.broken) = true ∧ recvs (recvOf 0 1 false) (fun q _ _ => q.ent.mode != 1) = true ∧
    recvs (recvOf 1 1 false) (fun q n m => !q.broken && q.ent.mode == 1 && m < n) = true := by decide +kernel
/-- Block 0 at a step, with its stage at SEAL STEP. -/
def atSeal (n : Nat) : State := (atPos { op := opRng } 2).modBlk 0 fun x => { x with step := n }
theorem wit_seals : may (atPos { op := opRng } 1) fire1 (fun c => c.i.isSealLayer && !((atPos { op := opRng } 1).run c.b c.g.idx).sealFired) = true ∧
    (∀ n ∈ [0, 1], may (atSeal n) fire2 (fun c => c.i.isSealStep && !((atSeal n).blk c.b).sealWait && (atSeal n).othersRest c.b c.g.idx &&
      c.n == n) = true) ∧ (atSeal 0).gov.step = 0 := by decide +kernel
theorem wit_seals_again :
    (let s := (atPos { op := opRng } 1).modRun 0 0 fun r => { r with sealFired := true }
     may s fire1 (fun c => (s.run c.b c.g.idx).sealFired) = true) ∧
    (let s := (atSeal 1).modBlk 0 fun x => { x with sealWait := true }
     may s fire2 (fun c => (s.blk c.b).sealWait) = true) ∧
    let s : State := { atSeal 0 with job := { loaded := true, stages := [(0, [{ prog := { op := opRng } :: seals }, { idx := 1, prog := { op := opRng } :: seals }])] },
                                     blocks := [(0, { stages := [(0, { oldest := 2, atRest := false }), (1, { atRest := false })] })] }
    may s fire2 (fun c => !s.othersRest c.b c.g.idx) = true := by decide +kernel
theorem wit_fires_wait : ready.ctx? fire0 = none ∧ (atPos { op := opRng } 0).ctx? fire1 ≠ none ∧
    may (atPos { op := opRng } 0) fire1 (fun _ => true) = false := by
  refine ⟨rfl, ?_, ?_⟩
  · intro h; cases h
  · decide +kernel
theorem wit_numbers : Number.nan.isNan = true ∧ (Number.fin false 0 0).isZero = true ∧ (Number.fin true 0 0).isZero = true ∧
    (Number.fin false 0 0).sign ≠ (Number.fin true 0 0).sign ∧ (Number.fin false 3 0).isNan = false ∧ (Number.inf true).isNan = false ∧
    ¬ ((Number.fin false 3 0).isZero = true ∧ (Number.inf true).isZero = true) ∧ ([Number.inf true, .nan] : List Number).any Number.isNan = true := by decide

/-! ## Witnesses: layers, steps, the governor and the update engines -/

/-- A time-shared block 0 with layers 3 and 4, one stage at rest for each, its position and first position. -/
def shared (pos pos0 : Nat) : State :=
  { running with
      job := { loaded := true, stages := [(0, [{ layer := 3, prog := seals }, { idx := 1, layer := 4, prog := seals }])],
               rblocks := [(0, { seq := [3, 4], h0 := 4096, half := 4096 })],
               tensors := [(7, { desc := { role := 0, layer := 4, base := 8192, alen := 16384 } })] },
      tensors := [(7, { desc := { role := 0, layer := 4, base := 8192, alen := 16384 } })],
      blocks := [(0, { pos := pos, pos0 := pos0, stages := [(0, {}), (1, {})] })] }
theorem wit_layer_switch :
    (shared 0 1).liveLayer 0 = some 3 ∧ (shared 0 1).issuing = true ∧ ((shared 0 1).blk 0).pos + 1 < ((shared 0 1).blk 0).pos0 + 2 ∧
    (shared 0 1).drained 0 3 = true ∧
    (shared 0 0).liveLayer 0 = some 3 ∧ (shared 0 0).issuing = true ∧ ((shared 0 0).blk 0).pos + 1 < ((shared 0 0).blk 0).pos0 + 2 ∧
    (shared 0 0).drained 0 3 = true ∧ (shared 0 0).prefetchDue 0 7 = true ∧
    ((shared 0 0).barOf {} ((shared 0 0).prefetchUnit 0 7)).isNone = true := by decide +kernel
/-- The same block with the weights in a page of a memory package, not resident. -/
def farWeights : State :=
  let s := shared 0 0
  let w : Desc := { role := 0, layer := 4, tier := 1, alen := 4096 }
  { s with job := { s.job with tensors := s.job.tensors ++ [(8, { desc := w })] }, tensors := s.tensors ++ [(8, { desc := w, holds := true })],
           mem := { pages := [(0, { mapped := true, lp := true })] } }
theorem wit_far_weights : farWeights.prefetchDue 0 7 = true ∧ farWeights.barOf {} (farWeights.prefetchUnit 0 7) = some (.page 0) := by decide +kernel
theorem wit_merge : ({} : TallyRec).hist.length = 32 := by decide
/-- Block 0 with one stage of layer 3 that has fired SEAL LAYER, in a direction, with the blocks its forward destinations have overflowed. -/
def sealed (back : Bool) (past : Nat) : State :=
  { running with
      job := { loaded := true, stages := [(0, [{ layer := 3, backward := back, prog := { op := opRng } :: seals }])] },
      blocks := [(0, { stages := [(0, { oldest := 1, atRest := false, sealFired := true, specStat := { liveBlk := 32, satBlk := past } })] })] }
theorem wit_layer_verdict : (∀ n ∈ [0, 1], (sealed false n).issuing = true ∧ (sealed false n).layerReady 3 false = true ∧
      rateGe n 32 (sealed false n).job.prec.lreplayRate = (n == 1)) ∧
    (sealed true 0).issuing = true ∧ (sealed true 0).layerReady 3 true = true ∧ (sealed true 0).layerReady 3 false = false := by decide +kernel
/-- A module with its step sealed, in a role and with a device identifier. -/
def votes (role device : Nat) : State :=
  { running with drv := { role := role, device := device },
                 job := { loaded := true, flock := { members := [(0, 1), (1, 2)] } },
                 gov := { step := 5, sealedSteps := [5] } }
/-- A message of a type with a payload and its CRC. -/
def msg (type dst : Nat) (payload : List Byte) : DMsg :=
  { type := type, src := 1, dst := dst, payload := payload, pcrc := if payload.isEmpty then 0 else crc32c payload }
theorem wit_step_seal : running.glb.mstate = .running ∧ running.err.stopIssue = false ∧ running.gov.squash = none ∧
    running.gov.step ∉ running.gov.sealedSteps ∧ running.blocksSealed running.gov.step = true ∧
    ({ atSeal 1 with gov := {} } : State).blocksSealed 0 = true ∧ (atSeal 0).blocksSealed 0 = false := by decide +kernel
theorem wit_step_vote : (∀ r ∈ [1, 2, 3], (votes r 1).flockActive = true ∧ (votes r 1).stop.round = 0 ∧ (votes r 1).gov.squash = none ∧
      (votes r 1).gov.step ∈ (votes r 1).gov.sealedSteps ∧ (votes r 1).gov.step ∉ (votes r 1).gov.voted ∧ (votes r 1).shardsDone = true) ∧
    (votes 1 1).isManager = false ∧ (votes 2 0).isManager = true ∧ (votes 3 0).isManager = true := by decide +kernel
theorem wit_vote_accepted : let m := { msg mVote 0 (Vote.payload { step := 5, device := 1 }) with step := 5 }
    (votes 2 0).accepts 0 m mVote = true ∧ (votes 2 0).isManager = true ∧ m.step = (votes 2 0).gov.step ∧ (votes 2 0).flockActive = true := by
  decide +kernel
theorem wit_votes_wait : ({ votes 2 0 with drv := { role := 2, votes := [{ step := 5, device := 1 }] } } : State).ownVotes = none ∧
    ({ votes 2 0 with stop := { round := 1 } } : State).stop.round ≠ 0 := by decide +kernel
/-- A module that awaits the verdict of step 5. -/
def awaits : State := { votes 1 1 with upd := { awaiting := true } }
theorem wit_verdict : ∀ v ∈ [0, 1, 2], let m := { msg mVerdict 1 (Verdict.payload { step := 5, verdict := v, epoch := 1 }) with step := 5 }
    awaits.accepts 0 m mVerdict = true ∧ awaits.flockActive = true ∧ awaits.upd.awaiting = true ∧ m.step = awaits.gov.step ∧
    (readVerdict m).verdict = v := by decide +kernel
/-- A governed pair with one change due and one later. -/
def changing (kind value : Nat) : State :=
  { running with
      job := { govs := [{ layer := 3, role := 1, fmt4 := 9, fmt8 := 4, fmt16 := 1, initial := 1, highest := 2, lowest := 0, sizes := 7, initSize := 1 }] },
      gov := { ks := [(govKey 3 1, { cls := 1, size := 1 })],
               changes := [{ d := ⟨3, 1, kind, value⟩, step := 0 }, { d := ⟨3, 1, kind, value⟩, step := 1 }] } }
theorem wit_change : ∀ k ∈ [1, 2, 3, 4, 5], let s := changing k 1
    (s.gov.changes.filter fun c => c.step ≤ s.gov.step) = [{ d := ⟨3, 1, k, 1⟩, step := 0 }] ∧ (s.policy 3 1).isSome = true ∧
    (find? (govKey 3 1) s.gov.ks).isSome = true := by decide +kernel
theorem wit_change_waits : ({ changing 1 1 with gov := { squash := some (4, 1) } } : State).gov.squash ≠ none := by decide
theorem wit_squash : ∀ v ∈ [1, 2], let s : State := { atPos { op := opRng } 0 with gov := { step := 4, squash := some (4, v) } }
    s.gov.squash = some (4, v) ∧ s.hosting = [0] ∧ ∀ b ∈ s.hosting, (s.blk b).xfer = none := by decide +kernel

/-- An update profile of layer 3. -/
def profile3 : Profile :=
  { layer := 3, opt := 0, sched := 0, nesterov := false, biasCorr := false, lrMult := 0, wd := 0, gscale := 0x3F800000, gclip := 0,
    mu := 0, beta1 := 0, beta2 := 0, eps := 0, tmax := 0 }
/-- A module that owns the master of layer 3, tensor 1 in page 0 of memory, with one shard of it waiting, its gradient poisoned or not. -/
def owner (poison : Bool) : State :=
  let d : Desc := { tier := 1, role := 2, layer := 3, alen := 4096, ext := [64, 1, 1, 1, 1, 1] }
  { running with
      job := { loaded := true, snapFrames := 1, tensors := [(1, { desc := d, pairHead := true }), (2, { desc := d, pairTail := true })],
               folds := [{ fold := 0, members := [0], layers := [{ layer := 3, governing := 1, tensors := [1] }] }],
               flock := { role := 3, profiles := [profile3] } },
      tensors := [(1, { desc := d, holds := true }), (2, { desc := d })],
      mem := { pages := [(0, { mapped := true })] },
      drv := { role := 3 },
      regions := [(0, { work := [{ step := 0, layer := 3, tensor := 1, els := [0, 1], grad := [(0x3F800000, poison), (0, false)] }] })] }
/-- The shard that waits. -/
def shard1 (poison : Bool) : Shard := { step := 0, layer := 3, tensor := 1, els := [0, 1], grad := [(0x3F800000, poison), (0, false)] }
theorem wit_shard_first : ∀ p ∈ [false, true], (owner p).nextShard 0 = some (shard1 p) := by decide +kernel
theorem wit_update_shard : ∀ p ∈ [false, true], let s := owner p; let x := shard1 p
    s.flockActive = true ∧ s.stop.round = 0 ∧ s.gov.squash = none ∧ (s.profile x.layer).isSome = true ∧ (s.fold? x.fold).isSome = true ∧
    let q := s.party x.layer x.tensor; let u := s.seeds 1
    let v := (u.shardBufs q x).foldl (fun s t => s.settleNow {} t x.step) u
    let y := x.part 0 (v.shardRoom q x {}).1
    let s₁ := (v.useUnit {} (v.shardUnit q y)).readGrads 0 (v.keptEls y).length
    u.shardSettleBar q x {} = none ∧ v.shardRoom q x {} = (2, none) ∧ (s₁.readParty q s₁.upd.live y).any (·.2) = p ∧
    ((s.shardBufs q x).all fun t => (s.ten t).later.isNone) = true ∧ (s.shardUnit q x).bar = none ∧
    (((s.shardUnit q x).reads ++ (s.shardUnit q x).writes).all fun a => (s.page (a / 2 ^ 21)).resident) = true ∧
    (s.readParty q s.upd.live x).any (·.2) = p := by decide +kernel
theorem wit_shard_waits : let s : State := { owner false with mem := { pages := [(0, { mapped := true, lp := true })] } }
    s.nextShard 0 = some (shard1 false) ∧
    (let u := s.seeds 1; let q := s.party 3 1
     u.shardSettleBar q (shard1 false) {} = none ∧
     ((u.shardBufs q (shard1 false)).foldl (fun s t => s.settleNow {} t 0) u).shardRoom q (shard1 false) {} = (0, some (.page 0))) := by decide +kernel
/-- The same module with a snapshot copy in progress. -/
def copying : State := { owner false with upd := { snapBusy := true, snapSlot := 1, snapStep := 2 ^ 64 - 1 } }
theorem wit_snapshot_copy : copying.upd.snapBusy = true ∧ copying.inState [.running, .paused] = true ∧ copying.glb.halted = false ∧
    copying.err.stopIssue = false ∧ copying.snapSize ≤ copying.slotBytes ∧
    copying.snapList.drop copying.upd.snapParts.length = [(1, 1)] ∧
    (let l := (copying.sectionUnits 1 (bufOf 1 copying.upd.snapBuf)).drop copying.upd.snapCursor
     (l.flatMap (·.unit.reads)).length = 256 ∧ l.all (fun u => u.unit.bar.isNone && !u.pois && (u.unit.reads.all fun a => (copying.page (a / 2 ^ 21)).resident) &&
       (copying.memBlocks u.unit.reads).all fun b => !copying.mem.poison.contains b) = true) ∧
    ({ copying with job := { copying.job with snapFrames := 0 } } : State).slotBytes < copying.snapSize := by decide +kernel
/-- Without upsets nothing fails on a link. -/
theorem wit_no_upsets (b : Nat) : wrDead {} b = false ∧ crcFails {} b < 4 := ⟨rfl, by show 0 < 4; decide⟩

/-! ## Witnesses: Drover and the flock -/

theorem wit_messages : ∀ ty ∈ [mHead, mGrant, mGrad, mParam, mRing, mRingFinal, mVote, mVerdict, mFault, mStop, mRestart, mRestartAck, mForm,
      mFormAck, mProbe, mProbeReply, mFormed],
    let s := owner false
    let m : DMsg := { type := ty, fold := if msgOfFold ty then 0 else 0xFF }
    let mine (m : DMsg) : Bool := m.mcast || m.dst == s.drv.device
    (s.portUp 0 = true ∧ s.glb.halted = false) ∧ s.badMsg { m with rsv := 1 } = true ∧ s.badMsg { m with fold := if msgOfFold ty then 1 else 0 } = true ∧
    (s.badMsg m = false ∧ mine { m with dst := 9 } = false) ∧ (mine m = true ∧ payloadOk { m with pcrc := 1 } = false) ∧
    (payloadOk m = true ∧ (({ s with drv := { s.drv with epoch := 1 } } : State).stale m = true ↔ ty ∈ [mHead, mGrant, mGrad, mParam, mRing, mRingFinal])) := by
  decide +kernel
/-- A worker of a tier-1 flock whose control tree has one edge. -/
def treeMember : State :=
  { running with drv := { role := 1, device := 3 }, job := { loaded := true, flock := { role := 1, members := [(0, 5), (3, 6), (9, 7)], ctrlTree := [0] } } }
theorem wit_formed_goes_on : let m := { msg mFormed 9 [] with src := 0 }; let s := treeMember
    s.badMsg m = false ∧ s.gone 0 m = false ∧ m.dst ≠ s.drv.device ∧ s.treeBound m = true ∧ (∃ p ∈ s.job.flock.ctrlTree, p ≠ 5) ∧
    s.treeBound { m with type := mVote } = false := by decide +kernel
theorem wit_halted : ({ running with glb := { running.glb with halted := true } } : State).portUp 0 = true := by decide

/-- The owner of the master as a member of a tier-1 flock that fills the accumulator of layer 3: its bucket 0 is full, and device 7 or the
module itself owns the elements. -/
def filler (other poison : Bool) : State :=
  let s := owner false
  let acc : Desc := { role := 1, layer := 3, clr := true, master := 1, base := 4096, abase := 4096, alen := 4096, ext := [64, 1, 1, 1, 1, 1] }
  let own (d : Desc) : Desc := if other then { d with owner := 3 } else d
  { s with
      job := { s.job with owners := [(3, [7])],
                          tensors := (s.job.tensors.map fun e => (e.1, { e.2 with desc := own e.2.desc })) ++ [(5, { desc := acc })] },
      tensors := s.tensors ++ [(5, { desc := acc, cleared := 1 })],
      blocks := [(0, { storePoison := if poison then [512] else [] })] }
theorem wit_bucket : ∀ p ∈ [false, true], let s := filler true p
    s.flockActive = true ∧ s.stop.round = 0 ∧ s.gov.squash = none ∧ (s.foldOfLayer 3).isSome = true ∧
    (s.fullBucket 3 0 == some { step := 0, acc := 5, tensor := 1, first := 0, count := 64 }) = true ∧
    ((List.range 64).any fun k => ((s.eccUpsets 0 {}).elem ((s.eccUpsets 0 {}).liveView 5) k).pois) = p ∧
    (s.segments 1 0 64).all (fun sp => s.ownerOf 1 sp.1 != s.drv.device) = true ∧ s.segments 1 0 64 ≠ [] := by decide +kernel
/-- A message of fold 0 for bucket 0 of layer 3. -/
def foldMsg (type first count : Nat) (payload : List Byte) : DMsg :=
  { msg type 0 payload with fold := 0, layer := 3, first := first, count := count, tensor := 1 }
theorem wit_head : let s := filler false false; let m := foldMsg mHead 0 0 []
    s.accepts 0 m mHead = true ∧ s.flockActive = true ∧ s.stop.round = 0 ∧ s.drv.waitHeads = [] ∧
    m.epoch ≤ s.drv.epoch ∧ (s.joinEntry m.fold m.step m.epoch m.layer m.chunk m.src).isSome = true ∧
    s.accepts 0 { m with epoch := 1 } mHead = true ∧ s.drv.epoch < 1 := by decide +kernel
theorem wit_grant : let s : State := { filler false false with
                      drv := { role := 3, outHeads := [{ step := 0, epoch := 0, layer := 3, chunk := 0, fold := 0, owner := 1,
                                                         grads := [foldMsg mGrad 0 64 []], sent := true }] } }
    let m := foldMsg mGrant 0 0 []
    s.accepts 0 m mGrant = true ∧ s.flockActive = true ∧ s.stop.round = 0 ∧
    (s.drv.outHeads.find? fun h => h.sent && h.fold == m.fold && h.owner == m.src && h.step == m.step && h.layer == m.layer &&
      h.chunk == m.chunk && h.epoch == m.epoch).isSome = true := by decide +kernel
/-- The entry of bucket 0 of layer 3, and the module that holds it. -/
def entry3 (seen : List (Nat × Nat)) (poison : Bool) : Reorder :=
  { step := 0, epoch := 0, layer := 3, chunk := 0, fold := 0, tensor := 1, first := 0, count := 64, tier1 := true,
    acc := (0x3F800000, poison) :: List.replicate 63 (0x3F800000, false), seen := seen }
def holder (flocks : Nat) (seen : List (Nat × Nat)) (poison : Bool) : State :=
  let s := filler false false
  { s with drv := { role := 3, reorder := [entry3 seen poison] }, job := { s.job with flock := { s.job.flock with flocks := flocks } } }
theorem wit_grad : let s := holder 1 [] false; let m := foldMsg mGrad 0 64 []
    s.accepts 0 m mGrad = true ∧ s.flockActive = true ∧ (s.fold? m.fold).isSome = true ∧
    s.entry? m.step m.epoch m.layer m.chunk = some (entry3 [] false) ∧ (m.first, m.src) ∉ (entry3 [] false).seen ∧
    (holder 1 [(0, 1)] false).entry? m.step m.epoch m.layer m.chunk = some (entry3 [(0, 1)] false) ∧
    (m.first, m.src) ∈ (entry3 [(0, 1)] false).seen := by decide +kernel
theorem wit_segment : ([{ num := Number.zero }] : List Val)[0]? = some { num := Number.zero } ∧ (entry3 [] false).first ≤ 63 ∧
    63 + 0 - (entry3 [] false).first < (entry3 [] false).acc.length := by decide
theorem wit_ring : ∀ p ∈ [false, true], let s := holder 2 [] p
    s.flockActive = true ∧ s.stop.round = 0 ∧ s.entry? 0 0 3 0 = some (entry3 [] p) ∧ (entry3 [] p).tier1 = true ∧
    s.ringChunkAt (entry3 [] p) 0 = some 0 ∧ s.ringChunkAt (entry3 [] p) 32 = some 1 ∧ s.ringPoison (entry3 [] p) 0 = p ∧
    s.ringPoison (entry3 [] p) 1 = false ∧ s.ringLast 0 = false ∧ s.ringLast 1 = true ∧
    ∀ f ∈ [0, 32], s.accepts 0 (foldMsg mRing f 32 []) mRing = true ∧ s.accepts 0 (foldMsg mRingFinal f 32 []) mRingFinal = true := by
  decide +kernel
theorem wit_ring_goes_on : ((holder 2 [] false).flockIdx + 1) % 2 ≠ (1 + 2 - 1) % 2 ∧ (holder 2 [] false).flocksN = 2 := by decide
theorem wit_param : ∀ far ∈ [false, true], let s : State := { holder 1 [] false with mem := { pages := [(0, { mapped := true, lp := far })] } }
    let m := foldMsg mParam 0 2 [0, 0, 0, 0, 0, 0, 0, 0]
    s.accepts 0 m mParam = true ∧ s.flockActive = true := by decide +kernel
theorem wit_param_gone : let m := foldMsg mParam 0 2 [0, 0, 0, 0, 0, 0, 0, 0]; let s := holder 1 [] false
    ∀ l ∈ [[], [DMsgBytes m]], let t : State := { s with ports := [(0, { st := 2, sentOn := l })] }
      t.accepts 0 m mParam = true ∧ t.flockActive = true ∧ t.gone 0 m = (l != []) := by decide +kernel
/-- A module that holds a working copy, tensor 8 in a page of memory, of the master of layer 3, tensor 1. -/
def copyHolder (far : Bool) : State :=
  let s := owner false
  let d : Desc := { tier := 1, role := 0, layer := 3, alen := 4096, ext := [64, 1, 1, 1, 1, 1], base := 8192, abase := 8192 }
  { s with job := { s.job with tensors := s.job.tensors ++ [(8, { desc := d, pairHead := true }), (9, { desc := d, pairTail := true })] },
           tensors := s.tensors ++ [(8, { desc := d, holds := true }), (9, { desc := d })],
           mem := { pages := [(0, { mapped := true, lp := far })] } }
theorem wit_param_stored : ∀ far ∈ [false, true], let u := copyHolder far
    let m := foldMsg mParam 0 2 [0, 0, 0, 0, 0, 0, 0, 0]
    (u.copiesOf m.layer m.tensor)[m.hop]? = some 8 ∧
    (let t := bufOf 8 (u.paramBuf m.step); let v := u.settleNow {} t m.step; let w := v.liveView t; let n := unitSize w.d
     u.settleBar {} t m.step = none ∧ v.copyStart w m.layer m.tensor m.hop m.first = some 0 ∧
     v.firstSpan {} w (v.unreadBlocks (v.paramUnit w (0, m.count))) (cutSpan n (m.count / n + 1) (0, m.count)) =
       if far then some (0, .page 0) else none) := by decide +kernel

/-- A module in a role, with a second member and a control tree, and its formation state. -/
def member (role form : Nat) (st : ModState) : State :=
  { running with glb := { mstate := st, order := 14, job := true },
                 drv := { role := role, form := form, device := if role = 1 then 1 else 0, restartMax := 3,
                          faultSent := st == .faulted },
                 job := { loaded := true, flock := { role := role, members := [(0, 5), (1, 6)], ctrlTree := [0] } } }
theorem wit_fault : let m := msg mFault 0 [1, 0xC4]
    (∀ r ∈ [2, 3], (member r 2 .running).accepts 0 m mFault = true ∧ (member r 2 .running).isVerdictManager = true ∧
      (member r 2 .running).drv.faultSent = false ∧ (member r 2 .faulted).accepts 0 m mFault = true ∧ (member r 2 .faulted).drv.faultSent = true) ∧
    ({ member 2 2 .running with job := { flock := { flocks := 2 } } } : State).isVerdictManager = false ∧
    (∀ st ∈ [ModState.running, .paused, .faulted], (member 1 2 st).accepts 0 { msg mStop 0 [1, 0xC4, 2, 0] with mcast := true } mStop = true) := by
  decide +kernel
theorem wit_stop_gone : let m : DMsg := { msg mStop 0 [1, 0xC4, 2, 0] with mcast := true }
    (∀ st ∈ [ModState.running, .paused, .faulted], (member 1 2 st).gone 0 m = false) ∧
    ∃ p ∈ (member 1 2 .running).job.flock.ctrlTree, p ≠ 5 := by decide +kernel
theorem wit_lost : 1 ∈ ({ member 3 2 .running with drv := { role := 3, voteFrom := some 0 } } : State).awaited 0x04 ∧
    0 ∈ (awaits.awaited 0x05) ∧ (∀ d ∈ awaits.awaited 0x05, 0 ≤ d) ∧ (member 3 1 .starting).awaited 0x06 = [1] ∧
    (member 3 1 .starting).glb.mstate = .starting ∧ awaits.glb.mstate = .running ∧
    ({ running with drv := { outHeads := [{ step := 0, epoch := 0, layer := 3, chunk := 0, fold := 0, owner := 1, grads := [], sent := true }] } }
      : State).awaited 0x02 = [1] := by decide +kernel
theorem wit_restart : (member 3 2 .faulted).isVerdictManager = true ∧ (member 3 2 .faulted).glb.mstate = .faulted ∧
    (member 3 2 .faulted).glb.job = true ∧ (member 3 2 .faulted).glb.trip = none ∧ (member 3 2 .faulted).board.gated = false ∧
    (member 3 2 .faulted).drv.faultSent = true ∧ (member 3 2 .faulted).drv.restartsUsed < (member 3 2 .faulted).drv.restartMax ∧
    (member 3 2 .faulted).drv.restartFrom = none ∧ (member 3 2 .faulted).drv.restartSeen = false ∧ (member 3 2 .faulted).pwr.state = 0 ∧
    (member 3 2 .faulted).drv.restartOver = false ∧
    (let s := member 3 2 .faulted; let slot := if s.upd.anyDone then s.upd.newest else 0xFF
      (s.slotChecked (s.slotUpsets slot) slot).2 = none) := by
  decide +kernel
theorem wit_restart_worker : let m := { msg mRestart 1 [0xFF, 1, 0, 0, 0] with mcast := true }
    (∀ st ∈ [ModState.faulted, .running, .ready], (member 1 2 st).accepts 0 m mRestart = true) ∧ (member 1 2 .faulted).drv.role ≠ 2 ∧ (member 1 2 .faulted).drv.role ≠ 3 ∧
    (member 1 2 .faulted).glb.job = true ∧ (member 1 2 .faulted).glb.trip = none ∧ (member 1 2 .faulted).board.gated = false ∧
    ((member 1 2 .faulted).slotChecked {} (leAt m.payload 0 1)).2 = none := by decide +kernel
/-- A verdict manager that waits for the answers to its RESTART, its own and perhaps that of device 1. -/
def restarting (acks : List Nat) : State :=
  { member 3 2 .running with drv := { role := 3, restartFrom := some 0, restartAcks := acks } }
theorem wit_restart_ack : (∀ r ∈ [0, 3], (restarting []).accepts 0 (msg mRestartAck 0 [r]) mRestartAck = true) ∧ (restarting []).isManager = true ∧
    (restarting []).restartAwaited = [0, 1] ∧ (restarting [0]).restartAwaited = [1] ∧ (restarting [0]).drv.restartFrom ≠ none := by decide +kernel
theorem wit_formation : (∀ r ∈ [1, 3], ∀ f ∈ [0, 2], let s : State := { member r f .starting with glb := { mstate := .starting, order := 13 } }
      s.glb.mstate = .starting ∧ s.glb.order = 13 ∧ s.portsReady = true ∧ (s.isManager = true ↔ r = 3)) ∧
    ((member 1 0 .starting).accepts 0 { msg mForm 1 [1, 2] with mcast := false } mForm = true ∧ (member 1 0 .starting).drv.role ≠ 0) ∧
    (∀ n ∈ [6, 7], let m := msg mFormAck 0 (List.replicate 16 0 ++ le 16 n ++ [0, 0] ++ le 32 0)
      let s : State := { member 3 1 .starting with drv := { role := 3, form := 1, formNonce := List.replicate 16 0 } }
      s.accepts 0 m mFormAck = true ∧ s.drv.form = 1 ∧ s.isManager = true ∧ s.drv.phase = 0 ∧ m.src ∈ s.otherMembers ∧
      slice m.payload 0 16 = s.drv.formNonce ∧ ((m.src, leAt m.payload 16 16) ∈ s.job.flock.members ∧ leAt m.payload 34 32 = s.job.agree ↔ n = 6)) ∧
    (member 1 1 .starting).accepts 0 (msg mProbe 1 []) mProbe = true ∧
    (let s : State := { member 3 1 .starting with drv := { role := 3, probes := [{ device := 1, t1 := some 0 }] } }
     s.accepts 0 (msg mProbeReply 0 (List.replicate 16 0)) mProbeReply = true ∧
     (s.drv.probes.find? fun p => p.device == 1) = some { device := 1, t1 := some 0 }) ∧
    let m := { msg mFormed 1 [4, 0, 0, 0, 0, 0, 0, 0] with src := 0 }
    (member 1 1 .starting).accepts 0 m mFormed = true ∧ (member 1 1 .starting).drv.role = 1 ∧ (member 1 1 .starting).drv.form = 1 ∧
    m.src = (member 1 1 .starting).managerDev ∧ (member 1 1 .starting).glb.order = 14 := by decide +kernel

/-! ## Witnesses: queues -/

/-- Block 0 with a SEND to queue 5 that may ask. -/
def sender : State := { atPos { op := opSend, srcA := ⟨1, 1⟩, dst := ⟨2, 5⟩ } 0 with queues := [(5, { ent := qent 1 0 4 })] }
/-- An ingress queue with a stream that has a message waiting. -/
def inward : State := { running with queues := [(5, { ent := qent 1 1 3 })],
                                     hci := { running.hci with streams := [(0, { sess := 0, queue := 5, topen := 0, waiting := [[1, 2, 3]] })] } }
theorem wit_request : (sender.sendAsks 5 0 0 0).isSome = true ∧ (sender.queue? 5).map (·.asked (.stage 0 0 0)) = some false ∧
    (inward.streamOf 5).isSome = true ∧ ((inward.streamOf 5).map fun x => x.2.waiting[({ ent := qent 1 1 3 } : Queue).waits .ingress]?) = some (some [1, 2, 3]) ∧
    let s : State := { running with drv := { packets := [(5, 0, [1]), (5, 1, [2])] }, queues := [(5, { ent := qent 1 0 1 })] }
    (s.drv.packets.filter fun x => x.1 == 5)[({ ent := qent 1 0 1 } : Queue).waits (.drover 0)]? = some (5, 0, [1]) := by decide +kernel
/-- Queue 5 with a first request, its credit as said, in a module with free cells. -/
def asking (who : Requester) (credit : Nat) : State :=
  { inward with
      regions := [(0, { free := [1, 2, 3, 4] })],
      queues := [(5, { ent := { qent 1 1 3 with credit := credit, outst := 8 }, reqs := [{ who := who, step := 0, amount := 3 }] })] }
theorem wit_grants : ∀ w ∈ [Requester.stage 0 0 0, .ingress], (asking w 8).glb.halted = false ∧ (asking w 8).inState [.ready, .running, .paused] = true ∧
    ((asking w 8).queue? 5).map (fun q => q.reqs.map (·.who)) = some [w] ∧
    ((asking w 8).queue? 5).map (fun q => (asking w 8).grantBar q { who := w, step := 0, amount := 3 }) = some none ∧
    ((asking w 0).queue? 5).map (fun q => (asking w 0).grantBar q { who := w, step := 0, amount := 3 }) = some (some 1) := by decide +kernel
/-- An egress queue with one packet, written in a closed cell or visible, its payload word poisoned or not. -/
def outward (visible poison : Bool) : State :=
  { running with
      queues := [(5, { ent := qent 1 2 8, units := if visible then [] else [unit1], ready := if visible then [unit1] else [] })],
      regions := [(0, { ctl := [(3, { closed := true, fill := 2 })],
                        words := [(3 * 16 + 1, { val := 8 }), (3 * 16 + 2, { val := 7, pois := poison })] })] }
/-- Queue 5 with a first request of block 0 for step 1 behind a gate for step 0, which step the block has reached or not; queue 6 with a
request of block 1, whose turn comes first or not. -/
def gated (step turn : Nat) : State :=
  { running with
      job := { loaded := true, stages := [(0, [{ prog := { op := opSend, dst := ⟨2, 5⟩ } :: seals }])] },
      blocks := [(0, { step := step, stages := [(0, { atRest := false })] })],
      regions := [(0, { free := [1, 2, 3, 4], turn := turn })],
      queues := [(5, { ent := { qent 1 0 3 with credit := 8, outst := 8 }, reqs := [{ who := .stage 0 0 0, step := 1, amount := 3 }] }),
                 (6, { ent := { qent 1 0 3 with qid := 6, credit := 8, outst := 8 }, reqs := [{ who := .stage 1 0 0, step := 0, amount := 3 }] })] }
theorem wit_gate_and_turn : (∀ n ∈ [0, 1], ((gated n 0).queue? 5).map (fun q => (q.broken, q.gate, (gated n 0).gateAdmits q { who := .stage 0 0 0, step := 1, amount := 3 })) =
      some (false, 0, n == 1)) ∧
    (let u := (gated 1 0).gateOpens 5; u.hasTurn (qRegion 5) (.stage 0 0 0) = true ∧ u.hasTurn (qRegion 6) (.stage 1 0 0) = false ∧
      (u.queue? 5).map (fun q => (q.gate, u.grantBar q { who := .stage 0 0 0, step := 1, amount := 3 })) = some (1, none)) ∧
    (let u := (gated 1 1).gateOpens 5; u.hasTurn (qRegion 5) (.stage 0 0 0) = false ∧ u.hasTurn (qRegion 6) (.stage 1 0 0) = true) := by decide +kernel
theorem wit_visible : (outward false false).visibleNow 5 { ent := qent 1 2 8, units := [unit1] } = [unit1] ∧
    (outward false false).queue? 5 = some { ent := qent 1 2 8, units := [unit1] } := by decide +kernel
theorem wit_egress : ∀ p ∈ [false, true], let s := outward true p; let q : Queue := { ent := qent 1 2 8, ready := [unit1] }
    s.queue? 5 = some q ∧ q.ent.cls = 2 ∧ q.broken = false ∧ (s.port 32).st = 2 ∧ s.err.stopIssue = false ∧
    (q.ready.takeWhile fun u => u.first != q.mark0) = [unit1] ∧ (s.readUnit 5 q.ent unit1).2 = [p] ∧
    structural { queue := [(2, 0)] } ≠ [] := by decide +kernel
theorem wit_timeout : let s : State := { running with queues := [(5, { ent := qent 1 0 4, tail := { cell := 1 } })] }
    (s.queue? 5).map (fun q => (q.toFlag, s.queueWaits 5 q)) = some (false, true) := by decide +kernel
theorem wit_deadlock : running.glb.mstate = .running ∧ running.err.stopIssue = false ∧ running.externalWait = false ∧ running.stuck = [] ∧
    let s : State := { atPos { op := opRecv, srcA := ⟨2, 5⟩, dst := ⟨1, 2⟩ } 0 with queues := [(5, { ent := qent 1 0 4 })] }
    s.glb.mstate = .running ∧ s.err.stopIssue = false ∧ s.externalWait = false ∧ s.stuck = [(0x01, 0, 0, 5)] ∧ s.pending = [] ∧
      s.board.powerGood = true := by decide +kernel

/-! ## Witnesses: memory -/

/-- Page 9 lies in LPDDR5X and is asked for; page 8 in a stack. -/
def paged : State :=
  { running with job := { loaded := true, migLow := 1000000, migHigh := 1000001 },
                 mem := { pages := [(8, { mapped := true, ctl := 0, frame := 3 }), (9, { mapped := true, lp := true, ctl := 16, frame := 2 })],
                          requests := [{ page := 9, region := 1, since := 0 }] } }
theorem wit_migration : (paged.mem.requests.find? fun x => x.page == 9 && x.region == 1) = some { page := 9, region := 1, since := 0 } ∧
    paged.bringing = true ∧ (paged.page 9).mapped = true ∧ (paged.page 9).resident = false ∧ (paged.page 9).moving = false ∧
    paged.movesIn 1 < paged.job.migConc ∧ paged.firstFrame (upOrder 1) = some (4, 0) := by decide +kernel
/-- Every frame of every stack. -/
@[irreducible] def allFrames : List (Nat × Nat) := (List.range 16).flatMap fun c => (List.range hbmFrames).map fun f => (c, f)
theorem no_frame (s : State) (h : s.mem.reserved = allFrames) : s.firstFrame (upOrder 1) = none := by
  have used (c f : Nat) (hc : c < 16) : s.frameFree s.framesUsed c f = false := by
    by_cases hf : f < hbmFrames
    · have hm : (c, f) ∈ s.framesUsed := by
        unfold State.framesUsed
        rw [List.mem_append, h]
        unfold allFrames
        exact .inr (List.mem_flatMap.mpr ⟨c, List.mem_range.mpr hc, List.mem_map.mpr ⟨f, List.mem_range.mpr hf, rfl⟩⟩)
      simp [State.frameFree, hm]
    · simp [State.frameFree, isHbm, hc, hf]
  have low (c : Nat) (hc : c < 16) : ∀ n f, s.lowFrame s.framesUsed c n f = none := by
    intro n
    induction n with
    | zero => intro f; rfl
    | succ n ih => intro f; simp only [State.lowFrame, used c f hc]; exact ih (f + 1)
  have h16 : ∀ c ∈ upOrder 1, c < 16 := by decide
  simp only [State.firstFrame, List.findSome?_eq_none_iff]
  intro c hc
  simp only [State.freeFrame, low c (h16 c hc), Option.map_none]
def crowded : State := { paged with mem := { paged.mem with reserved := allFrames } }
theorem wit_no_frame : crowded.firstFrame (upOrder 1) = none := no_frame crowded rfl
theorem wit_move : let s : State := { paged with mem := { paged.mem with moves := [{ page := 9, up := true, ctl := 4, frame := 0, since := 0, region := 1 }] } }
    let old := frameBase (s.page 9).ctl (s.page 9).frame; let new := frameBase 4 0
    (s.mem.moves.find? fun m => m.page == 9) = some { page := 9, up := true, ctl := 4, frame := 0, since := 0, region := 1 } ∧
    (frameBlocks old).head? = some old ∧ crcFails { crc := [(old, 2), (old, 2)] } old = 4 ∧ crcFails { crc := [(old, 3)] } old = 3 ∧
    (frameBlocks new).head? = some new ∧ wrDead { wr := [(new, 3), (new, 1)] } new = true ∧ wrDead { wr := [(new, 3)] } new = false := by decide +kernel
theorem wit_eviction : paged.migrating = true ∧ paged.job.loaded = true ∧ paged.freeHbm < paged.job.migLow ∧ paged.freeHbm < paged.job.migHigh ∧
    paged.freeHbm + (paged.mem.moves.filter fun m => !m.up).length < paged.job.migHigh ∧
    paged.oldestPage (paged.evictable.filter fun p => paged.movesIn ((paged.page p).ctl / 4) < paged.job.migConc) = some 8 ∧
    (paged.firstFrame (homeOrder false 8)).isSome = true ∧ 0 < paged.job.migConc ∧
    let s : State := { paged with job := { loaded := true } }
    s.migrating = true ∧ s.job.migHigh ≤ s.freeHbm := by decide +kernel
theorem wit_watchdog : ((paged.mem.moves.find? fun m => m.page == 9 && m.up).map (·.region)).or
      ((paged.mem.requests.find? fun x => x.page == 9).map (·.region)) = some 1 := by decide +kernel
theorem wit_temperature : 23 < 24 ∧ 255 < 256 ∧ paged.memOn = true ∧ bandAfter 105 0 = 3 ∧ bandAfter 104 2 = 2 ∧ bandFloor 2 = 95 ∧
    (0 < 2 ∧ bandFloor 2 < 94 + 2 ∧ bandOf 94 < 2) ∧ (0 < 2 ∧ 93 + 2 ≤ bandFloor 2) := by decide +kernel

/-! ## Witnesses: links -/

/-- CRC-32C is a 32-bit number. -/
theorem crc32c_lt (l : List Byte) : crc32c l < 2 ^ 32 := by
  have bit (c : Nat) (h : c < 2 ^ 32) : crcBit c < 2 ^ 32 := by
    unfold crcBit
    have : c >>> 1 < 2 ^ 32 := by rw [Nat.shiftRight_eq_div_pow]; omega
    split
    · exact Nat.xor_lt_two_pow this (by decide)
    · exact this
  have all (l : List Byte) : ∀ c, c < 2 ^ 32 → l.foldl crcByte c < 2 ^ 32 := by
    induction l with
    | nil => intro c h; exact h
    | cons b l ih =>
      intro c h
      refine ih _ ?_
      have : c ^^^ b.toNat < 2 ^ 32 := Nat.xor_lt_two_pow h (by have := b.isLt; omega)
      exact bit _ (bit _ (bit _ (bit _ (bit _ (bit _ (bit _ (bit _ this)))))))
  exact Nat.xor_lt_two_pow (all l _ (by decide)) (by decide)

/-- Bytes written little-endian after a run of known length read back. -/
theorem leAt_after (h : List Byte) (k v : Nat) : leAt (h ++ le k v) h.length k = v % 256 ^ k := by
  have hl : ∀ k v, (le k v).length = k := by
    intro k
    induction k with
    | zero => intro v; rfl
    | succ k ih => intro v; simp [le, ih]
  have ho : ∀ k v, ofLe (le k v) = v % 256 ^ k := by
    intro k
    induction k with
    | zero => intro v; simp [le, ofLe, Nat.mod_one]
    | succ k ih =>
      intro v
      rw [Nat.pow_succ, Nat.mul_comm (256 ^ k) 256, Nat.mod_mul, ← ih]
      rfl
  simp [leAt, slice, List.take_of_length_le, hl, ho]

theorem flit_crc (f : Flit) (h : f.head.length = 508) : crc32c (f.bytes.take 508) = leAt f.bytes 508 4 := by
  have : f.bytes = f.head ++ le 4 (crc32c f.head) := rfl
  rw [this]
  conv => rhs; rw [← h]
  rw [leAt_after, List.take_left' h]
  have := crc32c_lt f.head
  omega

/-- A link that is up and awaits block 7; block 3 is not yet acknowledged. -/
def linked (st resends : Nat) (retrained : Bool) : State :=
  let x : Port := { st := st, inUse := true, e := 7, resends := resends, retrained := retrained, nakPending := true }
  { running with ports := [(0, { x with replay := [{ kind := 1, seqd := true, seq := 3 }] })] }
/-- A whole message of one block. -/
def block (seq : Nat) (nak : Bool) : Flit :=
  { kind := 1, nak := nak, seqd := true, seq := seq, som := true, eom := true, vc := 2, payload := [1, 2, 3] }
theorem wit_blocks : (∀ st ∈ [2, 4], (linked st 0 false).opticsOn = true ∧ ((linked st 0 false).port 0).st = st) ∧
    (∀ p ∈ [(7, false), (8, false), (7, true)], (block p.1 p.2).head.length = 508 ∧
      (readFlit (block p.1 p.2).bytes).nak = p.2 ∧ (readFlit (block p.1 p.2).bytes).seqd = true ∧ (readFlit (block p.1 p.2).bytes).seq = p.1 ∧
      (readFlit (block p.1 p.2).bytes).kind = 1 ∧ (readFlit (block p.1 p.2).bytes).som = true ∧ (readFlit (block p.1 p.2).bytes).eom = true ∧
      (readFlit (block p.1 p.2).bytes).abort = false) ∧
    (((linked 2 0 false).port 0).freeThrough 0).replay ≠ [] ∧ (((linked 2 0 false).port 0).freeThrough 0).resends < 3 := by decide +kernel
theorem wit_bad_block (h : List Byte) (hl : h.length = 508) :
    crc32c ((h ++ le 4 (crc32c h + 1)).take 508) ≠ leAt (h ++ le 4 (crc32c h + 1)) 508 4 := by
  conv => rhs; rw [← hl]
  rw [leAt_after, List.take_left' hl]
  have := crc32c_lt h
  omega
/-- A module between two others: device 9 lies behind port 1. Both links are up, with two credits of the management control lane. -/
def between : State :=
  { running with ports := [(0, { st := 2 }), (1, { st := 2, credits := [(64, 2)] }), (32, { st := 2 })],
                 job := { loaded := true, flock := { routes := [(9, 1)] } } }
/-- A vote for device 9, two blocks long, and its blocks as they come in by port 0. -/
def longVote : DMsg := { type := mVote, src := 3, dst := 9, payload := List.replicate 500 0 }
def inBlock (k : Nat) : Flit := { (cutBlocks (laneFlit 64 0) (DMsgBytes longVote)).getD k { kind := 0 } with seqd := true, seq := k }
/-- The module after the first block, and after both. -/
def halfway : State := between.acceptBlock 0 (inBlock 0)
def through : State := halfway.acceptBlock 0 (inBlock 1)
/-- The data blocks sent on port 1, oldest first: start, end, abort, payload bytes. -/
def onPort1 (s : State) : List (Bool × Bool × Bool × Nat) :=
  s.out.reverse.filterMap fun o => match o with
    | .flit 1 f => if f.kind = 1 then some (f.som, f.eom, f.abort, f.payload.length) else none
    | _ => none
/-- A message starts onward with its first block (R302, R362), its credit returns when the block has left (R361), and the message's own
command then sends nothing more. -/
theorem test_cut_through : onPort1 halfway = [(true, false, false, 488)] ∧ (halfway.port 0).onward = [(64, [1])] ∧
    (halfway.out.any fun o => match o with
      | .flit 0 f => f.credits == [(2, 0, 1)]
      | _ => false) = true ∧
    onPort1 through = [(true, false, false, 488), (false, true, false, 76)] ∧ (through.port 0).onward = [] ∧ through.gone 0 longVote = true ∧
    onPort1 (through.droverIn 0 longVote mVote id) = onPort1 through := by decide +kernel
/-- A message of the module's own waits until the one partway has gone (R362); a message cut off ends with an abort-flagged block (R367). -/
theorem test_partway : ((halfway.post { type := mVote, dst := 9 }).port 1).txq.length = 1 ∧
    (((halfway.post { type := mVote, dst := 9 }).acceptBlock 0 (inBlock 1)).port 1).txq.map (·.som) = [true] ∧
    onPort1 (halfway.linkDown 0 0x06) = [(true, false, false, 488), (false, true, true, 0)] := by decide +kernel
theorem wit_cut_through : between.onwardOf 0 64 (inBlock 0).payload = some [1] ∧ ((between.port 1).st = 2 ∧ between.portUp 0 = true) ∧
    find? 64 (halfway.port 0).onward = some [1] ∧ (halfway.port 1).st = 2 ∧
    between.gone 0 longVote = false ∧ (through.gone 0 longVote = true ∧ through.badMsg longVote = false ∧ longVote.mcast = false ∧ longVote.dst ≠ through.drv.device) := by
  decide +kernel
/-- A drop marker joins the FIFO as soon as a record has left it (R480). -/
theorem test_drop_marker : let t : TraceBuf := { armed := true, fifo := [{ kind := 1 }, { kind := 2 }], dropsSince := 3 }
    ((t.next [{ kind := 2 }] 0x2000 7).fifo.map fun r => (r.kind, r.obj)) = [(2, 0), (0x3F, 3)] ∧ (t.next [{ kind := 2 }] 0x2000 7).dropsSince = 0 := by
  decide
theorem wit_resends : ((linked 2 0 false).port 0).nakPending = true ∧ ((linked 2 0 false).port 0).replay ≠ [] ∧ ((linked 2 2 false).port 0).resends < 3 ∧
    3 ≤ ((linked 2 3 true).port 0).resends ∧ ((linked 2 3 true).port 0).retrained = true ∧ ((linked 2 3 false).port 0).retrained = false := by decide
/-- A port that trains, with what has been seen of its peer. -/
def training (p : Nat) (x : Port) : State := { running with ports := [(p, x)], lnkPorts := 0xFFFFFFFF }
/-- A hello of a module without a job, or of a host. -/
def aHello (kind job : Nat) (heard : Bool) : Hello := { heard := heard, kind := kind, port := 0, serial := 1, job := job, credits := List.replicate 66 2 }
theorem wit_training :
    (∀ st ∈ [1, 3], (training 0 { st := st, signal := true }).opticsOn = true ∧ ((training 0 { st := st, signal := true }).port 0).st = st ∧
      ((training 0 { st := st, signal := true }).port 0).signal = true) ∧
    (∀ p ∈ [0, 31, 32], ∀ h ∈ [false, true], let peer := some (aHello (if p = 32 then 2 else 0) 0 true)
      let s := training p { st := 1, signal := true, locked := true, heard := h, peerHello := peer }
      s.portTrains p = true ∧ (s.port p).st = 1 ∧ (s.port p).locked = true ∧ (s.port p).heard = h ∧ (s.port p).peerHello.isSome = true) ∧
    (aHello 1 0 false).kind ≠ (if 0 = 32 then 2 else 0) ∧ (aHello 0 0 false).job = running.glb.jobId ∧
    (let s : State := { training 0 { st := 1, locked := true } with glb := { running.glb with jobId := 1 } }
     s.portTrains 0 = true ∧ (aHello 0 2 false).job ≠ s.glb.jobId ∧ (aHello 0 2 false).job ≠ 0 ∧ s.glb.jobId ≠ 0) ∧
    (∀ st ∈ [0, 5], (training 0 { st := st }).portTrains 0 = true) ∧
    (∀ a ∈ [2, 3], ((training 0 { st := 3, attempts := a }).port 0).st = 3 ∧ ((training 0 { st := 3, attempts := a }).port 0).attempts = a) := by
  decide +kernel
theorem wit_link_wait : (∀ st ∈ [1, 2], let s : State := { training 5 { st := st, inUse := true } with glb := { mstate := .starting, order := 13 } }
      s.glb.mstate = .starting ∧ s.glb.order = 13 ∧ (s.port 5).inUse = true ∧ (s.port 5).st = st) ∧
    (∀ q, q < 5 → ((training 5 { st := 1, inUse := true }).port q).inUse = false) ∧
    (∀ b ∈ [false, true], ((training 31 { st := 2, inUse := b }).port 31).inUse = b) ∧ running.inState [.running, .paused] = true := by decide +kernel

/-! ## Witnesses: stopping -/

theorem wit_stop_request : running.portUp 0 = true ∧ (0 < 1 ∧ 1 ≤ 3 ∧ 3 ≤ 3) ∧ (1, 4, 9, 7) ∉ running.stop.seen ∧
    (1, 4, 9, 7) ∈ ({ running with stop := { seen := [(1, 4, 9, 7)] } } : State).stop.seen ∧ running.inState [.running, .paused] = true ∧
    let s : State := { running with glb := { running.glb with mstate := .paused } }
    s.portUp 0 = true ∧ s.glb.mstate = .paused ∧ s.glb.halted = false := by decide +kernel
/-- A running module with a pause of device 4, handle 9 in force, in a round. -/
def pausing (round : Nat) (rounds : List Nat) : State :=
  { running with ports := [(0, { st := 2, inUse := true, rounds := rounds })], stop := { id := some (4, 9), round := round } }
theorem wit_pause : (pausing 0 []).portUp 0 = true ∧ (pausing 0 []).glb.halted = false ∧ (pausing 0 []).stop.id = some (4, 9) ∧
    idBefore (4, 10) (4, 9) = false ∧ ((4, 10) : Nat × Nat) ≠ (4, 9) ∧ (pausing 0 []).roundOneReady = true ∧ (pausing 0 []).stop.round = 0 ∧
    (pausing 8 [8]).roundIn = true ∧ (pausing 8 [8]).glb.mstate = .running ∧ (pausing 8 [7]).roundIn = false ∧ (pausing 8 [7]).stop.round ≠ 0 ∧
    (pausing 8 [8]).allVisible = true ∧ ({ pausing 8 [8] with queues := [(5, { ent := qent 1 0 8, units := [unit1] })] } : State).allVisible = false ∧
    ({ pausing 8 [8] with queues := [(5, { ent := qent 1 0 8, units := [unit1] })] } : State).roundIn = true := by
  decide +kernel

/-! ## Witnesses: the host -/

/-- A command of session 0 with inline arguments. -/
def cmd (args : List Byte) (bulk : Nat := 0) : Cmd := { sess := 0, tag := 9, inlineLen := args.length, bulkLen := bulk, args := args }
/-- The command is admitted, and the state after its acknowledgement and its handle satisfy `p`. -/
def adm (s : State) (c : Cmd) (op : Nat) (p : State → Hnd → Bool) : Bool := (s.admitted c op).any fun x => p x.1 x.2
/-- READY with a loaded job, paused, faulted with a job. -/
def readyJob : State := { ready with job := { loaded := true, snapFrames := 2, queues := [(5, qent' 0)] } }
where qent' (k : Nat) : QEntry :=
  { qid := 5, toExp := 0, outst := 1, paced := false, cpp := false, mode := 1, cls := 1, item := 1, reserve := 0, credit := 8,
    consumer := some (.stage 0 0), producers := [some .ingress], len := 3, period := 0, slack := 0, stream := k }
def paused : State := { running with glb := { running.glb with mstate := .paused } }
theorem wit_sessions : ready.hostUp = true ∧ (ready.sess 0).isOpen = true ∧ (ready.sess 63).isOpen = false ∧
    leAt (le 1 1 ++ le 15 0) 0 1 = 1 ∧ 16 ≤ (le 1 1 ++ le 15 0).length ∧ leAt (le 1 1 ++ le 1 1 ++ le 14 0) 1 1 = 1 ∧ 1 < leAt (le 1 1 ++ le 1 2) 1 1 ∧
    ¬ 4 ≤ (ready.openSessions.filter fun n => (ready.sess n).oper).length ∧ headLegal [] = false ∧ headLegal (le 1 3 ++ le 30 0) = false ∧
    let s : State := { ready with hci := { sessions := (List.range 4).map fun n => (n, { isOpen := true, oper := true }) } }
    4 ≤ (s.openSessions.filter fun n => (s.sess n).oper).length := by decide +kernel
/-- The module with input stream 0 open, its counts as said. -/
def streaming (x : Stream) : State := { readyJob with hci := { readyJob.hci with streams := [(0, x)] }, queues := [(5, { ent := readyJob.qent' 0 })] }
theorem wit_withheld : let s := streaming { sess := 0, queue := 5, topen := 0, waiting := [[1]] }
    let t : State := { streaming { sess := 0, queue := 5, topen := 0, withheld := 2 } with ports := [(32, { st := 3 })] }
    (find? 0 s.hci.streams).any (fun x => x.waiting != []) = true ∧
    (find? 0 t.hci.streams).any (fun x => x.waiting == [] && x.withheld != 0) = true ∧ (t.port 32).st ≠ 2 := by decide +kernel
theorem wit_streams :
    adm readyJob (cmd (le 8 16)) 0x70 (fun u _ => (u.streamArg (cmd (le 8 16))).isNone) = true ∧
    adm readyJob (cmd (le 8 0)) 0x70 (fun u _ => (u.streamArg (cmd (le 8 0))).any fun x => x.1 == 0 && !has x.1 u.hci.streams) = true ∧
    adm (streaming { sess := 0, queue := 5, topen := 0 }) (cmd (le 8 0)) 0x70 (fun u _ => has 0 u.hci.streams && (u.streamArg (cmd (le 8 0))).isSome) = true ∧
    adm readyJob (cmd (le 8 0)) 0x71 (fun u _ => (u.streamArg (cmd (le 8 0))).isSome && (find? 0 u.hci.streams).isNone) = true ∧
    (∀ cl ∈ [false, true], ∀ w ∈ [[], [[1, 2, 3]]], let s := streaming { sess := 0, queue := 5, topen := 0, closing := cl, waiting := w }
      adm s (cmd (le 8 0)) 0x71 (fun u _ => (find? 0 u.hci.streams).any fun x => x.closing == cl && x.waiting == w) = true ∧
      (∀ y ∈ s.hci.handles, y.opcode = 0x71 → y.arg ≠ 0)) ∧
    ((streaming { sess := 0, queue := 5, topen := 0 }).queue? 5).map (fun q => q.ent.len) = some [1, 2, 3].length := by decide +kernel
theorem wit_acks :
    (∀ x ∈ hostCommands {}, observerMay x.2 = ([0x01, 0x02, 0x40, 0x50, 0x52, 0x60, 0x7F].contains x.2)) ∧ ready.hostUp = true ∧ snapArgs (cmd (le 8 0)) ≠ some 1 ∧
    snapArgs (cmd (le 8 1)) = some 1 ∧ cmdLegal (cmd (le 8 0)) = true ∧ cmdLegal { cmd (le 8 0) with rsv := 1 } = false ∧ ready.outOf 0 < 64 ∧
    64 ≤ ({ ready with hci := { handles := List.replicate 64 { handle := 1, sess := 0, tag := 0, opcode := 0x01, accepted := 0 } } } : State).outOf 0 ∧
    ready.admits 0x13 = false ∧ (ready.sess 0).oper = true ∧ observerMay 0x10 = false ∧ (ready.sess 1).isOpen = false ∧
    (0x99 ≠ 0x20 ∧ ∀ x ∈ hostCommands {}, x.2 ≠ 0x99) := by decide +kernel
theorem wit_held : (∀ p ∈ [1, 2], ({ ready with pwr := { state := p } } : State).heldAt 32 = true ∧ ({ ready with pwr := { state := p } } : State).hostUp = false) ∧
    ready.heldAt 32 = false := by decide +kernel
/-- TRACE_ARM arguments: regions 0 to 3, with a flag byte. -/
def traceArgs (flags : Nat) : List Byte := le 4 15 ++ le 4 0 ++ le 4 8192 ++ le 4 6 ++ le 8 0 ++ le 8 flags
/-- Frozen or still capturing buffers, and one signed record. -/
def recorded (frozen : Bool) : State :=
  { ready with regions := [(0, { trace := { armed := true, frozen := frozen } })], eng := { recs := [(0, { kind := 2, sig := some 1 })] } }
theorem wit_queries :
    adm ready (cmd []) 0x01 (fun _ _ => true) = true ∧ adm ready (cmd (List.replicate 32 7)) 0x02 (fun _ _ => true) = true ∧
    (adm ready (cmd (le 4 1 ++ le 4 0)) 0x40 (fun _ _ => true) = true ∧ regMapped 0 = true) ∧
    adm ready (cmd (le 4 1 ++ le 4 0 ++ le 4 1)) 0x41 (fun _ _ => true) = true ∧
    (adm ready (cmd (le 4 (2 ^ 18 + 1) ++ le 4 15)) 0x50 (fun _ _ => true) = true ∧ groupsOf (2 ^ 18 + 1) = [0, 18] ∧ (groupSize 0).isSome = true ∧
      (groupSize 18).isSome = true) ∧
    (∀ f ∈ [false, true], adm (recorded f) (cmd (le 4 15)) 0x52 (fun _ _ => true) = true ∧ ((recorded f).rgn 0).trace.armed = true ∧
      ((recorded f).rgn 0).trace.frozen = f ∧ ((recorded f).rgn 1).trace.armed = false) ∧
    (∀ only ∈ [0, 1], adm (recorded true) (cmd (le 8 0 ++ le 4 65536 ++ le 4 only)) 0x60 (fun _ _ => true) = true) ∧
    (∃ e ∈ (recorded true).eng.recs, e.2.sig.isSome = true) ∧
    (∀ f ∈ [0, 2], adm (recorded false) (cmd (traceArgs f)) 0x51 (fun _ _ => true) = true ∧ (traceArgs f).length = 32 ∧ leAt (traceArgs f) 25 7 = 0 ∧
      (readTrace (traceArgs f)).legal = true ∧ bitAt (readTrace (traceArgs f)).flags 1 = (f == 2) ∧ bitAt (readTrace (traceArgs f)).regions 3 = true) := by
  decide +kernel
/-- The same two seconds later: the rails have settled. -/
def calm (s : State) : State := { s with board := { s.board with time := 2000000000 } }
theorem wit_power_state :
    (∀ k ∈ [1, 2, 3], adm (calm ready) (cmd (le 8 k)) 0x30 (fun u h => (u.refuser h ((calm ready).port 32).owesHost).isNone) = true ∧ ready.glb.mstate.permits k = true) ∧
    adm (recorded false) (cmd (le 8 1)) 0x30 (fun u h => u.refuser h ((recorded false).port 32).owesHost == some 4) = true ∧
    adm running (cmd (le 8 1)) 0x30 (fun u h => u.refuser h (running.port 32).owesHost == some 1) = true := by decide +kernel
/-- READY with a block on port 0 that its peer has not acknowledged. -/
def unacked : State := { calm ready with ports := [(0, { st := 2, inUse := true, replay := [{ kind := 2, seqd := true, seq := 1 }] }), (32, { st := 2 })] }
/-- The same, its entry to P2 in progress. -/
def entering (x : Port) (held : Bool) (others : List Hnd) : State :=
  { unacked with ports := [(0, x), (32, { st := 2 })], pwr := { busy := true, target := 2, wakeHeld := held },
                 hci := { unacked.hci with handles := { handle := 7, sess := 0, tag := 9, opcode := 0x30, accepted := 0 } :: others } }
theorem wit_entry :
    adm unacked (cmd (le 8 2)) 0x30 (fun u h => (u.refuser h (unacked.port 32).owesHost).isNone && u.undrained) = true ∧
    adm (calm ready) (cmd (le 8 2)) 0x30 (fun u _ => !u.undrained) = true ∧
    (∀ w ∈ [false, true], let s := entering { st := 2, inUse := true } w []
      s.pending = [] ∧ s.board.powerGood = true ∧ s.pwr.busy = true ∧ s.pwr.target = 2 ∧ (s.outstanding 0x30).map (·.handle) = some 7 ∧
      (s.sess 0).isOpen = true ∧ s.pwr.wakeHeld = w ∧ (s.outstanding 0x30).map s.entryBar = some none ∧ s.undrained = false) ∧
    (let s := entering (unacked.port 0) false []
     (s.outstanding 0x30).map s.entryBar = some none ∧ s.undrained = true ∧ s.glb.mstate ≠ .starting ∧ s.pwr.state = 0) ∧
    (let s := entering (unacked.port 0) false [{ handle := 8, sess := 0, tag := 9, opcode := 0x20, accepted := 0 }]
     (s.outstanding 0x30).map s.entryBar = some (some 6)) ∧
    (let s := entering { st := 2, inUse := true, delivered := [(1, [])] } false []
     (s.outstanding 0x30).map s.entryBar = some (some 2)) ∧
    adm (entering (unacked.port 0) false []) (cmd (le 4 7 ++ le 4 0)) 0x7F (fun u h => (u.target 7).any fun x =>
      x.handle != h.handle && x.opcode == 0x30 && x.sending.isNone) = true := by decide +kernel
/-- An entry goes on in an idle step: it commits once the ports have drained, and a wake that was held ends the state at once (R430). -/
theorem test_entry_commits :
    ((nextOf (step (entering { st := 2, inUse := true } false []))).map fun t => (t.pwr.state, t.pwr.busy, (t.port 0).st)) = some (2, false, 4) ∧
    ((nextOf (step (entering (unacked.port 0) false []))).map fun t => (t.pwr.state, t.pwr.busy)) = some (0, true) := by decide +kernel
/-- An abort before the commit counts against refuser 0x06 (R430). -/
theorem test_entry_aborted : ((nextOf (exec (.abortHandle (cmd (le 4 7 ++ le 4 0))) (entering (unacked.port 0) false []))).map fun t =>
    (t.pwr.busy, t.pwr.lastRefuser, t.pwr.refuse)) = some (false, 6, [0, 0, 0, 0, 0, 1, 0]) := by decide +kernel
/-- READY with a complete slot 0, and a read of its first block that fails for good. -/
def readyBad : State := { readyJob with upd := { slots := [(0, le 4 0x5301 ++ le 2 0 ++ le 2 1 ++ List.replicate 248 0)] } }
def badUps : Upsets := { crc := (readyBad.slotBlocks 0 256).map fun b => (b, 4) }
theorem wit_job_start :
    (∀ k ∈ [0, 1, 0xFF], adm readyJob (cmd (le 8 k)) 0x10 (fun u h =>
      let v := u.setHnd { h with arg := k }
      (({ v with glb := { v.glb with jobStarting := true } } : State).slotChecked {} k).2 == if k = 0xFF then none else some stBad) = true ∧
      (k ≠ 0xFF → slotComplete (readyJob.slot k) = false)) ∧ (readyBad.slotChecked badUps 0).2 = some stJobFault ∧ readyJob.glb.reloadFault = none ∧ readyJob.glb.jobStarting = false ∧
    readyJob.job.loaded = true ∧ ready.job.loaded = false ∧
    (let s : State := { readyJob with glb := { ready.glb with reloadFault := some 0xC401 } }
     adm s (cmd (le 8 0xFF)) 0x10 (fun _ _ => true) = true ∧ s.glb.reloadFault = some 0xC401) ∧
    let s : State := { readyJob with glb := { ready.glb with jobStarting := true } }
    adm s (cmd (le 8 0xFF)) 0x10 (fun _ _ => true) = true := by decide +kernel
theorem wit_job_commands :
    adm running (cmd []) 0x11 (fun _ _ => true) = true ∧ running.stop.id = none ∧
    (∀ s ∈ [running, paused], adm s (cmd []) 0x12 (fun _ _ => true) = true) ∧
    adm paused (cmd []) 0x13 (fun _ _ => true) = true ∧
    (∀ st ∈ [ModState.paused, .faulted], adm { paused with glb := { running.glb with mstate := st } } (cmd []) 0x14 (fun _ _ => true) = true) := by
  decide +kernel
/-- The verdict manager of a job, running or paused. -/
def manager (st : ModState) : State := { readyJob with glb := { ready.glb with mstate := st, job := true }, drv := { role := 3 } }
theorem wit_snapshot_take : ∀ st ∈ [ModState.running, .paused],
    adm (manager st) (cmd (le 8 0)) 0x20 (fun u h => !u.snapRunning h && snapArgs (cmd (le 8 0)) == some 0) = true ∧ (manager st).isVerdictManager = true ∧
    (manager st).nextShipped = false ∧ (manager st).glb.halted = false := by decide +kernel
theorem wit_snapshot_write : ∀ n ∈ [256, 2 ^ 22], adm readyJob (cmd (le 8 1) n) 0x20 (fun u h => !u.snapRunning h) = true ∧
    snapArgs (cmd (le 8 1) n) = some 1 ∧ readyJob.nextShipped = false ∧ n ≤ readyJob.slotBytes := by decide +kernel
/-- READY with a snapshot write that waits for 256 bytes, the first 200 of them come or not. -/
def writing (came : Nat) : State :=
  { readyJob with
      hci := { readyJob.hci with handles := [{ handle := 7, sess := 0, tag := 9, opcode := 0x20, accepted := 0, arg := 1, bulkLen := 256,
                                               bulk := List.replicate came 0 }] } }
theorem wit_bulk : ∀ came ∈ [0, 200], (writing came).hostUp = true ∧ ((writing came).sess 0).isOpen = true ∧
    ((writing came).hci.handles.find? fun h => h.sess == 0 && h.opcode == 0x20 && h.arg == 1).isSome = true ∧
    (List.replicate came (0 : Byte) ++ List.replicate 55 0).length < 256 ∧ (List.replicate came (0 : Byte) ++ List.replicate (256 - came) 0).length = 256 := by
  decide +kernel
/-- A snapshot header of this device for the layout digest 0. -/
def header : List Byte := (le 4 0x5301 ++ le 4 0) ++ le 16 Config.serial.toNat ++ List.replicate 232 0
theorem wit_header : leAt header 0 4 = 0x00005301 ∧ bitAt (leAt header 6 2) 0 = false ∧ leAt header 0x60 32 = 0 ∧ leAt header 0x80 64 = 0 ∧
    header.length = 256 ∧ (∃ b ∈ readyJob.slotBlocks readyJob.nextSlot 256, wrDead { wr := [(b, 4)] } b = true) ∧ leAt header 0x40 32 = readyJob.job.layout ∧
    leAt header 0x40 32 ≠ ({ readyJob with job := { readyJob.job with layout := 1 } } : State).job.layout := by decide +kernel
/-- A slot image with one governor section, which names the format word of tensor 1. -/
def govImage (fw : Nat) : List Byte :=
  (le 4 0x5301 ++ le 4 1) ++ le 16 Config.serial.toNat ++ List.replicate 232 0 ++ (le 4 6 ++ le 4 0 ++ le 8 24) ++
    (le 4 0 ++ le 4 0 ++ le 4 1 ++ le 4 0 ++ le 4 1 ++ le 4 fw)
theorem wit_formats : slotFormats (govImage 0x19) = [(1, 0x19)] ∧ fwLegal 0x19 = true ∧ slotFormats (govImage 0xFFFFFFFF) = [(1, 0xFFFFFFFF)] ∧
    fwLegal 0xFFFFFFFF = false ∧ leAt (govImage 0x19) 0 4 = 0x00005301 ∧ bitAt (leAt (govImage 0x19) 6 2) 0 = false ∧
    leAt (govImage 0x19) 0x60 32 = 0 ∧ leAt (govImage 0x19) 0x80 64 = 0 ∧ leAt (govImage 0x19) 0x40 32 = readyJob.job.layout := by decide +kernel
theorem wit_header_ours : leAt header 8 16 = Config.serial.toNat := by
  have h : leAt header 8 16 = leAt ((le 4 0x5301 ++ le 4 0) ++ le 16 Config.serial.toNat) (le 4 0x5301 ++ le 4 0).length 16 := rfl
  rw [h, leAt_after]
  exact Nat.mod_eq_of_lt Config.serial.isLt
/-- READY with a complete slot 0 of a little more than one chunk. -/
def shipper : State :=
  { readyJob with upd := { slots := [(0, le 4 0x5301 ++ le 2 0 ++ le 2 1 ++ List.replicate 600 0)] }, job := { readyJob.job with flock := { routes := [(7, 0)] } } }
theorem wit_ship : slotComplete (shipper.slot 0) = true ∧ (∀ k ∈ [0, 0xFF], ∀ d ∈ [0, 1],
    adm shipper (cmd (le 1 k ++ le 1 d ++ le 2 7 ++ le 4 0)) 0x21 (fun u _ => !(u.readSlot {} 0).2) = true ∧
    adm shipper (cmd (le 1 k ++ le 1 d ++ le 2 7 ++ le 4 0)) 0x21 (fun u _ => (u.readSlot { crc := (shipper.slotBlocks 0 1).map fun b => (b, 4) } 0).2) = true ∧
    shipper.shipSlot k = some 0) ∧ shipper.shipping = false ∧
    (∃ r ∈ shipper.job.flock.routes, r.1 = 7) := by decide +kernel
theorem wit_chunk : readyJob.portUp 0 = true ∧ readyJob.upd.snapBusy = false ∧ readyJob.nextShipped = false ∧ readyJob.hci.handles = [] ∧
    [(1 : Byte)].length ≤ chunkSize ∧ 3 < 4 ∧ 4 * chunkSize ≤ readyJob.slotBytes ∧ 7 ≠ shipper.drv.device ∧ shipper.portUp 0 = true ∧
    (∃ b ∈ readyJob.chunkBlocks readyJob.nextSlot 3 1, wrDead { wr := [(b, 4)] } b = true) := by decide +kernel
theorem wit_abort :
    adm (writing 0) (cmd (le 4 7 ++ le 4 0)) 0x7F (fun u h => (u.target 7).any fun x => x.handle != h.handle &&
      ((u.setHnd { h with arg := x.handle }).abortNow x).isSome) = true ∧
    (let s : State := { running with hci := { running.hci with handles := [{ handle := 7, sess := 0, tag := 9, opcode := 0x71, accepted := 0 }] } }
     adm s (cmd (le 4 7 ++ le 4 0)) 0x7F (fun u h => (u.target 7).any fun x => ((u.setHnd { h with arg := x.handle }).abortNow x).isNone) = true) ∧
    let s : State := { ready with hci := { sessions := [(0, { isOpen := true, oper := true, next := 5, remembered := [(1, stDone)] })] } }
    adm s (cmd (le 4 1 ++ le 4 0)) 0x7F (fun u h => (u.target 1).isNone && h.handle != 1 &&
      (find? 1 (u.sess (1 / 2 ^ 26)).remembered == some stDone)) = true := by decide +kernel

/-! ## Witnesses: power, energy, errors, ageing -/

theorem wit_wake : (∀ p ∈ [1, 2, 3], let s : State := { ready with pwr := { state := p } }
      s.board.powerGood = true ∧ s.glb.mstate ≠ .off ∧ s.pwr.state ≠ 0 ∧ s.pwr.busy = false ∧ s.openSessions = [0]) ∧ ready.pwr.state = 0 ∧
    ([some 5, none, some 0, none, none, some 1] : List (Option Nat)).length = 6 ∧ ready.eng.acc.length = 6 ∧ ready.eng.frac.length = 6 ∧
    ready.eng.lastSample.length = 6 ∧ ready.eng.missing.length = 6 ∧ ready.hci.held = [] ∧ ready.eng.lost = false ∧ ({ ready with eng := { lost := true } } : State).eng.lost = true ∧
    ({ ready with pwr := { state := 2 }, hci := { ready.hci with held := [.identify (cmd [])] } } : State).hci.held ≠ [] := by decide +kernel
theorem wit_rails : (∀ d ∈ [0, 1], ({ ready with pwr := { state := 2 } } : State).railOff d = true ∧
      ({ ready with pwr := { state := 2 }, job := { retain := true }, regions := [(0, { powered := true })] } : State).railOff d = false) ∧
    ({ ready with pwr := { state := 3 } } : State).railOff 3 = false ∧ ({ ready with pwr := { state := 3 } } : State).railOff 4 = true := by decide +kernel
/-- A module whose chain has started, with one record waiting to be signed and staged entries. -/
def chained (n : Nat) : State :=
  { running with eng := { started := true, oldest := 0, nextSeq := 1, recs := [(0, { kind := 2 })], queue := [0],
                          entries := List.replicate n (List.replicate 12 0) },
                 drv := { role := 2 }, job := { energyFlags := 2 } }
theorem wit_records : ∀ n ∈ [1, 255, 256], (chained n).mgmtUp = true ∧ (chained n).pwr.state = 0 ∧ (chained n).pwr.busy = false ∧ (chained n).eng.isRange = false ∧
      (chained n).eng.started = true ∧ (chained n).eng.oldest ≤ (chained n).eng.nextSeq ∧ (chained n).eng.queue = [0] ∧
      find? 0 (chained n).eng.recs = some { kind := 2 } ∧ bitAt (chained n).job.energyFlags 1 = true ∧ (chained n).eng.entries ≠ [] ∧
      (chained n).eng.entries.length = n ∧ (chained n).winAnswers .eng = true := by decide +kernel
/-- The same with a number of sequence numbers taken in the last second. -/
def hurried (n taken : Nat) : State := { chained n with eng := { (chained n).eng with used := [(0, taken)] } }
theorem wit_rate : (∀ k ∈ [0, 999], (hurried 1 k).eng.waiting = [] ∧ (hurried 1 k).eng.taken (hurried 1 k).board.time < 1000) ∧
    1000 ≤ (hurried 1 1000).eng.taken (hurried 1 1000).board.time ∧ (hurried 256 0).eng.taken 0 + (1 + annexSlots 256) ≤ 1000 ∧
    (hurried 1 1000).eng.nextSeq = 1 ∧ (hurried 1 999).admitRecs.eng.queue = [0] ∧ (hurried 1 0).eng.taken 1000000000 = 0 := by decide +kernel
/-- A running module with an unread entry of a code, and the pointers a number of entries apart. -/
def logged (wr : Nat) : State :=
  { running with err := { wr := wr, log := [(logSlot (wr - 1), { code := 0xC401, source := 0, first := 0, last := 0, ctx := 0 })] } }
theorem wit_reports : running.mgmtUp = true ∧ (0 < codeClass 0xC401 ∧ codeClass 0xC401 ≤ 0x14) ∧ (0 < codeClass (faultCode 1 0x14 0) ∧
      codeClass (faultCode 1 0x14 0) = 0x14) ∧ srcLegal 0 = true ∧ srcLegal (srcPort 32) = true ∧
    (mergeTarget (logged 1).err 0xC401 0 999999 = some 0 ∧ (find? (logSlot 0) (logged 1).err.log).isSome = true) ∧
    mergeTarget (logged 1).err 0xC401 0 1000000 = none ∧ mergeTarget (logged 1024).err 0xC402 0 0 = none ∧ (logged 1024).err.unread = 1024 ∧
    (logged 1).err.unread ≠ 1024 ∧ disposition running (faultCode 3 WATCHDOG 1) 0 = .jobFault ∧ running.inState [.running, .paused] = true ∧
    disposition running (faultCode 1 ECC_UNCORR 1) 0 = .contained ∧ disposition running (faultCode 1 0x0F 0) 0 = .notice ∧
    disposition ready (faultCode 3 WATCHDOG 1) 0 = .jobFault ∧ ready.inState [.running, .paused] = false ∧
    alwaysFaults (faultCode 3 WATCHDOG 1) = false := by decide +kernel
theorem wit_buffer : ∀ n ∈ [3, 4], ({ running with err := { recent := List.replicate n (srcBlock 0, 0) } } : State).stamped.bufferFull
    (faultCode 1 ECC_UNCORR 1) (srcBlock 0) 0 = (n == 4) := by decide +kernel
/-- A fault waits for its latch, in a module state. -/
def faulting (st : ModState) (valid starting : Bool) : State :=
  { running with glb := { running.glb with mstate := st, jobStarting := starting },
                 err := { valid := valid, windowAt := some 0, stopIssue := st != .ready,
                          window := [({ code := faultCode 3 CRC_EXHAUST 0x30, source := 0, first := 0, last := 0, ctx := 0 }, none)] } }
theorem wit_latch : ∀ v ∈ [false, true], (faulting .running v false).err.windowAt = some 0 ∧
    ((faulting .running v false).err.chosen.or (chosenOf (faulting .running v false).err.quiet)).isSome = true ∧
    (faulting .running v false).err.valid = v ∧ (faulting .running v false).err.window ≠ [] ∧ (faulting .running v false).err.stopIssue = true ∧
    (faulting .running v false).inState [.running, .paused] = true ∧ (faulting .ready v true).glb.mstate = .ready ∧
    (faulting .ready v true).glb.jobStarting = true ∧
    (∀ y ∈ (faulting .ready v true).err.window ++ (faulting .ready v true).err.quiet, alwaysFaults y.1.code = false) ∧
    (∃ y ∈ (faulting .running v false).err.window, y.2 = none) := by decide +kernel
/-- A report while a job starts, which stops the start without a latch. -/
theorem wit_quiet : let s : State := { ready with glb := { ready.glb with jobStarting := true } }
    let t : State := { s with err := { windowAt := some 0, quiet := [({ code := faultCode 3 WATCHDOG 1, source := 0, first := 0, last := 0, ctx := 0 }, none)] } }
    disposition s (faultCode 3 WATCHDOG 1) 0 = .jobFault ∧ s.inState [.running, .paused] = false ∧ s.glb.jobStarting = true ∧
    alwaysFaults (faultCode 3 WATCHDOG 1) = false ∧ (t.err.chosen.or (chosenOf t.err.quiet)).isSome = true ∧ t.err.window = [] ∧
    (∀ y ∈ t.err.window ++ t.err.quiet, alwaysFaults y.1.code = false) ∧ t.glb.mstate = .ready ∧ t.glb.jobStarting = true := by decide +kernel
theorem wit_physical : (3 < 4 ∧ 125 ≤ 125 ∧ 255 < 256) ∧ running.board.powerGood = true ∧ running.glb.mstate ≠ .off ∧ running.glb.trip = none ∧
    running.mgmtUp = true ∧ running.opticsOn = true ∧ running.inState [.running, .paused] = true ∧ running.board.refRunning = true ∧
    ({ running with board := { running.board with refRunning := false } } : State).board.refRunning = false ∧ running.glb.bootRom = false ∧
    (∀ p ∈ [1, 2, 3], ({ ready with pwr := { state := p } } : State).inState [.ready, .running, .paused] = true) ∧ running.computeOn = true ∧
    (running.blk 255).excluded = false := by decide +kernel
theorem wit_overrun : ∀ src ∈ [srcBlock 255, srcRegion 3, srcDrover 3, srcMem 23, srcPort 32, srcMgmt, 0],
    srcLegal src = true ∧ ∀ line ∈ [8 * (src / 4096), 8 * (src / 4096) + cdcLines (src / 4096) - 1],
      line / 8 = src / 4096 ∧ line % 8 < cdcLines (src / 4096) ∧ running.srcPowered src = true := by decide +kernel
theorem wit_ageing : ready.pwr.state = 0 ∧ ready.mgmtUp = true ∧ ready.winAnswers .age = true ∧ ready.age.busy = false ∧ ready.glb.trip = none ∧
    ready.board.gated = false ∧ ready.inState [.ready, .paused, .faulted] = true ∧ ready.glb.jobStarting = false ∧
    running.inState [.ready, .paused, .faulted] = false ∧ running.winAnswers .age = true ∧ running.mgmtUp = true ∧ running.age.busy = false ∧
    ready.glb.mstate ≠ .starting ∧ running.glb.mstate ≠ .starting ∧
    ({ ready with age := { busy := true } } : State).computeOn = true ∧ (ready.blk 255).excluded = false ∧
    (replan 10 0 1500 24 31).short = false := by decide +kernel

/-! ## Witnesses: trace, registers, reset -/

/-- A running module whose region 3 captures, with records waiting, under an event mask. -/
def capturing (waiting : Nat) (mask : Nat := 0xFFFFFFFF) : State :=
  { running with trc := { body := { mask := mask, kind := 5 } }, job := { ctrMs := 1 },
                 regions := [(3, { trace := { armed := true, mask := mask, fifo := List.replicate waiting { kind := 0x20 } } })] }
theorem wit_trace : (∀ n ∈ [0, 255, 256], ((capturing n).rgn 3).trace.capturing = true ∧ (capturing n).computeOn = true ∧
      ((capturing n).rgn 3).trace.fifo.length = n ∧ ((capturing n).rgn 3).trace.triggered = false) ∧
    (∀ k ∈ [0x01, 0x28, 0x29], ((capturing 0).rgn 3).trace.wants k = true) ∧ ((capturing 0 0).rgn 3).trace.wants 0x01 = false ∧
    (capturing 0).trc.body.kind = 5 ∧ (capturing 0).trc.body.arg ≤ (capturing 0).board.time ∧ (capturing 0).trc.fired = false ∧
    (capturing 0).winAnswers .trc = true ∧ (capturing 0).glb.mstate ≠ .starting ∧
    ((capturing 0).rgn 3).trace.awaits = true ∧ ((capturing 0).rgn 0).trace.awaits = false ∧
    ({ capturing 0 with trc := { fired := true } } : State).trc.fired = true ∧
    ((capturing 0).rgn 0).trace.capturing = false ∧ (capturing 0).job.ctrMs ≠ 0 ∧
    (∀ s ∈ [({ running with regions := [(3, { trace := { armed := true, triggered := true, left := 0 } })] } : State)],
      (s.rgn 3).trace.ended = true ∧ (s.rgn 3).trace.armed = true) := by decide +kernel
theorem wit_capture : let s : State := { capturing 0 0x1000 with trc := { body := { mask := 0x1000 } } }
    s.trc.body.kind = 0 ∧ bitAt (s.rgn 3).trace.mask 12 = true ∧ bitAt s.job.ctrMask 0 = true ∧ groupSize 0 = some 10 ∧ 0 ∈ instancesOf 0 15 ∧
    (traceRegion (instanceSrc 2 255) == 3 && (s.rgn 3).trace.capturing && !(s.rgn 3).trace.triggered) = true ∧ 255 ∈ instancesOf 2 15 := by decide +kernel
theorem wit_registers : ready.winAnswers .rgn = true ∧ ready.winAnswers .err = true ∧
    (regAt 0x0001 = none ∧ regAt 0xFFFFFFFC = none) ∧ (regAt 0x4024).isSome = true ∧ (regAt 0x4020).isSome = true ∧
    srcLegal ready.cdc.sel = true ∧ ready.srcPowered ready.cdc.sel = true ∧ srcLegal (srcBlock 255) = true ∧ ready.srcPowered (srcBlock 255) = true := by
  decide +kernel
theorem wit_starting_rows : let s : State := { ready with glb := { mstate := .starting, order := 13 } }
    s.glb.mstate = .starting ∧ (3 < 4 ∧ 255 < 256) ∧ s.winAnswers .err = true ∧ ready.glb.mstate ≠ .starting ∧ ready.hci.held = [] := by decide +kernel
/-- The first LO register and the first cleared-on-read register of the window at address 0. -/
theorem wit_lo_rc : ((List.range 64).any fun k => (regAt (4 * k)).any fun r => r.isLo && (regAt (4 * k + 4)).isSome && ready.winAnswers r.win) = true ∧
    ((List.range 64).any fun k => (regAt (4 * k)).any fun r => r.isRc && ready.winAnswers r.win) = true := by decide +kernel
theorem wit_sideband : ready.board.powerGood = true ∧ (7 ≠ 8) ∧ (0x13 ∉ [0x10, 0x11, 0x12, 0x14]) ∧ (le 8 0x4024).length = 8 ∧
    leAt (le 8 0x4024) 0 4 % 4 = 0 ∧ leAt (le 8 0x4025) 0 4 % 4 ≠ 0 ∧ (regAt (leAt (le 4 0x4024) 0 4)).isSome = true ∧
    find? (leAt (le 4 0x4024) 0 4) ready.sb.latches = none ∧ (∀ n ∈ [1, 8], leAt (le 4 0x4040 ++ le 4 n) 4 4 = n ∧
      ∀ k, k < n → regMapped (leAt (le 4 0x4040 ++ le 4 n) 0 4 + 4 * k) = true) ∧
    Nat.land ({ alert := 1 } : Err).alert ({ alert := 1 } : Err).alertEn ≠ 0 ∧ Nat.land ready.err.alert ready.err.alertEn = 0 := by decide +kernel
theorem wit_reset : let off : State := { board := { powerGood := true } }
    off.board.powerGood = true ∧ off.glb.mstate = .off ∧ ready.glb.mstate ≠ .off ∧ ready.board.resetN = true ∧
    (999 < 1000 ∧ 10000 ≤ 10000 ∧ 1000 ≤ 1000 ∧ 9999 < 10000) := by decide +kernel

/-! ## WellFormed: for each check an ill-formed command that it refuses, beside one at the edge that it takes -/

theorem test_wf_fire : Instr.wf (.mma { blk := 256, stage := 0, pos := 0 }) = false ∧ Instr.wf (.mma { blk := 0, stage := 16, pos := 0 }) = false ∧
    Instr.wf (.mma { blk := 255, stage := 15, pos := 0 }) = true := by decide
theorem test_wf_layers : Instr.wf (.layerSwitch 256) = false ∧ Instr.wf (.prefetchComplete 0 ⟨0xFFFFF, {}⟩) = false ∧ Instr.wf (.tallyRecords 4 0) = false ∧
    Instr.wf (.tallyRecords 0 65536) = false ∧ Instr.wf (.layerVerdict 65536) = false ∧ Instr.wf (.updateShard 4 {}) = false ∧
    Instr.wf (.bucketFill 65536 0 {}) = false ∧ Instr.wf (.bucketFill 65535 65535 {}) = true := by decide
theorem test_wf_drover : Instr.wf (.vote 32 { type := mVote }) = false ∧ Instr.wf (.vote 31 { type := 256 }) = false ∧
    Instr.wf (.vote 31 { type := mVote, src := 65536 }) = false ∧ Instr.wf (.peerLost 256 0) = false ∧ Instr.wf (.vote 31 { type := mVote }) = true := by
  decide
theorem test_wf_queues : Instr.wf (.cellRequest (2 ^ 18) .ingress 1) = false ∧ Instr.wf (.cellRequest 0 (.stage 256 0 0) 1) = false ∧
    Instr.wf (.cellRequest 0 (.drover 4) 1) = false ∧ Instr.wf (.cellGrant (2 ^ 18)) = false ∧ Instr.wf (.egressForward (2 ^ 18) {}) = false ∧
    Instr.wf (.cellGrant (2 ^ 18 - 1)) = true := by decide
theorem test_wf_memory : Instr.wf (.pageMigration 0 (2 ^ 19)) = false ∧ Instr.wf (.migrationComplete (2 ^ 19) {}) = false ∧
    Instr.wf (.migrationWatchdog (2 ^ 19)) = false ∧ Instr.wf (.memTemperatureRead 24 0) = false ∧ Instr.wf (.memTemperatureRead 0 256) = false ∧
    Instr.wf (.memRefresh 23 32) = false ∧ Instr.wf (.memRefresh 23 31) = true := by decide
theorem test_wf_links : Instr.wf (.flitBlock 0 [] false) = false ∧ Instr.wf (.ackTimeout 33) = false ∧
    Instr.wf (.hello 0 { heard := true, kind := 0, port := 0, serial := 0, job := 0 }) = false ∧ Instr.wf (.stopRequest 32 1 0 0 0) = false ∧
    Instr.wf (.pauseMarker 0 256 0 0) = false ∧ Instr.wf (.ackTimeout 32) = true := by decide
theorem test_wf_host : Instr.wf (.openSession 64 []) = false ∧ Instr.wf (.identify { sess := 64 }) = false ∧
    Instr.wf (.identify { sess := 0, tag := 2 ^ 32 }) = false ∧ Instr.wf (.snapshotChunk 32 0 0 0 0 0 ⟨⟨0, []⟩, {}⟩) = false ∧
    Instr.wf (.streamMessage 64 0 []) = false ∧ Instr.wf (.bulkArgument 0 (2 ^ 32) 0 ⟨[], {}⟩) = false ∧ Instr.wf (.unlistedOpcode 65536 { sess := 0 }) = false ∧
    Instr.wf (.identify { sess := 63 }) = true := by decide
theorem test_wf_module : Instr.wf (.railSample ⟨[], []⟩) = false ∧ Instr.wf (.report 65536 0 0 0) = false ∧ Instr.wf (.thermalTrip 4 0) = false ∧
    Instr.wf (.eventOverrun 65536 0) = false ∧ Instr.wf (.ageingMeasurementEnd [{ blk := 256, at0 := [0], at1 := [0] }]) = false ∧
    Instr.wf (.traceFreeze 4) = false ∧ Instr.wf (.loRegisterRead .command 2) = false ∧ Instr.wf (.glbCdcFlagsClear (some 256) 0) = false ∧
    Instr.wf (.sidebandRead ⟨256, true⟩ []) = false ∧ Instr.wf (.powerGoodRise 8 true) = false ∧ Instr.wf (.resetNRise { memFail := [24] }) = false ∧
    Instr.wf (.sidebandUnlistedCommand 256) = false ∧ Instr.wf (.opticalEngineOvertemperature 33 0) = false ∧ Instr.wf (.powerGoodRise 7 true) = true := by
  decide

/-! ## Worked examples of the manual -/

/-- Values in units of 1/64. -/
def sixtyFourths (l : List Int) : List Val := l.map fun n => ⟨.fin (n < 0) n.natAbs (-6), false⟩
/-- The 16 source values of 'one scale block into VBFP4/16'; element 4 is −0. -/
def blockIn : List Val :=
  sixtyFourths [48, -80, 160, 4] ++ [⟨.fin true 0 0, false⟩] ++ sixtyFourths [192, -352, 1, 112, -20, 256, 32, -128, 8, 416, -56]
/-- 02_number_formats, 'one scale block into VBFP4/16': scale 0x7F, the codes of its table, `zero` 1, `rz` 3, Clean. -/
theorem test_block : let r := convertBlock 0x19 none (fun _ => 0) blockIn
    r.scale = 0x7F ∧ r.elems.map (·.1) = [2, 0xA, 4, 0, 8, 5, 0xF, 0, 4, 9, 6, 1, 0xC, 0, 7, 0xA] ∧ r.zero = 1 ∧ r.sat = 0 ∧ r.rz = 3 ∧
    r.nan = 0 ∧ r.inf = 0 ∧ r.amax = .fin false 416 (-6) ∧ r.flag = .clean := by decide +kernel
/-- The same with 0x7E imposed: three elements saturate, `rz` stays 3; with element 3 a NaN: scale 0xFF, eight zero bytes. -/
theorem test_block_imposed : let r := convertBlock 0x19 (some 0x7E) (fun _ => 0) blockIn
    let q := convertBlock 0x19 none (fun _ => 0) (blockIn.set 3 ⟨.nan, false⟩)
    r.sat = 3 ∧ r.rz = 3 ∧ r.flag = .saturated ∧ (r.elems.map (·.1)).getD 6 0 = 0xF ∧ (r.elems.map (·.1)).getD 10 0 = 7 ∧
    q.scale = 0xFF ∧ q.nan = 1 ∧ q.flag = .nanBlock ∧ q.elems.map (·.1) = List.replicate 16 0 ∧ q.amax = .fin false 416 (-6) := by decide +kernel
/-- 02_number_formats, 'E5M2 overflow in the two modes'. -/
theorem test_overflow : ([60000, 61440, -70000] : List Int).map (fun n =>
      let r := convertBlock 0x05 none (fun _ => 0) [⟨Number.ofInt n, false⟩]
      (r.elems.map (·.1), (convertBlock 0x85 none (fun _ => 0) [⟨Number.ofInt n, false⟩]).elems.map (·.1), r.sat)) =
    [([0x7B], [0x7B], 0), ([0x7B], [0x7C], 1), ([0xFB], [0xFC], 1)] := by decide +kernel
/-- 02_number_formats, 'stochastic rounding of one gradient element': 1.3125 rounds up from a draw of 24576 on. -/
theorem test_stochastic : (convElem (0x19 + 0x100) (.sto 24576) 0 ⟨.fin false 21 (-4), false⟩).1 = 3 ∧
    (convElem (0x19 + 0x100) (.sto 24575) 0 ⟨.fin false 21 (-4), false⟩).1 = 2 := by decide +kernel
/-- 04_stage_programs, the counter of element 70,000 of layer 3 in step 1,234. -/
theorem test_draw_counter : drawCtr 1234 3 17500 = 0x001348030000445C := by decide +kernel
/-- 11_memory, the metadata block of block 4,480 of frame 3,000 of package 17. -/
theorem test_metadata_block : 17 * 2 ^ 28 + 3000 * 2 ^ 13 + 4480 = 4587983232 ∧ metaBlock 4587983232 = 17 * 2 ^ 28 + 32303 * 8192 + 5142 := by decide +kernel
/-- 16_faults_ageing, the plan of two blocks. -/
theorem test_replan : (replan 10 0 1500 24 31).offset = 20 ∧ (replan 10 0 1500 24 31).cap = 1900 ∧ (replan 55 0 1500 18 13).offset = 60 ∧
    (replan 55 0 1500 18 13).cap = 1475 ∧ (replan 55 0 1500 18 13).slack = 31 := by decide +kernel
/-- 01_organisation: CRC_EXHAUST, class 0x04, detail 0x01, at module level is 0xC401. -/
theorem test_fault_code : faultCode 3 0x04 1 = 0xC401 := by decide

/-! ## Small states, one step -/

/-- The CRC-32C of the nine bytes "123456789" is the known check value of the polynomial of R338. -/
theorem test_crc : crc32c [0x31, 0x32, 0x33, 0x34, 0x35, 0x36, 0x37, 0x38, 0x39] = 0xE3069283 := by decide +kernel
/-- The PEC of the same nine bytes is the known check value of the SMBus polynomial. -/
theorem test_pec : pecOf [0x31, 0x32, 0x33, 0x34, 0x35, 0x36, 0x37, 0x38, 0x39] = 0xF4 := by decide +kernel
/-- SUPPLY_DROOP counts at one block alone (R460). -/
theorem test_droop : (nextOf (exec (.supplyDroop 7) running)).map (fun t => ((t.blk 7).droop, (t.blk 6).droop)) = some (1, 0) := by decide +kernel
/-- MEM_TEMPERATURE_READ of 106 °C sets band 3 and logs THERMAL of a stack, detail 0x21 (R345, R456). -/
theorem test_hot_stack : (nextOf (exec (.memTemperatureRead 2 106) paged)).map (fun t => (look 0 2 t.mem.band, (find? 0 t.err.log).map (·.code))) =
    some (3, some (faultCode 3 THERMAL 0x21)) := by decide +kernel
/-- A write of an unmapped offset over the sideband counts and changes nothing else (R501, R505). -/
theorem test_bad_access : (nextOf (exec (.registerWrite .sideband 0xFFFFFFFC 1) ready)).map (fun t => (t.sb.badAccess, t.err.unread)) = some (1, 0) := by
  decide +kernel
/-- A JOB_HALT of a running module leaves it PAUSED and halted, with a resume refused from then on (R416, R494). -/
theorem test_halt : (nextOf (exec (.jobHalt (cmd [])) { running with ports := [(32, { st := 2 })] })).map (fun t => (t.glb.mstate, t.glb.halted, t.admits 0x13)) =
    some (.paused, true, false) := by decide +kernel
/-- A VEC COPY of 64 zeros completes its position and the stage goes on to SEAL LAYER (R134, R120). -/
theorem test_copy : (nextOf (exec (.vecCopy fire0) copyOf)).map (fun t => (t.run 0 0).oldest) = some 1 := by decide +kernel
/-- SEAL STEP of the oldest step starts the next one (R146). -/
theorem test_seal_step : (nextOf (exec (.sealStep fire2) (atSeal 0))).map (fun t => ((t.blk 0).step, (t.run 0 0).oldest)) = some (1, 0) := by decide +kernel
/-- A commit verdict makes the other buffer live (R169, R282); a copy is in progress, so that none begins. -/
theorem test_commit : let m := { msg mVerdict 1 (Verdict.payload { step := 5, verdict := 0, epoch := 1 }) with step := 5 }
    (nextOf (exec (.verdict 0 m) { awaits with upd := { awaiting := true, snapBusy := true } })).map (fun t => (t.upd.live, t.gov.step, t.upd.count)) = some (1, 6, 1) := by decide +kernel
/-- The second of two FLASH_PASS_THROUGH with RESET_N high changes nothing: the pass-through needs it low (R378). -/
theorem test_pass_through : (nextOf (exec (.flashPassThrough (some [1]) none ⟨false, none⟩) { ready with board := { ready.board with resetN := false } })).map
      (fun t => (t.flash.image, t.board.flashHost)) = some ([1], true) ∧
    (nextOf (exec (.flashPassThrough (some [1]) none ⟨false, none⟩) ready)).map (·.flash.image) = some [] := by decide +kernel

end Sys2Proof.Tests
end

/-! What every command keeps, gathered over the whole table, and the one place where the time base and the SMBus address are set. -/

namespace Sys2Proof.Machine

/-- Every command but power good rising or falling and the carrier's pass-through keeps what `Keeps` names. -/
theorem exec_keeps {s t : State} (c : Instr) (hrise : ∀ a h, c ≠ .powerGoodRise a h) (hfall : c ≠ .powerGoodFall)
    (hpass : ∀ image recovery j, c ≠ .flashPassThrough image recovery j) (e : exec c s = .next t) : Keeps s t := by
  cases c with
  | mma _ => exact execMma_keeps _ e
  | conv _ => exact execConv_keeps _ e
  | vec _ => exact execVec_keeps _ e
  | vecCopy _ => exact execVecCopy_keeps _ e
  | norm _ => exact execNorm_keeps _ e
  | softmax _ => exact execSoftmax_keeps _ e
  | reduce _ => exact execReduce_keeps _ e
  | gather _ => exact execGather_keeps _ e
  | scatterAdd _ => exact execScatterAdd_keeps _ e
  | routeTopk _ => exact execRouteTopk_keeps _ e
  | routeCount _ => exact execRouteCount_keeps _ e
  | quant _ => exact execQuant_keeps _ e
  | dequant _ => exact execDequant_keeps _ e
  | rng _ => exact execRng_keeps _ e
  | loss _ => exact execLoss_keeps _ e
  | send _ => exact execSend_keeps _ e
  | recv _ => exact execRecv_keeps _ e
  | sealLayer _ => exact execSealLayer_keeps _ e
  | sealStep _ => exact execSealStep_keeps _ e
  | layerSwitch _ => exact execLayerSwitch_keeps _ e
  | prefetchComplete _ _ => exact execPrefetchComplete_keeps _ _ e
  | tallyRecords _ _ => exact execTallyRecords_keeps _ _ e
  | layerVerdict _ => exact execLayerVerdict_keeps _ e
  | moduleStepSeal => exact execModuleStepSeal_keeps e
  | stepVote => exact execStepVote_keeps e
  | vote _ _ => exact execVote_keeps _ _ e
  | verdict _ _ => exact execVerdict_keeps _ _ e
  | formatChangeEffect => exact execFormatChangeEffect_keeps e
  | queueSquash => exact execQueueSquash_keeps e
  | updateShard _ _ => exact execUpdateShard_keeps _ _ e
  | snapshotCopy _ => exact execSnapshotCopy_keeps _ e
  | bucketFill _ _ _ => exact execBucketFill_keeps _ _ _ e
  | head _ _ => exact execHead_keeps _ _ e
  | grant _ _ => exact execGrant_keeps _ _ e
  | grad _ _ => exact execGrad_keeps _ _ e
  | ring _ _ => exact execRing_keeps _ _ e
  | ringFinal _ _ => exact execRingFinal_keeps _ _ e
  | param _ _ => exact execParam_keeps _ _ e
  | badDroverMessage _ _ => exact execBadDroverMessage_keeps _ _ e
  | fault _ _ => exact execFault_keeps _ _ e
  | stop _ _ => exact execStop_keeps _ _ e
  | automaticRestart => exact execAutomaticRestart_keeps e
  | restart _ _ => exact execRestart_keeps _ _ e
  | restartAck _ _ => exact execRestartAck_keeps _ _ e
  | form _ _ => exact execForm_keeps _ _ e
  | formAck _ _ => exact execFormAck_keeps _ _ e
  | probe _ _ => exact execProbe_keeps _ _ e
  | probeReply _ _ => exact execProbeReply_keeps _ _ e
  | formed _ _ => exact execFormed_keeps _ _ e
  | flockFormation => exact execFlockFormation_keeps e
  | peerLost _ _ => exact execPeerLost_keeps _ _ e
  | cellRequest _ _ _ => exact execCellRequest_keeps _ _ _ e
  | cellGrant _ => exact execCellGrant_keeps _ e
  | dataVisible _ => exact execDataVisible_keeps _ e
  | queueReadTimeout _ => exact execQueueReadTimeout_keeps _ e
  | egressForward _ _ => exact execEgressForward_keeps _ _ e
  | deadlock => exact execDeadlock_keeps e
  | pageMigration _ _ => exact execPageMigration_keeps _ _ e
  | migrationComplete _ _ => exact execMigrationComplete_keeps _ _ e
  | eviction => exact execEviction_keeps e
  | migrationWatchdog _ => exact execMigrationWatchdog_keeps _ e
  | memTemperatureRead _ _ => exact execMemTemperatureRead_keeps _ _ e
  | memRefresh _ _ => exact execMemRefresh_keeps _ _ e
  | flitBlock _ _ _ => exact execFlitBlock_keeps _ _ _ e
  | nakResendTimer _ => exact execNakResendTimer_keeps _ e
  | ackTimeout _ => exact execAckTimeout_keeps _ e
  | fastRetrain _ => exact execFastRetrain_keeps _ e
  | lossOfSignal _ => exact execLossOfSignal_keeps _ e
  | signalDetect _ => exact execSignalDetect_keeps _ e
  | helloTimer _ => exact execHelloTimer_keeps _ e
  | hello _ _ => exact execHello_keeps _ _ e
  | linkTrainingTimeout _ => exact execLinkTrainingTimeout_keeps _ e
  | linkRetry _ => exact execLinkRetry_keeps _ e
  | linkSleep _ => exact execLinkSleep_keeps _ e
  | linkWake _ => exact execLinkWake_keeps _ e
  | stopRequest _ _ _ _ _ => exact execStopRequest_keeps _ _ _ _ _ e
  | pauseMarker _ _ _ _ => exact execPauseMarker_keeps _ _ _ _ e
  | pauseRoundOne => exact execPauseRoundOne_keeps e
  | openSession _ _ => exact execOpenSession_keeps _ _ e
  | closeSession _ => exact execCloseSession_keeps _ e
  | hciBadMessage _ _ => exact execHciBadMessage_keeps _ _ e
  | identify _ => exact execIdentify_keeps _ e
  | attest _ => exact execAttest_keeps _ e
  | jobStart _ => exact execJobStart_keeps _ e
  | jobPause _ => exact execJobPause_keeps _ e
  | jobHalt _ => exact execJobHalt_keeps _ e
  | jobResume _ => exact execJobResume_keeps _ e
  | jobAbort _ => exact execJobAbort_keeps _ e
  | snapshotTake _ => exact execSnapshotTake_keeps _ e
  | snapshotWrite _ => exact execSnapshotWrite_keeps _ e
  | snapshotShip _ => exact execSnapshotShip_keeps _ e
  | snapshotChunk _ _ _ _ _ _ _ => exact execSnapshotChunk_keeps _ _ _ _ _ _ _ e
  | powerState _ => exact execPowerState_keeps _ e
  | readRegs _ => exact execReadRegs_keeps _ e
  | writeRegs _ => exact execWriteRegs_keeps _ e
  | countersRead _ => exact execCountersRead_keeps _ e
  | traceArm _ => exact execTraceArm_keeps _ e
  | traceRead _ => exact execTraceRead_keeps _ e
  | energyReport _ => exact execEnergyReport_keeps _ e
  | streamOpen _ => exact execStreamOpen_keeps _ e
  | streamClose _ => exact execStreamClose_keeps _ e
  | streamMessage _ _ _ => exact execStreamMessage_keeps _ _ _ e
  | abortHandle _ => exact execAbortHandle_keeps _ e
  | wake => exact execWake_keeps e
  | railSample _ => exact execRailSample_keeps _ e
  | intervalRecordTimer => exact execIntervalRecordTimer_keeps e
  | recordSigned => exact execRecordSigned_keeps e
  | chainHeadSave => exact execChainHeadSave_keeps e
  | sign => exact execSign_keeps e
  | clear => exact execClear_keeps e
  | engFlkStageAppend _ => exact execEngFlkStageAppend_keeps _ e
  | report _ _ _ _ => exact execReport_keeps _ _ _ _ e
  | firstFaultWindow => exact execFirstFaultWindow_keeps e
  | thermalTrip _ _ => exact execThermalTrip_keeps _ _ e
  | dieOvertemperature _ _ => exact execDieOvertemperature_keeps _ _ e
  | firmwareWatchdog => exact execFirmwareWatchdog_keeps e
  | lockstepDivergence => exact execLockstepDivergence_keeps e
  | identityTimeout => exact execIdentityTimeout_keeps e
  | referenceClockLoss => exact execReferenceClockLoss_keeps e
  | referenceClockReturn => exact execReferenceClockReturn_keeps e
  | islandClockGate => exact execIslandClockGate_keeps e
  | supplyDroop _ => exact execSupplyDroop_keeps _ e
  | eventOverrun _ _ => exact execEventOverrun_keeps _ _ e
  | meshFlitCrcFail _ => exact execMeshFlitCrcFail_keeps _ e
  | ageingDue => exact execAgeingDue_keeps e
  | ageingMeasurementEnd _ => exact execAgeingMeasurementEnd_keeps _ e
  | now => exact execNow_keeps e
  | summaryTimer => exact execSummaryTimer_keeps e
  | traceRecord _ _ => exact execTraceRecord_keeps _ _ e
  | traceTimeTrigger => exact execTraceTimeTrigger_keeps e
  | traceFreeze _ => exact execTraceFreeze_keeps _ e
  | force => exact execForce_keeps e
  | disarm => exact execDisarm_keeps e
  | periodicCapture => exact execPeriodicCapture_keeps e
  | queDescSel _ _ => exact execQueDescSel_keeps _ _ e
  | errLogPtrRd _ => exact execErrLogPtrRd_keeps _ e
  | errFirstValidClear => exact execErrFirstValidClear_keeps e
  | errLog0Read _ => exact execErrLog0Read_keeps _ e
  | loRegisterRead _ _ => exact execLoRegisterRead_keeps _ _ e
  | rcFieldRead _ _ => exact execRcFieldRead_keeps _ _ e
  | glbCdcFlagsClear _ _ => exact execGlbCdcFlagsClear_keeps _ _ e
  | registerWrite _ _ _ => exact execRegisterWrite_keeps _ _ _ e
  | sidebandWrite _ _ _ => exact execSidebandWrite_keeps _ _ _ e
  | sidebandRead _ _ => exact execSidebandRead_keeps _ _ e
  | sidebandBlockRead _ _ => exact execSidebandBlockRead_keeps _ _ e
  | sidebandRepeatRead _ => exact execSidebandRepeatRead_keeps _ e
  | alertResponse => exact execAlertResponse_keeps e
  | powerGoodRise a h => exact absurd rfl (hrise a h)
  | powerGoodFall => exact absurd rfl hfall
  | resetNRise _ => exact execResetNRise_keeps _ e
  | resetNFall _ => exact execResetNFall_keeps _ e
  | flashPassThrough image recovery j => exact absurd rfl (hpass image recovery j)
  | fecLock _ => exact execFecLock_keeps _ e
  | retrainAttemptTimeout _ => exact execRetrainAttemptTimeout_keeps _ e
  | linkWaitExpiry => exact execLinkWaitExpiry_keeps e
  | opticalEngineOvertemperature _ _ => exact execOpticalEngineOvertemperature_keeps _ _ e
  | bulkArgument _ _ _ _ => exact execBulkArgument_keeps _ _ _ _ e
  | unlistedOpcode _ _ => exact execUnlistedOpcode_keeps _ _ e
  | sidebandUnlistedCommand _ => exact execSidebandUnlistedCommand_keeps _ e

theorem State.send_keeps_clock (s : State) (o : Out) : (s.send o).board.time = s.board.time ∧ (s.send o).board.addr = s.board.addr :=
  have sent := State.send_keeps o (Keeps.refl s)
  ⟨sent.time, sent.address⟩

/-- The pass-through changes the image stores, so it is no case of `Keeps`; of the board it sets `flashHost` alone. -/
theorem execFlashPassThrough_keeps_clock {s t : State} (image recovery : Option (List Byte)) (j : JournalUse)
    (e : execFlashPassThrough image recovery j s = .next t) : t.board.time = s.board.time ∧ t.board.addr = s.board.addr := by
  simp only [execFlashPassThrough] at e
  split at e
  case isTrue =>
    cases e
    exact ⟨rfl, rfl⟩
  case isFalse =>
    cases e
    split
    · exact State.send_keeps_clock _ _
    · exact ⟨rfl, rfl⟩

/-- The time base and the SMBus address over any command but power good rising or falling. -/
theorem exec_keeps_clock {s t : State} (c : Instr) (hrise : ∀ a h, c ≠ .powerGoodRise a h) (hfall : c ≠ .powerGoodFall)
    (e : exec c s = .next t) : t.board.time = s.board.time ∧ t.board.addr = s.board.addr := by
  by_cases hpass : ∃ image recovery j, c = .flashPassThrough image recovery j
  · obtain ⟨image, recovery, j, rfl⟩ := hpass
    exact execFlashPassThrough_keeps_clock image recovery j e
  · have kept := exec_keeps c hrise hfall (fun image recovery j hc => hpass ⟨image, recovery, j, hc⟩) e
    exact ⟨kept.time, kept.address⟩

/-- Without power the rise of power good builds the module afresh: only the flash devices, whose count of power-ons rises, and the
model's own logs go on. -/
theorem execPowerGoodRise_of_off {s : State} (straps : Nat) (resetHigh : Bool) (h : s.board.powerGood = false) :
    execPowerGoodRise straps resetHigh s =
      .next { board := { powerGood := true, resetN := resetHigh, addr := 0x58 + straps % 8, refRunning := s.board.refRunning },
              glb := { serialUp := true }, flash := { s.flash with powerOns := (s.flash.powerOns + 1) % 2 ^ 32 },
              out := s.out, pending := s.pending, fresh := s.fresh } := by
  simp [execPowerGoodRise, h]

/-- With power the fall of power good leaves the reset state, but for the flash devices and the model's own logs. -/
theorem execPowerGoodFall_of_on {s : State} (h : s.board.powerGood = true) :
    execPowerGoodFall s =
      .next { board := { refRunning := s.board.refRunning }, flash := s.flash, out := s.out, pending := s.pending, fresh := s.fresh } := by
  simp [execPowerGoodFall, h]

/-- Settles O9: the clock and the address are kept by every other command (`exec_keeps_clock`), and the two meanings that set them are
written out. -/
theorem timeBaseRestartsOnlyWithPower : Obligations.TimeBaseRestartsOnlyWithPower := by
  unfold Obligations.TimeBaseRestartsOnlyWithPower
  refine ⟨fun c s t hrise hfall e => exec_keeps_clock c hrise hfall e, fun a h s hoff => ?_, fun s hon => ?_⟩
  · have emptyLog : ({} : Err).unread = 0 := by decide
    exact ⟨_, execPowerGoodRise_of_off a h hoff, rfl, rfl, rfl, rfl, rfl, rfl, emptyLog, rfl, rfl, rfl, rfl, rfl⟩
  · exact ⟨_, execPowerGoodFall_of_on hon, rfl, rfl, rfl, rfl, rfl⟩

end Sys2Proof.Machine

/-! The RC read of GLB_SB (R14, R511): the register holds the read-only field ADDR beside its two RC counts. -/

namespace Sys2Proof.Machine

/-- A read of GLB_SB clears its two RC counts and nothing else. -/
theorem rcFieldRead_glbSb {s : State} (h : s.winAnswers .glb = true) :
    exec (.rcFieldRead .command 0x34) s = .next { s with sb := { s.sb with pecErr := 0, badAccess := 0 } } := by
  have mapped : regAt 0x34 = some .glbSb := rfl
  simp [exec, execRcFieldRead, State.pathRead, State.readReg, mapped, RegId.isRc, RegId.win, h, State.clearRc]

/-- What GLB_SB shows once both counts are 0: the field ADDR, which no read clears. -/
theorem regWord_glbSb_of_cleared {s : State} (h : s.winAnswers .glb = true) (hpec : s.sb.pecErr = 0) (hbad : s.sb.badAccess = 0) :
    s.regWord .glbSb = s.board.addr := by
  simp [State.regWord, State.heartWord, RegId.win, h, hpec, hbad, sat]

/-- The module just powered with all straps low, before RESET_N rises: its address is 0x58. -/
def justPowered : State := { board := { powerGood := true, addr := 0x58 }, glb := { serialUp := true }, flash := { powerOns := 1 } }

/-- The state is one the module reaches in its first step. -/
theorem justPowered_of_reset : exec (.powerGoodRise 0 false) State.reset = .next justPowered :=
  execPowerGoodRise_of_off 0 false rfl

theorem justPowered_winAnswers_glb : justPowered.winAnswers .glb = true := by decide

/-- Refutes O59: its clause on RC reads asks that the whole word of the register be 0 afterwards, GLB_CDC, BLK_CDC and DRV_FOLD_TBL alone
excepted. GLB_SB has RC counts too, and its read leaves ADDR: the module at 0x58 still shows 0x58. -/
theorem not_registersAnswerTheirPaths : ¬ Obligations.RegistersAnswerTheirPaths := by
  unfold Obligations.RegistersAnswerTheirPaths
  rintro ⟨-, -, -, rcRead, -⟩
  obtain ⟨t, e, -, -, zero⟩ := rcRead justPowered 0x34 .glbSb .command rfl rfl justPowered_winAnswers_glb
  rw [rcFieldRead_glbSb justPowered_winAnswers_glb] at e
  cases e
  have word : State.regWord { justPowered with sb := { justPowered.sb with pecErr := 0, badAccess := 0 } } .glbSb = 0x58 :=
    regWord_glbSb_of_cleared justPowered_winAnswers_glb rfl rfl
  rw [zero nofun nofun nofun] at word
  exact absurd word (by decide)

end Sys2Proof.Machine

/-! The order of numbers (R80, R81): what equal, less, maximum and minimum answer. -/

namespace Sys2Proof.Machine

theorem Number.isNan_iff {a : Number} : a.isNan = true ↔ a = .nan := by cases a <;> simp [Number.isNan]

theorem Number.isZero_iff {a : Number} : a.isZero = true ↔ ∃ s e, a = .fin s 0 e := by
  cases a <;> simp [Number.isZero]

/-- A zero is no NaN. -/
theorem Number.isNan_of_isZero {a : Number} (h : a.isZero = true) : a.isNan = false := by
  obtain ⟨s, e, rfl⟩ := Number.isZero_iff.1 h
  rfl

/-! ## Less and equal -/

/-- Two zeros compare equal whatever their signs and exponents (R81). -/
theorem Number.cmp_of_isZero {a b : Number} (ha : a.isZero = true) (hb : b.isZero = true) : a.cmp b = .eq := by
  obtain ⟨s, e, rfl⟩ := Number.isZero_iff.1 ha
  obtain ⟨s', e', rfl⟩ := Number.isZero_iff.1 hb
  simp [Number.cmp]

theorem Number.lt_of_isNan {a b : Number} (h : a.isNan = true ∨ b.isNan = true) : a.lt b = false := by
  rcases h with h | h <;> simp [Number.lt, h]

theorem Number.eqv_of_isNan {a b : Number} (h : a.isNan = true ∨ b.isNan = true) : a.eqv b = false := by
  rcases h with h | h <;> simp [Number.eqv, h]

theorem cmpMag_swap (m1 : Nat) (e1 : Int) (m2 : Nat) (e2 : Int) : (cmpMag m1 e1 m2 e2).swap = cmpMag m2 e2 m1 e1 := by
  unfold cmpMag
  rw [Int.min_comm e2 e1, Nat.compare_swap]

/-- The comparison the other way round. -/
theorem Number.cmp_swap (a b : Number) : (a.cmp b).swap = b.cmp a := by
  cases a with
  | nan => cases b with
    | nan | fin => rfl
    | inf s => cases s <;> rfl
  | inf s => cases b with
    | nan | fin => cases s <;> rfl
    | inf s' => cases s <;> cases s' <;> rfl
  | fin s m e => cases b with
    | nan => rfl
    | inf s' => cases s' <;> rfl
    | fin s' m' e' =>
      by_cases hm : m = 0 <;> by_cases hm' : m' = 0
      · simp [Number.cmp, hm, hm']
      · cases s' <;> simp [Number.cmp, hm, hm']
      · cases s <;> simp [Number.cmp, hm, hm']
      · cases s <;> cases s' <;> simp [Number.cmp, hm, hm', cmpMag_swap]

/-- Less is asymmetric, so no number is less than itself. -/
theorem Number.lt_asymm {a b : Number} (h : a.lt b = true) : b.lt a = false := by
  have less : a.cmp b = .lt := by simp_all [Number.lt]
  simp [Number.lt, ← Number.cmp_swap a b, less]

theorem Number.lt_irrefl (a : Number) : a.lt a = false := by
  cases less : a.lt a with
  | false => rfl
  | true => exact less.symm.trans (Number.lt_asymm less)

/-- Settles O22: zeros compare equal by `Number.cmp_of_isZero`, and each comparison tests for NaN first. -/
theorem comparisonsOfZerosAndNan : Obligations.ComparisonsOfZerosAndNan := by
  unfold Obligations.ComparisonsOfZerosAndNan
  refine ⟨fun a b ha hb => ?_, fun a b h => ⟨Number.eqv_of_isNan h, Number.lt_of_isNan h, Number.lt_of_isNan h.symm⟩⟩
  simp [Number.eqv, Number.lt, Number.isNan_of_isZero ha, Number.isNan_of_isZero hb, Number.cmp_of_isZero ha hb,
    Number.cmp_of_isZero hb ha]

/-! ## Maximum and minimum -/

theorem Number.max_of_isNan {a b : Number} (h : a.isNan = true ∨ b.isNan = true) : a.max b = .nan := by
  simp [Number.max, h]

theorem Number.min_of_isNan {a b : Number} (h : a.isNan = true ∨ b.isNan = true) : a.min b = .nan := by
  simp [Number.min, h]

/-- Of two zeros the maximum is −0 only where both are. -/
theorem Number.max_of_isZero {a b : Number} (ha : a.isZero = true) (hb : b.isZero = true) : a.max b = .fin (a.sign && b.sign) 0 0 := by
  simp [Number.max, ha, hb, Number.isNan_of_isZero]

/-- Of two zeros the minimum is +0 only where both are. -/
theorem Number.min_of_isZero {a b : Number} (ha : a.isZero = true) (hb : b.isZero = true) : a.min b = .fin (a.sign || b.sign) 0 0 := by
  simp [Number.min, ha, hb, Number.isNan_of_isZero]

section
variable {a b : Number} (ha : a.isNan = false) (hb : b.isNan = false) (hz : ¬ (a.isZero = true ∧ b.isZero = true))
include ha hb hz

theorem Number.max_eq_ite : a.max b = if a.lt b then b else a := by simp [Number.max, ha, hb, hz]

theorem Number.min_eq_ite : a.min b = if b.lt a then b else a := by simp [Number.min, ha, hb, hz]

/-- Apart from NaN and two zeros the maximum is an operand that is not less than either. -/
theorem Number.max_spec : (a.max b = a ∨ a.max b = b) ∧ (a.max b).lt a = false ∧ (a.max b).lt b = false := by
  rw [Number.max_eq_ite ha hb hz]
  cases less : a.lt b with
  | true => simp [Number.lt_asymm less, Number.lt_irrefl]
  | false => simp [less, Number.lt_irrefl]

/-- Apart from NaN and two zeros the minimum is an operand that neither is less than. -/
theorem Number.min_spec : (a.min b = a ∨ a.min b = b) ∧ a.lt (a.min b) = false ∧ b.lt (a.min b) = false := by
  rw [Number.min_eq_ite ha hb hz]
  cases less : b.lt a with
  | true => simp [Number.lt_asymm less, Number.lt_irrefl]
  | false => simp [less, Number.lt_irrefl]

end

/-- A fold of a function that answers NaN for a NaN on either side is NaN where one is met. -/
theorem foldl_isNan {f : Number → Number → Number} (nan : ∀ {a b : Number}, a.isNan = true ∨ b.isNan = true → f a b = .nan)
    (l : List Number) (a : Number) (h : (a :: l).any Number.isNan = true) : (l.foldl f a).isNan = true := by
  induction l generalizing a with
  | nil => simpa using h
  | cons b l ih =>
    apply ih
    rw [List.any_cons, List.any_cons, ← Bool.or_assoc, Bool.or_eq_true, Bool.or_eq_true] at h
    rcases h with h | h
    · simp [nan h, Number.isNan]
    · simp [h]

/-- Settles O21. -/
theorem maximumAndMinimum : Obligations.MaximumAndMinimum := by
  unfold Obligations.MaximumAndMinimum
  refine ⟨fun a b h => ⟨Number.max_of_isNan h, Number.min_of_isNan h⟩, fun a b ha hb signs => ?_, fun a b ha hb hz => ?_,
    fun l a first seed sto rnd => ⟨rfl, rfl⟩, fun l a h => ⟨foldl_isNan Number.max_of_isNan l a h, foldl_isNan Number.min_of_isNan l a h⟩,
    rfl⟩
  · rw [Number.max_of_isZero ha hb, Number.min_of_isZero ha hb]
    revert signs
    cases a.sign <;> cases b.sign <;> simp [Number.isZero, Number.sign]
  · obtain ⟨maxOf, maxA, maxB⟩ := Number.max_spec ha hb hz
    obtain ⟨minOf, minA, minB⟩ := Number.min_spec ha hb hz
    exact ⟨maxOf, maxA, maxB, minOf, minA, minB⟩

end Sys2Proof.Machine

/-! Element formats: every pattern that is no NaN encodes back from the number it decodes to (R48-R52, R60). -/

namespace Sys2Proof.Machine

/-! ## Fields of a pattern -/

/-- A pattern is its sign bit, its exponent field and its mantissa field. -/
theorem pattern_eq_fields {eb mb w : Nat} (h : w < 2 ^ (eb + mb + 1)) :
    w = b2n (bitAt w (eb + mb)) * 2 ^ (eb + mb) + ((w >>> mb) % 2 ^ eb * 2 ^ mb + w % 2 ^ mb) := by
  have low : (w >>> mb) % 2 ^ eb * 2 ^ mb + w % 2 ^ mb = w % 2 ^ (eb + mb) := by
    rw [Nat.shiftRight_eq_div_pow, Nat.add_comm eb mb, Nat.pow_add, Nat.mod_mul, Nat.mul_comm, Nat.add_comm]
  have top : b2n (bitAt w (eb + mb)) = w / 2 ^ (eb + mb) := by
    have small : w / 2 ^ (eb + mb) < 2 := by
      rw [Nat.div_lt_iff_lt_mul (Nat.two_pow_pos _)]
      omega
    unfold b2n bitAt
    rw [Nat.shiftRight_eq_div_pow]
    generalize w / 2 ^ (eb + mb) = d at small
    split <;> simp_all <;> omega
  rw [low, top, Nat.mul_comm]
  exact (Nat.div_add_mod ..).symm

/-! ## Floating formats -/

/-- A magnitude already in units of the spacing is not rounded. -/
theorem roundUnits_self (rnd : Rnd) (m : Nat) (e : Int) : roundUnits rnd m e e = m := by
  simp [roundUnits, alignTo]

/-- A subnormal magnitude has the least spacing, and its pattern is its mantissa field. -/
theorem encodeFin_subnormal {eb mb : Nat} {bias : Int} {ma : Nat} (pos : ma ≠ 0) (lt : ma < 2 ^ mb) :
    encodeFin eb mb bias ma (1 - bias - mb) = ma := by
  have log : ma.log2 < mb := (Nat.log2_lt pos).2 lt
  have least : spacing (some (mb + 1)) (1 - bias - mb) ma (1 - bias - mb) = 1 - bias - mb := by
    simp only [spacing]
    omega
  have carry : ma ≠ 2 ^ (mb + 1) := by rw [Nat.pow_succ]; omega
  simp only [encodeFin, pos, least, roundUnits_self, carry, lt, if_false, if_true]

/-- A normal magnitude has the spacing of its last mantissa bit, and its pattern is its exponent field and its mantissa field. -/
theorem encodeFin_normal {eb mb : Nat} {bias : Int} {ex ma : Nat} (pos : ex ≠ 0) (hex : ex < 2 ^ eb) (lt : ma < 2 ^ mb) :
    encodeFin eb mb bias (2 ^ mb + ma) (ex - bias - mb) = ex * 2 ^ mb + ma := by
  have ne : 2 ^ mb + ma ≠ 0 := by have := Nat.two_pow_pos mb; omega
  have log : (2 ^ mb + ma).log2 = mb := by
    rw [Nat.log2_eq_iff ne, Nat.pow_succ]
    omega
  have last : spacing (some (mb + 1)) (1 - bias - mb) (2 ^ mb + ma) (ex - bias - mb) = ex - bias - mb := by
    simp only [spacing, log]
    omega
  have carry : 2 ^ mb + ma ≠ 2 ^ (mb + 1) := by rw [Nat.pow_succ]; omega
  have unbiased : ((ex : Int) - bias - mb + bias + mb).toNat = ex := by omega
  have notSub : ¬ 2 ^ mb + ma < 2 ^ mb := Nat.not_lt.2 (Nat.le_add_right ..)
  simp only [encodeFin, ne, last, roundUnits_self, carry, notSub, unbiased, Nat.mod_eq_of_lt hex, Nat.add_sub_cancel_left, if_false]

/-- What a pattern without a special value decodes to: its sign, and a magnitude that encodes to the pattern's exponent and mantissa. -/
theorem decodeFin_spec (eb mb : Nat) (bias : Int) (w : Nat) :
    ∃ m e, decodeFin eb mb bias w = .fin (bitAt w (eb + mb)) m e ∧
      encodeFin eb mb bias m e = (w >>> mb) % 2 ^ eb * 2 ^ mb + w % 2 ^ mb := by
  have lt : w % 2 ^ mb < 2 ^ mb := Nat.mod_lt _ (Nat.two_pow_pos _)
  by_cases hex : (w >>> mb) % 2 ^ eb = 0
  · by_cases hma : w % 2 ^ mb = 0
    · exact ⟨0, 0, by simp [decodeFin, hex, hma], by simp [encodeFin, hex, hma]⟩
    · exact ⟨w % 2 ^ mb, 1 - bias - mb, by simp [decodeFin, hex, hma], by rw [encodeFin_subnormal hma lt, hex, Nat.zero_mul, Nat.zero_add]⟩
  · exact ⟨2 ^ mb + w % 2 ^ mb, _, by simp [decodeFin, hex], encodeFin_normal hex (Nat.mod_lt _ (Nat.two_pow_pos _)) lt⟩

/-- The width of a floating format is that of its sign, exponent and mantissa fields. -/
theorem widthOf_float : ∀ code < 11, ∀ scaled, (fmtOf code scaled).isInt = false →
    widthOf code = (floatFields code).1 + (floatFields code).2.1 + 1 := by
  decide

/-- A floating pattern decodes to NaN or to a number that encodes to it. -/
theorem float_roundTrip {code w : Nat} {scaled : Bool} (hcode : code < 11) (float : (fmtOf code scaled).isInt = false)
    (hw : w < 2 ^ widthOf code) :
    decodeElem code scaled w = .nan ∨
      (decodeElem code scaled w).isNan = false ∧ encodeElem code scaled (decodeElem code scaled w) = w := by
  have width := widthOf_float code hcode scaled float
  obtain ⟨⟨eb, mb, bias⟩, fields⟩ : ∃ x, floatFields code = x := ⟨_, rfl⟩
  rw [fields] at width
  rw [width] at hw
  have parts := pattern_eq_fields hw
  simp only [decodeElem, float, fields, Bool.false_eq_true, if_false]
  split
  case isTrue special =>
    have top : (w >>> mb) % 2 ^ eb = 2 ^ eb - 1 := of_decide_eq_true (Bool.and_eq_true_iff.1 special).2
    split
    case isTrue zero =>
      right
      refine ⟨rfl, ?_⟩
      rw [top, zero] at parts
      simp only [encodeElem, width, fields, Nat.add_sub_cancel]
      exact parts.symm
    case isFalse => exact .inl rfl
  case isFalse =>
    split
    case isTrue => exact .inl rfl
    case isFalse =>
      obtain ⟨m, e, dec, enc⟩ := decodeFin_spec eb mb bias w
      right
      rw [dec]
      refine ⟨rfl, ?_⟩
      simp only [encodeElem, float, width, fields, Bool.false_eq_true, if_false, Nat.add_sub_cancel, enc]
      exact parts.symm

/-! ## Integer formats -/

/-- An integer read from a two's complement pattern has that pattern. -/
theorem unsigned_signed {w v : Nat} (h : v < 2 ^ w) : unsigned w (signed w v) = v := by
  have cast : ((v : Int) % ((2 ^ w : Nat) : Int)) = v := Int.emod_eq_of_lt (by omega) (by omega)
  unfold unsigned signed
  split
  · rw [cast, Int.toNat_natCast]
  · rw [Int.sub_emod_right, cast, Int.toNat_natCast]

/-- The integer whose sign and magnitude a number holds. -/
theorem ite_neg_natAbs (i : Int) : (if decide (i < 0) = true then -(i.natAbs : Int) else i.natAbs) = i := by
  split
  case isTrue neg => have := of_decide_eq_true neg; omega
  case isFalse pos => have := of_decide_eq_false (Bool.not_eq_true _ ▸ pos); omega

/-- The exponent of an integer element is the spacing of its format: the implicit factor where it is scaled (R60). -/
theorem emin_int : ∀ code < 11, ∀ scaled, (fmtOf code scaled).isInt = true →
    (fmtOf code scaled).emin = if scaled then implicitExp code else 0 := by
  decide

/-- An integer pattern decodes to a number that encodes to it. -/
theorem int_roundTrip {code w : Nat} {scaled : Bool} (hcode : code < 11) (int : (fmtOf code scaled).isInt = true)
    (hw : w < 2 ^ widthOf code) :
    (decodeElem code scaled w).isNan = false ∧ encodeElem code scaled (decodeElem code scaled w) = w := by
  simp only [decodeElem, encodeElem, int, if_true, ← emin_int code hcode scaled int, roundUnits_self, ite_neg_natAbs,
    Nat.mod_eq_of_lt hw, unsigned_signed hw, Number.isNan, and_self]

/-- Settles O11: the formats are integers (`int_roundTrip`) or floating ones (`float_roundTrip`). -/
theorem elementRoundTrip : Obligations.ElementRoundTrip := by
  unfold Obligations.ElementRoundTrip
  intro code scaled w hcode _ hw
  cases int : (fmtOf code scaled).isInt with
  | true => exact .inl (int_roundTrip hcode int hw)
  | false =>
    rcases float_roundTrip hcode int hw with nan | back
    · exact .inr (by rw [nan]; exact ⟨rfl, rfl⟩)
    · exact .inl back

end Sys2Proof.Machine

/-! Data sent for a command whose handle is 0 (R409): the model marks the waiting blocks of such data with the handle's low 32 bits, where 0
stands for no owner, so that a completion that waits for credit counts as data of handle 0. -/

namespace Sys2Proof.Machine

/-- READY with a complete slot 0 of one block. The next handle of session 0 is 0, a TRACE_READ of it has sent its data, and the control port
holds one credit for the lane of completions and one for that of shipped slots. -/
def shipsUnderHandleZero : State :=
  { board := { powerGood := true, resetN := true, firstStart := false }, glb := { mstate := .ready, order := 15 },
    ports := [(32, { st := 2, credits := [(1, 1), (50, 1)] })],
    hci := { sessions := [(0, { isOpen := true, oper := true, next := 0 })],
             handles := [{ handle := 7, sess := 0, tag := 8, opcode := 0x52, accepted := 0, sending := some (32, 50) }] },
    upd := { slots := [(0, le 4 0x5301 ++ le 2 0 ++ le 2 1)] } }

/-- SNAPSHOT_SHIP of slot 0 to the session. -/
def shipSlotZero : Cmd := { sess := 0, tag := 9, inlineLen := 8, bulkLen := 0, args := le 8 0 }

/-- The module with the ship's data handed to the port, before what is complete is told. -/
def shipSent (u : State) (h : Hnd) : State :=
  let l := chunksOf (shipsUnderHandleZero.slot 0)
  let x := (u.readSlot {} 0).1
  (x.setHnd { h with arg := 0, sending := some (32, 50), result := le 4 l.length ++ le 8 (shipsUnderHandleZero.slot 0).length }).sendOwned
    h.handle 32 50 (l.map fun m => .bulk h.sess 25 m)

/-- The ship is admitted under handle 0, its slot is read, and no block of its data waits. -/
theorem shipSlotZero_admitted :
    (shipsUnderHandleZero.admitted shipSlotZero 0x21).any (fun x =>
      x.2.opcode == 0x21 && !(x.1.readSlot {} 0).2 && !(shipSent x.1 x.2).unsent 32 x.2.handle) = true := by
  decide +kernel

/-- Whether the last step told the completion of a SNAPSHOT_SHIP. -/
def shipTold : Host.Outcome State Fault Refusal → Bool
  | .next t => t.out.any fun o => match o with
    | .completion c => c.opcode == 0x21
    | _ => false
  | _ => false

/-- The completion of the TRACE_READ, told first, finds no credit and waits; it counts as data of handle 0, and the ship is not complete. -/
theorem shipSlotZero_notTold : shipTold (exec (.snapshotShip ⟨shipSlotZero, {}⟩) shipsUnderHandleZero) = false := by
  decide +kernel

/-- Refutes O52: its clause on SNAPSHOT_SHIP to the session asks for the completion whenever no block of the data waits once the data is sent.
Under handle 0 it does not come here: the completion of another command, told first, waits for credit as a block without an owner, which the
model takes for data of handle 0. A session numbers its handles from 1 (R414), but the statement is of every state. -/
theorem not_snapshotsAreTakenWrittenAndShipped : ¬ Obligations.SnapshotsAreTakenWrittenAndShipped := by
  unfold Obligations.SnapshotsAreTakenWrittenAndShipped
  rintro ⟨-, -, -, ships, -⟩
  obtain ⟨⟨u, h⟩, admitted, facts⟩ := (Option.any_eq_true _ _).1 shipSlotZero_admitted
  simp only [Bool.and_eq_true, beq_iff_eq, Bool.not_eq_true'] at facts
  obtain ⟨⟨opcode, read⟩, gone⟩ := facts
  obtain ⟨toSession, -⟩ := ships shipsUnderHandleZero u shipSlotZero h {} admitted rfl rfl (by decide) (by decide) (by decide) 0 (by decide)
  obtain ⟨t, e, -, complete⟩ := toSession (by decide) read
  obtain ⟨l, out, told⟩ := complete gone
  have silent := shipSlotZero_notTold
  rw [e] at silent
  have loud : shipTold (.next t) = true := by
    refine List.any_eq_true.2 ⟨_, out ▸ List.mem_append_left _ told, ?_⟩
    simp [Hnd.completion, opcode]
  exact absurd loud (by simp [silent])

end Sys2Proof.Machine

/-! Statistics records on their way to the home region of their layer (R152, R155): what merging two of them gives, and what TALLY_RECORDS moves. -/

namespace Sys2Proof.Machine

/-! ## Merging records -/

theorem satAdd_comm (top a b : Nat) : satAdd top a b = satAdd top b a := by
  simp only [satAdd, Nat.add_comm]

theorem satAdd_assoc (top a b c : Nat) : satAdd top (satAdd top a b) c = satAdd top a (satAdd top b c) := by
  simp only [satAdd]
  omega

theorem addHist_comm (h k : List Nat) : addHist h k = addHist k h := List.zipWith_comm_of_comm (satAdd_comm max40)

theorem addHist_assoc (h k l : List Nat) : addHist (addHist h k) l = addHist h (addHist k l) := by
  unfold addHist
  induction h generalizing k l with
  | nil => simp
  | cons a h ih => cases k <;> cases l <;> simp [satAdd_assoc, ih]

theorem TallyRec.merge_comm (a b : TallyRec) : a.merge b = b.merge a := by
  simp only [TallyRec.merge, satAdd_comm, addHist_comm, Nat.max_comm]

theorem TallyRec.merge_assoc (a b c : TallyRec) : (a.merge b).merge c = a.merge (b.merge c) := by
  simp only [TallyRec.merge, satAdd_assoc, addHist_assoc, Nat.max_assoc]

/-! ## TALLY_RECORDS -/

/-- A region's own records without those of a layer, which it has forwarded (R155). -/
def Region.forwarded (g : Region) (layer : Nat) : Region := { g with tally := g.tally.filter fun e => keyLayer e.1 != layer }

/-- A region that has received another's records of a layer, each under its key (R155). -/
def Region.receiving (g : Region) (layer from' : Nat) (recs : Map TallyRec) : Region :=
  { g with inbox := g.inbox ++ (recs.filter fun e => keyLayer e.1 == layer).map fun e => (from', e.1, e.2) }

/-- In the layer's home region the records stay where they were merged. -/
theorem execTallyRecords_home (s : State) (layer : Nat) :
    exec (.tallyRecords (s.home layer) layer) s = .next (s.modRgn (s.home layer) (·.mergeInbox layer)) :=
  if_pos rfl

/-- In another region they are forwarded to the home region. -/
theorem execTallyRecords_away {s : State} {r layer : Nat} (away : s.home layer ≠ r) :
    exec (.tallyRecords r layer) s =
      .next (((s.modRgn r (·.mergeInbox layer)).modRgn r (·.forwarded layer)).modRgn (s.home layer)
        (·.receiving layer r ((s.rgn r).mergeInbox layer).tally)) := by
  refine (if_neg away).trans ?_
  simp only [State.rgn_modRgn, if_true]
  rfl

theorem Region.keyLayer_of_mem_inbox_mergeInbox {g : Region} {layer : Nat} : ∀ e ∈ (g.mergeInbox layer).inbox, keyLayer e.2.1 ≠ layer := by
  intro e he
  simpa using (List.mem_filter.1 he).2

/-- Settles O24: merging is commutative and associative field by field, and a region is either the layer's home or it is not. -/
theorem recordsReachTheirHome : Obligations.RecordsReachTheirHome := by
  unfold Obligations.RecordsReachTheirHome
  refine ⟨fun s r layer => ?_, fun a b c _ _ _ => ⟨a.merge_comm b, a.merge_assoc b c⟩⟩
  by_cases home : s.home layer = r
  · subst home
    refine ⟨_, execTallyRecords_home s layer, ?_, fun _ => ?_, fun away => absurd rfl away, fun r' other _ => ?_⟩
    · simpa using Region.keyLayer_of_mem_inbox_mergeInbox
    · simp
    · simp [other]
  · have back : r ≠ s.home layer := fun h => home h.symm
    refine ⟨_, execTallyRecords_away home, ?_, fun h => absurd h home, fun _ => ⟨?_, ?_⟩, fun r' other notHome => ?_⟩
    · simpa [back, Region.forwarded] using Region.keyLayer_of_mem_inbox_mergeInbox
    · simp [back, Region.forwarded]
    · simp [home, Region.receiving]
    · simp [other, notHome]

end Sys2Proof.Machine

/-! The verdict of a step (R169, R170, R279, R282, R304, R323): it reaches the module, is noted, turns the step, and what follows leaves the
live buffer, the step and the epoch as they are. -/

namespace Sys2Proof.Machine

/-! ## Folds -/

/-- What every step of a fold keeps, the fold keeps. -/
theorem foldl_keeps_eq {α β : Type} (p : State → β) {f : State → α → State} (keep : ∀ s a, p (f s a) = p s) (l : List α) (s : State) :
    p (l.foldl f s) = p s := by
  induction l generalizing s with
  | nil => rfl
  | cons a l ih => rw [List.foldl_cons, ih, keep]

/-! ## Messages of Drover -/

/-- Taking a message from its port changes the ports alone. -/
theorem State.taken_eq (s : State) (port : Nat) (bytes : List Byte) : ∃ ports, s.taken port bytes = { s with ports := ports } := by
  simp only [State.taken]
  repeat' split
  all_goals exact ⟨_, rfl⟩

/-- A port that is up delivers at once. -/
theorem State.heldAt_of_portUp {s : State} {p : Nat} (up : s.portUp p = true) : s.heldAt p = false := by
  have awake : s.pwr.state = 0 := by simp_all [State.portUp]
  simp [State.heldAt, awake]

/-- A message that is accepted reaches the meaning of its type (R300, R302, R303, R324). -/
theorem State.droverIn_of_accepts {s : State} {port type : Nat} {m : DMsg} (ok : s.accepts port m type = true) (run : State → State) (i : Instr) :
    s.droverIn port m type run i = run (s.taken port (DMsgBytes m)) := by
  simp only [State.accepts, Bool.and_eq_true, Bool.not_eq_true', beq_iff_eq] at ok
  obtain ⟨⟨⟨⟨⟨⟨type, up⟩, running⟩, good⟩, mine⟩, intact⟩, fresh⟩ := ok
  obtain ⟨ports, taken⟩ := s.taken_eq port (DMsgBytes m)
  have here : (!m.mcast && m.dst != s.drv.device) = false := by rw [bne, ← Bool.not_or, mine]; rfl
  have good' : ({ s with ports := ports } : State).badMsg m = false := good
  have fresh' : ({ s with ports := ports } : State).stale m = false := fresh
  simp [State.droverIn, taken, type, up, State.heldAt_of_portUp up, running, good', here, intact, fresh']

/-! ## Where the module stands between verdicts -/

/-- What a verdict turns (R169): whether one is awaited, the live parameter buffer and the committed updates, the step with its executions,
the squash that waits, and Drover's epoch with the votes held. -/
structure Turn where
  awaiting : Bool
  live : Nat
  count : Nat
  step : Nat
  first : Bool
  replays : Nat
  squash : Option (Nat × Nat)
  epoch : Nat
  votes : List Vote

def State.turn (s : State) : Turn :=
  { awaiting := s.upd.awaiting, live := s.upd.live, count := s.upd.count, step := s.gov.step, first := s.gov.first,
    replays := s.gov.replays, squash := s.gov.squash, epoch := s.drv.epoch, votes := s.drv.votes }

/-- What any verdict does: none is awaited any more, its epoch holds and the votes are gone. -/
def Turn.noted (x : Turn) (v : Verdict) : Turn := { x with awaiting := false, epoch := v.epoch, votes := [] }

/-- A commit of step `n`: the other buffer is live, and step n + 1 is executed for the first time. -/
def Turn.committed (x : Turn) (n : Nat) : Turn :=
  { x with live := 1 - x.live, count := x.count + 1, step := n + 1, first := true, replays := 0 }

/-- A replay or skip of step `n`: the buffer and the count stay, the run-ahead work is squashed. -/
def Turn.squashed (x : Turn) (n : Nat) (skip : Bool) : Turn :=
  { x with step := if skip then n + 1 else n, first := skip, replays := if skip then 0 else x.replays + 1,
           squash := some (n, if skip then 2 else 1) }

/-- A verdict: 0 commits, 1 replays, any other number skips. -/
def Turn.turned (x : Turn) (v : Verdict) : Turn :=
  match v.verdict with
  | 0 => x.committed v.step
  | 1 => x.squashed v.step false
  | _ => x.squashed v.step true

theorem Turn.turned_of_commit {x : Turn} {v : Verdict} (h : v.verdict = 0) : x.turned v = x.committed v.step := by
  simp only [Turn.turned, h]

theorem Turn.turned_of_replay {x : Turn} {v : Verdict} (h : v.verdict = 1) : x.turned v = x.squashed v.step false := by
  simp only [Turn.turned, h]

theorem Turn.turned_of_skip {x : Turn} {v : Verdict} (h : 2 ≤ v.verdict) : x.turned v = x.squashed v.step true := by
  obtain ⟨k, kind⟩ := Nat.exists_eq_add_of_le' h
  simp only [Turn.turned, kind]

/-- However a step is turned, what was noted of the verdict stays. -/
theorem Turn.turned_keeps_noted (x : Turn) (v : Verdict) :
    (x.turned v).awaiting = x.awaiting ∧ (x.turned v).epoch = x.epoch ∧ (x.turned v).votes = x.votes := by
  unfold Turn.turned
  split <;> exact ⟨rfl, rfl, rfl⟩

theorem Same.turn_eq {l : List Part} {s t : State} (h : Same l s t) (apart : ∀ p ∈ [Part.gov, .upd, .drv], p ∉ l := by decide) :
    t.turn = s.turn := by
  have gov : t.gov = s.gov := h.parts .gov (apart _ (by decide))
  have upd : t.upd = s.upd := h.parts .upd (apart _ (by decide))
  have drv : t.drv = s.drv := h.parts .drv (apart _ (by decide))
  simp only [State.turn, gov, upd, drv]

theorem State.fields_of_turn_eq {t : State} {x : Turn} (h : t.turn = x) :
    t.upd.live = x.live ∧ t.upd.count = x.count ∧ t.gov.step = x.step ∧ t.gov.first = x.first ∧ t.gov.replays = x.replays ∧
      t.gov.squash = x.squash := by
  subst h
  exact ⟨rfl, rfl, rfl, rfl, rfl, rfl⟩

/-! ## The verdict noted -/

theorem State.turn_waitRec (s : State) (region : Nat) (r : TRec) : (s.waitRec region r).turn = s.turn :=
  Same.turn_eq (l := [.regions, .trc, .counters]) (by simp [Same.refl])

theorem State.turn_trace (s : State) (region : Nat) (r : TRec) : (s.trace region r).turn = s.turn :=
  Same.turn_eq (l := [.regions, .trc, .counters]) (by simp [Same.refl])

theorem State.turn_rangeVerdict (s : State) (n verdict : Nat) : (s.rangeVerdict n verdict).turn = s.turn :=
  Same.turn_eq (l := [.eng]) (by simp [Same.refl])

theorem State.turn_noteVerdict (s : State) (v : Verdict) : (s.noteVerdict v).turn = s.turn.noted v :=
  congrArg (Turn.noted · v)
    ((State.turn_rangeVerdict ..).trans <| (State.turn_trace ..).trans <| State.turn_waitRec ..)

/-! ## The step turned -/

theorem State.turn_commitBlocks (s : State) : s.commitBlocks.turn = s.turn :=
  foldl_keeps_eq State.turn (by intros; rfl) _ s

theorem State.turn_commitQueue (s : State) (q n : Nat) : (s.commitQueue q n).turn = s.turn :=
  Same.turn_eq (l := [.regions, .queues]) (by simp [Same.refl])

theorem State.turn_sealStepDone (s : State) (b : Nat) : (s.sealStepDone b).turn = s.turn :=
  Same.turn_eq (l := [.blocks, .regions, .queues, .tensors, .counters]) (by simp [Same.refl])

theorem State.turn_commitStep (s : State) (n : Nat) : (s.commitStep n).turn = s.turn.committed n := by
  unfold State.commitStep
  rw [foldl_keeps_eq State.turn, State.turn_commitBlocks, foldl_keeps_eq State.turn]
  · rfl
  · exact fun s q => s.turn_commitQueue q.1 n
  · intro s b
    split
    · exact s.turn_sealStepDone b
    · rfl

theorem State.turn_dropEpoch (s : State) (n : Nat) : (s.dropEpoch n).turn = s.turn := by
  unfold State.dropEpoch
  rw [foldl_keeps_eq State.turn, foldl_keeps_eq State.turn]
  · rfl
  · intros; rfl
  · exact fun s _ => foldl_keeps_eq State.turn (by intros; rfl) _ s

theorem State.turn_squashStep (s : State) (n : Nat) (skip : Bool) : (s.squashStep n skip).turn = s.turn.squashed n skip := by
  rw [State.squashStep, State.turn_dropEpoch]
  cases skip <;> rfl

theorem State.turn_turnStep (s : State) (v : Verdict) : (s.turnStep v).turn = s.turn.turned v := by
  have counted (f : Nat → Region → Region) : ([0, 1, 2, 3].foldl (fun (s : State) r => s.modRgn r (f r)) s).turn = s.turn :=
    foldl_keeps_eq State.turn (by intros; rfl) _ s
  rcases kind : v.verdict with _ | _ | _ <;> simp only [State.turnStep, Turn.turned, kind]
  · exact s.turn_commitStep v.step
  · rw [State.turn_squashStep, counted]
  · rw [State.turn_squashStep, counted]

/-! ## What follows -/

theorem State.turn_raise (s : State) (code src ctx : Nat) : (raise s code src ctx).turn = s.turn :=
  Same.turn_eq (l := [.flash, .regions, .err, .trc, .counters, .fresh]) (by simp [Same.refl])

theorem State.turn_raiseBaseline (s : State) (eff : Nat) : (s.raiseBaseline eff).turn = s.turn :=
  foldl_keeps_eq State.turn (by intros; rfl) _ s

theorem State.turn_ledger (s : State) (m : Map (Nat × Nat)) (add : Bool) : (s.ledger m add).turn = s.turn :=
  Same.turn_eq (l := [.blocks]) (by simp [Same.refl])

theorem State.turn_sizeLedger (s : State) (e : PrecEntry) (k : GovK) (code : Nat) : (s.sizeLedger e k code).1.turn = s.turn :=
  Same.turn_eq (l := [.blocks]) (by simp [Same.refl])

theorem State.turn_takeDecision (s : State) (eff : Nat) (raised : Bool) (d : Decision) : (s.takeDecision eff raised d).turn = s.turn := by
  simp only [State.takeDecision]
  split
  · split
    · show State.turn (if _ then _ else _) = _
      split
      · rfl
      · exact State.turn_ledger ..
    · exact State.turn_ledger ..
    · exact State.turn_sizeLedger ..
    · exact State.turn_sizeLedger ..
    · rfl
  · rfl

theorem State.turn_takePending (s : State) (l : List Decision) : (s.takePending l).turn = s.turn := by
  unfold State.takePending
  rw [foldl_keeps_eq State.turn]
  · rfl
  · intro s e
    exact State.turn_raise ..

theorem State.turn_takeDecisions (s : State) (v : Verdict) : (s.takeDecisions v).turn = s.turn := by
  have entered (u : State) : ((v.decisions.filter fun d => d.kind != 8).foldl
      (fun s d => s.takeDecision v.effect (bitAt v.flags 1) d) u).turn = u.turn :=
    foldl_keeps_eq State.turn (fun s d => s.turn_takeDecision ..) _ u
  simp only [State.takeDecisions]
  split
  · exact (entered _).trans (State.turn_raiseBaseline ..)
  · exact (State.turn_takePending ..).trans (entered _)

theorem State.turn_snapMark (s : State) (step : Nat) : (s.snapMark step).turn = s.turn := by
  simp only [State.snapMark, State.snapFollows]
  repeat' split
  all_goals rfl

theorem State.turn_joinEntry {s t : State} {fold step epoch layer chunk member : Nat}
    (joined : s.joinEntry fold step epoch layer chunk member = some t) : t.turn = s.turn := by
  simp only [State.joinEntry] at joined
  split at joined
  · cases joined
    rfl
  · split at joined
    · cases joined
    · split at joined
      · cases joined
      · cases joined
        rfl

theorem State.turn_grantHead (s : State) (m : DMsg) : (s.grantHead m).turn = s.turn :=
  Same.turn_eq (l := [.ports, .counters, .out]) (by simp [Same.refl])

theorem State.turn_admitHeads (s : State) : s.admitHeads.turn = s.turn := by
  unfold State.admitHeads
  split
  · rfl
  · refine foldl_keeps_eq State.turn (fun s m => ?_) _ s
    split
    · next joined =>
      have entered := State.turn_joinEntry joined
      exact (State.turn_grantHead ..).trans entered
    · rfl

/-- A verdict of the oldest step that awaits one is noted and turns the step; what follows leaves where the module stands as it is. -/
theorem State.turn_applyVerdict {s : State} {v : Verdict} (awaits : s.upd.awaiting = true) (oldest : v.step = s.gov.step) :
    (s.applyVerdict v).turn = (s.turn.noted v).turned v := by
  simp only [State.applyVerdict, oldest, awaits, bne_self_eq_false, Bool.not_true, Bool.or_self, Bool.false_eq_true, if_false,
    State.turn_admitHeads]
  split <;> simp only [State.turn_snapMark, State.turn_takeDecisions, State.turn_turnStep, State.turn_noteVerdict]

/-- Settles O27: the verdict reaches `State.applyVerdict`, whose parts but for the note and the turn of the step keep what `Turn` names. -/
theorem verdictTurnsTheStep : Obligations.VerdictTurnsTheStep := by
  unfold Obligations.VerdictTurnsTheStep
  intro s port m ok active awaits oldest
  obtain ⟨u, same, run⟩ : ∃ u : State, Same [.ports, .counters, .out] s u ∧
      exec (.verdict port m) s = .next (if u.flockActive then u.applyVerdict (readVerdict m) else u) :=
    ⟨_, by simp [Same.refl], congrArg Host.Outcome.next (State.droverIn_of_accepts ok _ _)⟩
  have glb : u.glb = s.glb := same.parts .glb (by decide)
  have err : u.err = s.err := same.parts .err (by decide)
  have upd : u.upd = s.upd := same.parts .upd (by decide)
  have gov : u.gov = s.gov := same.parts .gov (by decide)
  have runs : u.flockActive = true := by simpa only [State.flockActive, glb, err] using active
  rw [if_pos runs] at run
  have turn : (u.applyVerdict (readVerdict m)).turn = (s.turn.noted (readVerdict m)).turned (readVerdict m) :=
    same.turn_eq ▸ State.turn_applyVerdict (upd ▸ awaits) (oldest.trans (congrArg Gov.step gov.symm))
  have step : (readVerdict m).step = s.gov.step := oldest
  obtain ⟨awaiting, epoch, votes⟩ := (s.turn.noted (readVerdict m)).turned_keeps_noted (readVerdict m)
  refine ⟨_, run, (congrArg Turn.awaiting turn).trans awaiting, (congrArg Turn.epoch turn).trans epoch,
    (congrArg Turn.votes turn).trans votes, fun commit => ?_, fun replay => ?_, fun skip => ?_⟩
  · rw [Turn.turned_of_commit commit, step] at turn
    exact State.fields_of_turn_eq turn
  · rw [Turn.turned_of_replay replay, step] at turn
    exact State.fields_of_turn_eq turn
  · rw [Turn.turned_of_skip skip, step] at turn
    exact State.fields_of_turn_eq turn

end Sys2Proof.Machine

/-! Changes of format that take effect, and the squash after a replay or skip (R173, R176, R178, R235, R534). -/

namespace Sys2Proof.Machine

/-! ## One change -/

theorem State.layer_role_of_policy {s : State} {layer role : Nat} {e : PrecEntry} (h : s.policy layer role = some e) :
    e.layer = layer ∧ e.role = role := by
  simpa using List.find?_some h

theorem State.gov_relayTensors (s : State) (step fw initSc : Nat) (l : List Nat) :
    (l.foldl (fun s t => s.relayTensor step fw initSc t) s).gov = s.gov :=
  foldl_keeps_eq State.gov (by intros; rfl) l s

/-- A governed pair's entry after it took a class and a size. -/
theorem State.entry_takeFormat {s : State} {e : PrecEntry} {k : GovK} (found : find? (govKey e.layer e.role) s.gov.ks = some k)
    (step cls size : Nat) :
    ∃ k', find? (govKey e.layer e.role) (s.takeFormat step e cls size).gov.ks = some k' ∧ k'.cls = cls ∧ k'.size = size ∧
      k'.granted = false := by
  simp only [State.takeFormat, found, State.gov_relayTensors]
  exact ⟨_, find?_put_self .., rfl, rfl, rfl⟩

/-- A governed pair's entry after it took λ. -/
theorem State.entry_takeLambda {s : State} {e : PrecEntry} {k : GovK} (found : find? (govKey e.layer e.role) s.gov.ks = some k)
    (step v : Nat) :
    ∃ k', find? (govKey e.layer e.role) (s.takeLambda step e v).gov.ks = some k' ∧ k'.lambda = v ∧ k'.lambdaOld = k.lambda ∧
      k'.cls = k.cls ∧ k'.size = k.size := by
  simp only [State.takeLambda, found]
  exact ⟨_, find?_put_self .., rfl, rfl, rfl, rfl⟩

/-- What a decision makes of its pair's entry: its class (kinds 1 and 2), its size (3 and 4) or its λ (5). -/
def Decision.Gives (d : Decision) (k k' : GovK) : Prop :=
  (d.kind = 1 ∨ d.kind = 2 → k'.cls = classCode d.value ∧ k'.size = k.size ∧ k'.granted = false) ∧
  (d.kind = 3 ∨ d.kind = 4 → k'.cls = k.cls ∧ k'.size = d.value ∧ k'.granted = false) ∧
  (d.kind = 5 → k'.lambda = d.value ∧ k'.lambdaOld = k.lambda ∧ k'.cls = k.cls ∧ k'.size = k.size)

/-- A change of a governed pair gives the pair's entry what its decision names. -/
theorem State.entry_takeChange {s : State} {c : Change} {e : PrecEntry} {k : GovK} (policy : s.policy c.d.layer c.d.role = some e)
    (found : find? (govKey c.d.layer c.d.role) s.gov.ks = some k) :
    ∃ k', find? (govKey c.d.layer c.d.role) (s.takeChange c).gov.ks = some k' ∧ c.d.Gives k k' := by
  obtain ⟨layer, role⟩ := State.layer_role_of_policy policy
  simp only [State.takeChange, policy, found]
  rw [← layer, ← role] at found ⊢
  have format {u : State} (found : find? (govKey e.layer e.role) u.gov.ks = some k) {cls size : Nat}
      (gives : ∀ k' : GovK, k'.cls = cls ∧ k'.size = size ∧ k'.granted = false → c.d.Gives k k') :
      ∃ k', find? (govKey e.layer e.role) (u.takeFormat c.step e cls size).gov.ks = some k' ∧ c.d.Gives k k' :=
    (State.entry_takeFormat found c.step cls size).imp fun k' ⟨entry, took⟩ => ⟨entry, gives k' took⟩
  split
  case h_1 kind => exact format found fun _ took => by simp [Decision.Gives, kind, took]
  case h_2 kind => exact format (u := s.modRgn _ _) found fun _ took => by simp [Decision.Gives, kind, took]
  case h_3 kind => exact format (u := s.modRgn _ _) found fun _ took => by simp [Decision.Gives, kind, took]
  case h_4 kind => exact format (u := s.modRgn _ _) found fun _ took => by simp [Decision.Gives, kind, took]
  case h_5 kind =>
    obtain ⟨k', entry, took⟩ := State.entry_takeLambda found c.step c.d.value
    exact ⟨k', entry, by simp [Decision.Gives, kind, took]⟩
  case h_6 not1 not2 not3 not4 not5 =>
    have nothing (k' : GovK) : c.d.Gives k k' :=
      ⟨fun h => (h.elim not1 not2).elim, fun h => (h.elim not3 not4).elim, fun h => (not5 h).elim⟩
    split
    · exact format found fun k' _ => nothing k'
    · exact ⟨k, found, nothing k⟩

/-! ## The changes that are due -/

/-- The changes that wait, and the oldest step without a verdict. -/
def State.waiting (s : State) : List Change × Nat := (s.gov.changes, s.gov.step)

theorem State.waiting_takeFormat (s : State) (step : Nat) (e : PrecEntry) (cls size : Nat) :
    (s.takeFormat step e cls size).waiting = s.waiting := by
  simp only [State.takeFormat]
  split
  · rfl
  · simp only [State.waiting, State.gov_relayTensors]

theorem State.waiting_takeLambda (s : State) (step : Nat) (e : PrecEntry) (v : Nat) : (s.takeLambda step e v).waiting = s.waiting := by
  simp only [State.takeLambda]
  split <;> rfl

theorem State.waiting_takeChange (s : State) (c : Change) : (s.takeChange c).waiting = s.waiting := by
  simp only [State.takeChange]
  split
  · split
    case h_5 => exact State.waiting_takeLambda ..
    case h_6 =>
      split
      · exact State.waiting_takeFormat ..
      · rfl
    all_goals exact State.waiting_takeFormat ..
  · rfl

/-- The latest step that has begun on some block. -/
def State.begun (s : State) : Nat := s.hosting.foldl (fun a b => Nat.max a (s.blk b).step) s.gov.step

/-- FORMAT_CHANGE_EFFECT while no squash waits: the changes whose step has begun take effect, one after the other. -/
theorem execFormatChangeEffect_of_none {s : State} (free : s.gov.squash = none) :
    exec .formatChangeEffect s =
      .next ((s.gov.changes.filter fun c => c.step ≤ s.begun).foldl State.takeChange
        { s with gov := { s.gov with changes := s.gov.changes.filter fun c => s.begun < c.step } }) := by
  have late : (s.gov.changes.filter fun c => !decide (c.step ≤ s.begun)) = s.gov.changes.filter fun c => s.begun < c.step := by
    simp only [← decide_not, Nat.not_le]
  rw [← late]
  exact if_neg (by simp [free])

theorem execFormatChangeEffect_of_squash {s : State} (held : s.gov.squash ≠ none) : exec .formatChangeEffect s = .next s :=
  if_pos (Option.isSome_iff_ne_none.2 held)

/-! ## The pace of a block -/

/-- The step that a block runs, and whether it waits at SEAL STEP. -/
def State.pace (s : State) (b : Nat) : Nat × Bool := ((s.blk b).step, (s.blk b).sealWait)

theorem State.pace_modBlk (s : State) (b c : Nat) (f : Block → Block)
    (keep : ∀ x, (f x).step = x.step ∧ (f x).sealWait = x.sealWait := by exact fun _ => ⟨rfl, rfl⟩) : (s.modBlk b f).pace c = s.pace c := by
  by_cases same : c = b <;> simp [State.pace, same, keep]

theorem State.pace_modBlk_of_ne {b c : Nat} (other : c ≠ b) (s : State) (f : Block → Block) : (s.modBlk b f).pace c = s.pace c := by
  simp [State.pace, other]

theorem Same.pace_eq {l : List Part} {s t : State} (h : Same l s t) (b : Nat) (apart : Part.blocks ∉ l := by decide) : t.pace b = s.pace b := by
  have blocks : t.blocks = s.blocks := h.parts .blocks apart
  simp only [State.pace, State.blk, blocks]

theorem State.pace_tStore (s : State) (d : Desc) (a : Nat) (v : Byte) (b : Nat) : (s.tStore d a v).pace b = s.pace b := by
  unfold State.tStore
  split
  · exact State.pace_modBlk ..
  · rfl

theorem State.pace_tStoreBits (s : State) (d : Desc) (byte bit w v b : Nat) : (s.tStoreBits d byte bit w v).pace b = s.pace b :=
  foldl_keeps_eq (·.pace b) (fun s _ => s.pace_tStore ..) _ s

theorem State.pace_setUnit (s : State) (d : Desc) (u covered : Nat) (pois : Bool) (b : Nat) : (s.setUnit d u covered pois).pace b = s.pace b := by
  by_cases tier : d.tier = 0
  · simp only [State.setUnit, if_pos tier]
    exact State.pace_modBlk ..
  · simp only [State.setUnit, if_neg tier]
    rfl

theorem State.pace_countMemWrites (s : State) (m : Map (Nat × Bool)) (adds : Bool) (b : Nat) : (s.countMemWrites m adds).pace b = s.pace b :=
  Same.pace_eq (l := [.counters]) (by simp [Same.refl]) b

theorem State.pace_writePieces (s : State) (d : Desc) (ps : List Piece) (adds : Bool) (b : Nat) : (s.writePieces d ps adds).pace b = s.pace b := by
  have written : ((s.cover d ps).foldl (fun s (x : Nat × Nat × Bool) => s.setUnit d x.1 x.2.1 x.2.2)
      (ps.foldl (fun s p => s.tStoreBits d p.byte p.bit p.w p.v) s)).pace b = s.pace b := by
    rw [foldl_keeps_eq (·.pace b) (fun s _ => s.pace_setUnit ..), foldl_keeps_eq (·.pace b) (fun s _ => s.pace_tStoreBits ..)]
  simp only [State.writePieces]
  split
  · exact written
  · exact (State.pace_countMemWrites ..).trans written

theorem State.pace_restorePlan (s : State) (p : PlanSave) (b : Nat) : (s.restorePlan p).pace b = s.pace b := by
  simp only [State.restorePlan, State.setPlans]
  split
  · exact State.pace_writePieces ..
  · exact (State.pace_writePieces ..).trans (State.pace_writePieces ..)

theorem State.pace_discard (s : State) (b n c : Nat) : (s.discard b n).pace c = s.pace c := by
  unfold State.discard
  split
  · rfl
  · exact (State.pace_modBlk ..).trans (by simp only [State.pace, State.blk_count])

theorem State.pace_modTens (s : State) (l : List Nat) (f : TensorRt → TensorRt) (b : Nat) :
    (l.foldl (fun s t => s.modTen t f) s).pace b = s.pace b :=
  foldl_keeps_eq (·.pace b) (by intros; rfl) l s

theorem State.pace_consumerStarts (s : State) (l : List Nat) (b : Nat) : (l.foldl State.consumerStarts s).pace b = s.pace b :=
  foldl_keeps_eq (·.pace b) (fun _ _ => Same.pace_eq (l := [.queues]) (by simp [Same.refl]) b) l s

/-- A block that begins a step runs it and does not wait; the others go on as they did. -/
theorem State.pace_beginStep (s : State) (b n c : Nat) : (s.beginStep b n).pace c = if c = b then (n, false) else s.pace c := by
  cases ahead : n == s.gov.step + 1 <;>
    simp only [State.beginStep, ahead, Bool.false_eq_true, if_true, if_false, State.pace_consumerStarts, State.pace_modTens] <;>
    by_cases same : c = b <;> simp [State.pace, same]

/-- A block set back runs the step named and does not wait; the others go on as they did. -/
theorem State.pace_restartBlock (s : State) (n b c : Nat) : (s.restartBlock n b).pace c = if c = b then (n, false) else s.pace c := by
  simp only [State.restartBlock, State.pace_beginStep]
  refine ite_congr rfl (fun _ => rfl) fun other => ?_
  rw [State.pace_modTens, State.pace_modBlk_of_ne other]
  split
  · rw [foldl_keeps_eq (·.pace c) (fun s p => s.pace_restorePlan p c), State.pace_discard]
  · rw [State.pace_discard]

/-- Of the blocks set back, each runs the step named. -/
theorem State.pace_restartBlocks (s : State) (n b : Nat) (l : List Nat) :
    (l.foldl (fun s b => s.restartBlock n b) s).pace b = if b ∈ l then (n, false) else s.pace b := by
  induction l generalizing s with
  | nil => simp
  | cons a l ih =>
    rw [List.foldl_cons, ih, State.pace_restartBlock]
    by_cases last : b ∈ l <;> by_cases now : b = a <;> simp [last, now]

/-! ## The squash -/

/-- Every queue cleared or rewound (R235). -/
def State.queuesSquashed (s : State) (n next : Nat) (skip : Bool) : State := s.queues.foldl (fun a e => a.squashQueue e.1 n next skip) s

/-- No region holds a statistics record. -/
def State.recordsCleared (s : State) : State :=
  [0, 1, 2, 3].foldl (fun a r => a.modRgn r fun g => { g with tally := [], inbox := [] }) s

/-- Every block that hosts stages is set back to a step. -/
def State.blocksRestarted (s : State) (next : Nat) : State := s.hosting.foldl (fun a b => a.restartBlock next b) s

theorem State.queuesSquashed_same (s : State) (n next : Nat) (skip : Bool) :
    Same [.regions, .queues, .counters] s (s.queuesSquashed n next skip) :=
  same_foldl _ (fun _ _ h => State.squashQueue_same _ _ _ _ h (by decide) (by decide) (by decide)) _ s (Same.refl _ s)

theorem State.recordsCleared_same (s : State) : Same [.regions] s s.recordsCleared :=
  same_foldl _ (fun _ _ h => State.modRgn_same _ _ h (by decide)) _ s (Same.refl _ s)

theorem State.blocksRestarted_same (s : State) (next : Nat) : Same [.blocks, .queues, .tensors, .mem, .counters] s (s.blocksRestarted next) :=
  same_foldl _ (fun _ _ h => State.restartBlock_same _ _ h (by decide) (by decide) (by decide) (by decide) (by decide)) _ s (Same.refl _ s)

theorem State.rgn_recordsCleared (s : State) {r : Nat} (h : r < 4) : (s.recordsCleared.rgn r).tally = [] ∧ (s.recordsCleared.rgn r).inbox = [] := by
  have regions : r = 0 ∨ r = 1 ∨ r = 2 ∨ r = 3 := by omega
  rcases regions with rfl | rfl | rfl | rfl <;> simp [State.recordsCleared]

/-- The queues, the records and the blocks after the squash of step `n`, of which `next` runs next. -/
def State.squashed (s : State) (n next : Nat) (skip : Bool) : State := ((s.queuesSquashed n next skip).recordsCleared).blocksRestarted next

theorem State.gov_squashed (s : State) (n next : Nat) (skip : Bool) : (s.squashed n next skip).gov = s.gov :=
  have restarted : (s.squashed n next skip).gov = (s.queuesSquashed n next skip).recordsCleared.gov :=
    (State.blocksRestarted_same _ next).parts .gov (by decide)
  have cleared : (s.queuesSquashed n next skip).recordsCleared.gov = (s.queuesSquashed n next skip).gov :=
    (State.recordsCleared_same _).parts .gov (by decide)
  have squashed : (s.queuesSquashed n next skip).gov = s.gov := (s.queuesSquashed_same n next skip).parts .gov (by decide)
  restarted.trans (cleared.trans squashed)

theorem State.rgn_squashed (s : State) (n next : Nat) (skip : Bool) {r : Nat} (h : r < 4) :
    ((s.squashed n next skip).rgn r).tally = [] ∧ ((s.squashed n next skip).rgn r).inbox = [] := by
  have regions : (s.squashed n next skip).regions = (s.queuesSquashed n next skip).recordsCleared.regions :=
    (State.blocksRestarted_same _ next).parts .regions (by decide)
  rw [State.rgn, regions]
  exact State.rgn_recordsCleared _ h

theorem State.pace_squashed (s : State) (n next : Nat) (skip : Bool) {b : Nat} (hosts : b ∈ s.hosting) :
    (s.squashed n next skip).pace b = (next, false) := by
  have cleared : (s.queuesSquashed n next skip).recordsCleared.job = (s.queuesSquashed n next skip).job :=
    (State.recordsCleared_same _).parts .job (by decide)
  have squashed : (s.queuesSquashed n next skip).job = s.job := (s.queuesSquashed_same n next skip).parts .job (by decide)
  have hosts' : b ∈ (s.queuesSquashed n next skip).recordsCleared.hosting := by rwa [State.hosting, cleared, squashed]
  exact (State.pace_restartBlocks ..).trans (if_pos hosts')

/-- QUEUE_SQUASH where a replay (1) or skip (2) of step `n` awaits it and no block has a transfer in progress. -/
theorem execQueueSquash_of_idle {s : State} {n verdict : Nat} (waits : s.gov.squash = some (n, verdict))
    (idle : ∀ b ∈ s.hosting, (s.blk b).xfer = none) :
    let u := s.squashed n (if verdict = 2 then n + 1 else n) (verdict == 2)
    exec .queueSquash s = .next { u with gov := { u.gov with squash := none } } := by
  have noXfer : (s.hosting.any fun b => (s.blk b).xfer.isSome) = false := by
    simpa using idle
  show execQueueSquash s = _
  simp only [execQueueSquash, waits, noXfer, Bool.false_eq_true, if_false, beq_iff_eq]
  rfl

/-- Settles O29: each change that is due is taken by `State.takeChange`, and the squash sets every hosting block back (`State.pace_squashed`). -/
theorem formatChangesAndSquash : Obligations.FormatChangesAndSquash := by
  unfold Obligations.FormatChangesAndSquash
  refine ⟨fun s held => execFormatChangeEffect_of_squash held, fun s free => ?_, fun s n verdict waits idle => ?_⟩
  · refine ⟨_, execFormatChangeEffect_of_none free, ?_, ?_, fun c e k due policy found => ?_⟩
    · exact congrArg Prod.fst (foldl_keeps_eq State.waiting State.waiting_takeChange ..)
    · exact congrArg Prod.snd (foldl_keeps_eq State.waiting State.waiting_takeChange ..)
    · rw [State.begun, due]
      exact State.entry_takeChange policy found
  · refine ⟨_, execQueueSquash_of_idle waits idle, rfl, ?_, fun r small => State.rgn_squashed s _ _ _ small, fun b hosts => ?_⟩
    · simp only [State.gov_squashed]
    · exact Prod.mk.inj (State.pace_squashed s _ _ _ hosts)

end Sys2Proof.Machine
